-- ==== Sys2Proof/Word.lean ====
section
/-! DEFINITION. The word types of the KD96 and their plainest arithmetic (00 R6, R9). -/
namespace Sys2Proof

/-- One byte. -/
abbrev Byte := BitVec 8
/-- A 32-bit register of a clove core (05 R133) or a debug register (00 R9). -/
abbrev Word := BitVec 32
/-- An instruction word of a clove core (05 R156) or a group-scale descriptor (06 R190). -/
abbrev DWord := BitVec 64
/-- A string of bytes in the order in which they are sent or stored. -/
abbrev Bytes := List Byte
/-- A sparse table by number, sorted by key, with no entry for what a missing key stands for. -/
abbrev Tab (α : Type) := List (Nat × α)

end Sys2Proof
end

