-- ==== Sys2Proof/Syntax.lean ====
section
/-! DEFINITION. The commands of the block (spec/opcode_table.json), one constructor for each row, and the data they carry. -/
namespace Sys2Proof

/-- What a command packet carries beside its opcode and parameters (13 R393): the stamped sender (0x01 the host,
13 R419), TAG, and EPOCH. A packet that stands here has passed the framing checks of 13 R395. -/
structure Hdr where
  sender : Byte
  tag : BitVec 16
  epoch : BitVec 32
deriving DecidableEq, Repr

/-- A long CSI-2 packet as received (03 R58, R64): its port, virtual channel, data type, declared word count, payload, and
whether its CRC agrees. -/
structure LongPkt where
  port : Nat
  vc : Nat
  dataType : Nat
  wordCount : Nat
  payload : Bytes
  crcOk : Bool
  /-- The header ECC corrected a single-bit error (03 R64). -/
  fix : Bool
deriving DecidableEq, Repr

/-- What discovery has seen on a default pair (16 R514). -/
structure PairSeen where
  /-- Consecutive complete lines. -/
  lines : Nat
  /-- Active lanes of the port, and its clock-lane frequency in kHz. -/
  lanes : Nat
  clock : Nat
  /-- A Frame Start has been seen. -/
  frame : Bool
  dataType : Nat
  /-- Long packets of a line arrive in groups whose Line Start [1:0] runs 0 to n - 1: n, or 1. -/
  group : Nat
deriving DecidableEq, Repr

/-- Where a pre-emption stops one core (05 R170; 08 R249): the instructions in progress with their next k or row, oldest
first, and the bytes done of each DMA transfer in the queue. -/
structure StopPoint where
  core : Nat
  partials : List (DWord × Nat)
  dma : List Nat
deriving DecidableEq, Repr

/-- A decode line that the serving loop opens (10 R297): its sample, the encoder draft, the seed positions, the first text
position, and the operands of its SEQ_OPEN (09 R278). -/
structure OpenLine where
  sheet : Nat
  region : Nat
  draft : List Nat
  seeds : Nat
  firstText : Nat
  flags : Nat
  prefixId : Nat
  dir : Nat
  src : Nat
  index : Nat
deriving DecidableEq, Repr

/-- A tile of a step: its cluster, whether it serves only slow-lane lines (10 R285), and its descriptor (05 R167). -/
structure TileRow where
  cluster : Nat
  slow : Bool
  desc : Bytes
deriving DecidableEq, Repr

/-- Where the row results of a line lie (10 R294). -/
structure ResultPlace where
  sheet : Nat
  region : Nat
  cluster : Nat
  offset : Nat
deriving DecidableEq, Repr

/-- What firmware chooses at a build (10 R288 to R299): the lines it opens first, the step's tiles in list order, the handle of
its lists in commons, the done tally, and where results lie. -/
structure StepPlan where
  opens : List OpenLine
  tiles : List TileRow
  handle : Nat
  doneTally : Nat
  results : List ResultPlace
deriving DecidableEq, Repr

/-- What the decode tiles leave for an accepted token beside its row result (12 R367): the VALUE of the row's SARGM record,
and the token's columns. -/
structure RowFact where
  logit : Word
  x : Nat
  w : Nat
deriving DecidableEq, Repr

/-- A field as the field model and the field rules give it (12 R366): STATE, pending on its rules, the lines it came from and
waits on, the value, its type code, and the result of its rules. -/
structure FieldValue where
  field : Nat
  state : Nat
  rules : Bool
  region : Nat
  wait : Nat
  value : Bytes
  tag : Nat
  status : Nat
deriving DecidableEq, Repr

/-- A packet as its bytes came (13 R392, R395): its 16 header bytes, its parameter bytes, its payload CRC, and whether a
write transfer carried bytes beyond its end. -/
structure BadPacket where
  header : Bytes
  params : Bytes
  crc : Word
  extra : Bool
deriving DecidableEq, Repr

/-- A granule of on-chip SRAM (15 R476): the UNIT code of R475 (1 a core's memory, 2 a commons or tally home, 3 I/O-die SRAM,
5 control-core or security-core memory), the core, cluster or number it belongs to, and its offset. -/
structure SramGranule where
  unit : Nat
  place : Nat
  offset : Nat
deriving DecidableEq, Repr

/-- The header of an intact mirror item (15 R486). -/
structure ItemHdr where
  mseq : Nat
  acked : Nat
  stamp : Nat
deriving DecidableEq, Repr

/-- The commands of the block: one constructor for each row of the opcode table, in the table's order. The first operand
`dt` of every one is the time since the row before it, in TB units of 1 ns. `fix` of a short packet says that its header ECC
corrected a single-bit error (03 R64). -/
inductive Instr where
  /-- TIME_READ, R52: Host command that returns the 8-byte TB sampled when the last bit of the command's write transfer is received. -/
  | timeRead (dt : Nat) (h : Hdr) (p : Bytes)
  /-- SLOT_POST, R33: Host command that checks a 32-byte slot record, converts a RELATIVE DUE and admits it to a host-pool Forecast slot. -/
  | slotPost (dt : Nat) (h : Hdr) (p : Bytes)
  /-- SLOT_CANCEL, R50: Command that cancels a slot, decided by its stamp against the hand-over of the waiting occurrence. -/
  | slotCancel (dt : Nat) (h : Hdr) (p : Bytes)
  /-- SLOT_QUERY, R52: Command that returns the 32-byte record of a slot. -/
  | slotQuery (dt : Nat) (h : Hdr) (p : Bytes)
  /-- PRE_DISPATCH, R39: At DUE - 256 ns, or at admission if later, the Forecast unit requests the occurrence's charge and hands the action to its target. -/
  | preDispatch (dt : Nat) (slot : Nat)
  /-- SHARE_GRANT, R449: A waiting VDD_CORE share is granted within the 80-unit-per-microsecond limit, and its cores or die ramp up. -/
  | shareGrant (dt : Nat)
  /-- STROBE, R74: Launch of a STROBE action that drives a general pin to its active level for the pulse width. -/
  | strobe (dt : Nat) (slot : Nat)
  /-- LINE_TRIG, R74: Launch of a LINE_TRIG action that pulses the line-trigger pin. -/
  | lineTrig (dt : Nat) (slot : Nat)
  /-- PIN_SET, R35: Launch of a PIN_SET action that sets a general pin's level. -/
  | pinSet (dt : Nat) (slot : Nat)
  /-- STEP_START, R167: Launch of a STEP_START action that hands a step's tile list to the dispatcher of each cluster in the mask. -/
  | stepStart (dt : Nat) (slot : Nat)
  /-- OUT_RELEASE, R373: Launch of an OUT_RELEASE action that places a committed record in its port's record queue. -/
  | outRelease (dt : Nat) (slot : Nat)
  /-- DEADLINE, R49: Evaluation of a DEADLINE action at D + 64 ns, in which the awaited arrival wins if stamped at or before D, and otherwise the ARG1 tally is signalled. -/
  | deadline (dt : Nat) (slot : Nat)
  /-- WAKE, R435: Launch of a WAKE action that starts the wake of a power domain under its wake charge. -/
  | wake (dt : Nat) (slot : Nat)
  /-- TALLY_SIGNAL_ACTION, R35: Launch of a TALLY_SIGNAL action that adds its count to a tally. -/
  | tallySignalAction (dt : Nat) (slot : Nat)
  /-- DOORBELL, R425: Launch of a DOORBELL action that rings a mailbox channel's doorbell, checked again against the ACL. -/
  | doorbell (dt : Nat) (slot : Nat)
  /-- QUIET_POINT, R411: Launch of a QUIET_POINT action that opens the quiet window, after which intake refuses new sides. -/
  | quietPoint (dt : Nat) (slot : Nat)
  /-- TB_MARK, R375: Launch of a TB_MARK action that sends a TIME_MARK packet on the port's MARK_VC. -/
  | tbMark (dt : Nat) (slot : Nat)
  /-- WATCH, R36: Launch of a repeating WATCH slot, at which the supervisor compares TB with the last stamps of its objects. -/
  | watch (dt : Nat) (slot : Nat)
  /-- PACKET_GAP, R392: A command packet whose next byte is overdue is abandoned and answered with 0x01A2. -/
  | packetGap (dt : Nat) (header : Option Bytes)
  /-- IBI_RETRY, R401: An IBI request that was NACKed is repeated while its cause stands. -/
  | ibiRetry (dt : Nat) (nack : Bool)
  /-- CONTROL_WATCHDOG, R467: A control core that has not serviced its watchdog for 50 ms raises fault 0x07C2. -/
  | controlWatchdog (dt : Nat) (core : Nat) (served : Bool)
  /-- LEARNING_TARGET_EXPIRY, R318: A learning target that has matched no sample within 60 s is freed and reported by event 8. -/
  | learningTargetExpiry (dt : Nat)
  /-- MISSING_LINE, R64: The line watch finds no complete line within 1.5 x LINE_PERIOD and takes one missing, corrupt line. -/
  | missingLine (dt : Nat) (stream : Nat)
  /-- FRAME_START, R62: A Frame Start packet on a FRAME or REPLAY stream begins a sheet side, closes an open one and is an epoch boundary. -/
  | frameStart (dt : Nat) (fix : Bool) (port vc : Nat)
  /-- FRAME_END, R62: A Frame End packet closes the open frame's side, or discards an empty frame with 0x0625. -/
  | frameEnd (dt : Nat) (fix : Bool) (port vc : Nat)
  /-- LINE_START, R60: A Line Start packet opens a line and gives its channel or line count. -/
  | lineStart (dt : Nat) (fix : Bool) (port vc data : Nat)
  /-- LONG_PACKET, R64: A long packet is checked for word count, CRC, framing and data type and stored for its line's channel. -/
  | longPacket (dt : Nat) (k : LongPkt)
  /-- LINE_END, R73: A Line End completes a line, which is corrected, aligned, classified, edge-tracked and written to the intake ring. -/
  | lineEnd (dt : Nat) (fix : Bool) (port vc : Nat)
  /-- UNCORRECTABLE_HEADER_ERROR, R64: A packet with an uncorrectable header is discarded and every line in progress on the port becomes corrupt. -/
  | uncorrectableHeaderError (dt : Nat) (port : Nat)
  /-- GENERIC_SHORT_PACKET, R62: Generic short packets before Frame Start on a REPLAY stream carry the original sheet identifier. -/
  | genericShortPacket (dt : Nat) (fix : Bool) (port vc code data : Nat)
  /-- TACH_EDGE, R70: A rising edge on TACH_PIN is stamped and feeds the feed-speed estimate. -/
  | tachEdge (dt : Nat) (pin : Nat)
  /-- STREAM_START, R83: A stream starts once its ledger charges are admitted and leaves STATE 1. -/
  | streamStart (dt : Nat) (stream : Nat)
  /-- STREAM_OPEN, R92: Command that opens a stream after its ordered range, ownership, bandwidth, pool and slot checks. -/
  | streamOpen (dt : Nat) (h : Hdr) (p : Bytes)
  /-- STREAM_CLOSE, R87: Command that closes a stream, discards a side in progress and returns its slots, charges and storage. -/
  | streamClose (dt : Nat) (h : Hdr) (p : Bytes)
  /-- FLAT_LOAD, R68: Command that loads a flat-field table into the intake line-buffer pool for one channel. -/
  | flatLoad (dt : Nat) (h : Hdr) (p : Bytes)
  /-- SPEED_SET, R70: Command that gives a host-sourced feed speed with its effective TB. -/
  | speedSet (dt : Nat) (h : Hdr) (p : Bytes)
  /-- STREAM_STATUS, R92: Command that returns a stream's state, edge state, sheet identifier and line counts. -/
  | streamStatus (dt : Nat) (h : Hdr) (p : Bytes)
  /-- STREAM_DISCOVERY, R514: While AUTO_OPEN is 1, 16 complete lines on a default pair lead the device to set the stream's parameters and open it. -/
  | streamDiscovery (dt : Nat) (stream : Nat) (seen : PairSeen)
  /-- DISCOVERY_RETRY, R514: A refused discovery pair is retried after 1 s. -/
  | discoveryRetry (dt : Nat) (stream : Nat) (seen : PairSeen)
  /-- BAND_PREPARED, R99: Preparation finishes deskew, crop and pyramid of a band into a band slot, hands it to output and releases ring lines. -/
  | bandPrepared (dt : Nat) (stream : Nat)
  /-- BATCH_FILLED, R117: The cutter has filled every slot of a batch and signals the batch's tally. -/
  | batchFilled (dt : Nat) (cls : Nat)
  /-- SPLIT_ADVICE, R123: A band that has waited longer than SPLIT_ADVISE for a slot sends event 6. -/
  | splitAdvice (dt : Nat) (stream : Nat)
  /-- REGION_POST, R130: Host command that posts region records for a side that awaits host regions. -/
  | regionPost (dt : Nat) (h : Hdr) (p : Bytes)
  /-- AUG_POST, R126: Command that posts augmentation records into the 8,192-entry table. -/
  | augPost (dt : Nat) (h : Hdr) (p : Bytes)
  /-- STEER_SET, R130: Command that replaces a stream's steering list. -/
  | steerSet (dt : Nat) (h : Hdr) (p : Bytes)
  /-- PREP_STATUS, R130: Command that returns a stream's preparation counts. -/
  | prepStatus (dt : Nat) (h : Hdr) (p : Bytes)
  /-- ADD, R157: Scalar add instruction. -/
  | addI (dt : Nat) (core : Nat) (w : DWord)
  /-- SUB, R157: Scalar subtract instruction. -/
  | subI (dt : Nat) (core : Nat) (w : DWord)
  /-- MUL, R157: Scalar multiply instruction, low 32 bits. -/
  | mulI (dt : Nat) (core : Nat) (w : DWord)
  /-- AND, R157: Scalar AND instruction. -/
  | andI (dt : Nat) (core : Nat) (w : DWord)
  /-- OR, R157: Scalar OR instruction. -/
  | orI (dt : Nat) (core : Nat) (w : DWord)
  /-- XOR, R157: Scalar XOR instruction. -/
  | xorI (dt : Nat) (core : Nat) (w : DWord)
  /-- SHL, R157: Scalar shift-left instruction. -/
  | shl (dt : Nat) (core : Nat) (w : DWord)
  /-- SHR, R157: Scalar logical shift-right instruction. -/
  | shr (dt : Nat) (core : Nat) (w : DWord)
  /-- SRA, R157: Scalar arithmetic shift-right instruction. -/
  | sra (dt : Nat) (core : Nat) (w : DWord)
  /-- MIN, R157: Scalar minimum instruction. -/
  | minI (dt : Nat) (core : Nat) (w : DWord)
  /-- MAX, R157: Scalar maximum instruction. -/
  | maxI (dt : Nat) (core : Nat) (w : DWord)
  /-- CMP, R157: Instruction that compares two registers and writes a predicate. -/
  | cmp (dt : Nat) (core : Nat) (w : DWord)
  /-- BR, R157: Conditional branch instruction. -/
  | br (dt : Nat) (core : Nat) (w : DWord)
  /-- LOOP, R157: Instruction that opens a hardware loop level over a body. -/
  | loop (dt : Nat) (core : Nat) (w : DWord)
  /-- TBRD, R157: Instruction that reads TB into two X registers. -/
  | tbrd (dt : Nat) (core : Nat) (w : DWord)
  /-- HALT, R169: Instruction that waits for every unit, signals DONE_TALLY and leaves the core idle. -/
  | halt (dt : Nat) (core : Nat) (w : DWord)
  /-- GSET, R191: Instruction that writes a group-scale descriptor into a G register. -/
  | gset (dt : Nat) (core : Nat) (w : DWord)
  /-- LD, R158: Scalar load instruction. -/
  | ld (dt : Nat) (core : Nat) (w : DWord)
  /-- ST, R158: Scalar store instruction. -/
  | st (dt : Nat) (core : Nat) (w : DWord)
  /-- LDV, R158: Vector load instruction of 256 bytes. -/
  | ldv (dt : Nat) (core : Nat) (w : DWord)
  /-- STV, R158: Vector store instruction of 256 bytes. -/
  | stv (dt : Nat) (core : Nat) (w : DWord)
  /-- LDVC, R158: Vector load instruction with conversion from a narrow format. -/
  | ldvc (dt : Nat) (core : Nat) (w : DWord)
  /-- STVC, R158: Vector store instruction with conversion to a narrow format. -/
  | stvc (dt : Nat) (core : Nat) (w : DWord)
  /-- DMA, R164: Instruction that queues a DMA transfer from a 32-byte descriptor. -/
  | dma (dt : Nat) (core : Nat) (w : DWord)
  /-- DMA_COMPLETE, R164: A DMA transfer's data is visible at its destination and its tally is signalled. -/
  | dmaComplete (dt : Nat) (core entry : Nat)
  /-- MM_I8, R135: INT8 matrix outer-product accumulation instruction. -/
  | mmI8 (dt : Nat) (core : Nat) (w : DWord)
  /-- MM_E4, R189: FP8 E4M3 matrix accumulation instruction. -/
  | mmE4 (dt : Nat) (core : Nat) (w : DWord)
  /-- MM_E5, R189: FP8 E5M2 matrix accumulation instruction. -/
  | mmE5 (dt : Nat) (core : Nat) (w : DWord)
  /-- MM_BF, R189: BF16 matrix accumulation instruction. -/
  | mmBf (dt : Nat) (core : Nat) (w : DWord)
  /-- MMT_I8, R194: Table-multiply instruction with 8-bit integer activations and 4-bit weight codes. -/
  | mmtI8 (dt : Nat) (core : Nat) (w : DWord)
  /-- MMT_E4, R194: Table-multiply instruction with E4M3 activations and 4-bit weight codes. -/
  | mmtE4 (dt : Nat) (core : Nat) (w : DWord)
  /-- TLOAD, R138: Instruction that fills an accumulator tile from own scratchpad. -/
  | tload (dt : Nat) (core : Nat) (w : DWord)
  /-- VECTOR_ADD, R196: Vector add instruction. -/
  | vectorAdd (dt : Nat) (core : Nat) (w : DWord)
  /-- VECTOR_MUL, R196: Vector multiply instruction. -/
  | vectorMul (dt : Nat) (core : Nat) (w : DWord)
  /-- FMA, R196: Vector fused multiply-add instruction. -/
  | fma (dt : Nat) (core : Nat) (w : DWord)
  /-- VECTOR_MAX, R196: Vector maximum instruction. -/
  | vectorMax (dt : Nat) (core : Nat) (w : DWord)
  /-- VECTOR_MIN, R196: Vector minimum instruction. -/
  | vectorMin (dt : Nat) (core : Nat) (w : DWord)
  /-- EXP, R196: Vector exponential instruction, correctly rounded. -/
  | exp (dt : Nat) (core : Nat) (w : DWord)
  /-- RCP, R196: Vector reciprocal instruction. -/
  | rcp (dt : Nat) (core : Nat) (w : DWord)
  /-- RSQRT, R196: Vector reciprocal square-root instruction. -/
  | rsqrt (dt : Nat) (core : Nat) (w : DWord)
  /-- RSUM, R196: Vector tree sum of 64 lanes into lane 0. -/
  | rsum (dt : Nat) (core : Nat) (w : DWord)
  /-- RMAX, R196: Vector tree maximum of 64 lanes into lane 0. -/
  | rmax (dt : Nat) (core : Nat) (w : DWord)
  /-- CVT, R196: Vector conversion instruction. -/
  | cvt (dt : Nat) (core : Nat) (w : DWord)
  /-- DRAIN, R198: Instruction that converts a tile with scale, bias, activation and quantisation adjustments and writes it to scratchpad. -/
  | drain (dt : Nat) (core : Nat) (w : DWord)
  /-- SSOFT, R232: Instruction that turns a score tile into probabilities and updates the row statistics and output tiles. -/
  | ssoft (dt : Nat) (core : Nat) (w : DWord)
  /-- SPV_BF, R233: Instruction that accumulates BF16 probabilities times a value block. -/
  | spvBf (dt : Nat) (core : Nat) (w : DWord)
  /-- SPV_E4, R233: Instruction that accumulates E4M3 probabilities times a value block. -/
  | spvE4 (dt : Nat) (core : Nat) (w : DWord)
  /-- SNORM, R234: Instruction that normalises the output tiles by the running sum and optionally writes the LSE. -/
  | snorm (dt : Nat) (core : Nat) (w : DWord)
  /-- SSTAT, R231: Instruction that stores a Y register's statistics. -/
  | sstat (dt : Nat) (core : Nat) (w : DWord)
  /-- SLDST, R239: Instruction that loads partial statistics into a Y register and clears MASK. -/
  | sldst (dt : Nat) (core : Nat) (w : DWord)
  /-- SMERGE, R239: Instruction that folds one partial attention record into Y and the output tiles. -/
  | smerge (dt : Nat) (core : Nat) (w : DWord)
  /-- SAPP, R240: Instruction that converts, position-encodes and appends key or value rows to a slab or to scratchpad. -/
  | sapp (dt : Nat) (core : Nat) (w : DWord)
  /-- SBWD, R245: Instruction that recomputes probabilities and score gradients for the backward pass. -/
  | sbwd (dt : Nat) (core : Nat) (w : DWord)
  /-- STRN, R247: Instruction that transposes a 64 x 64 block. -/
  | strn (dt : Nat) (core : Nat) (w : DWord)
  /-- SXLT, R261: Instruction that asks the slab walker to translate up to 4 slab indices. -/
  | sxlt (dt : Nat) (core : Nat) (w : DWord)
  /-- WALKER_REPLY, R264: The slab walker answers a translation or append request after an SLB hit or miss, allocation or drops. -/
  | walkerReply (dt : Nat) (cluster : Nat)
  /-- COPY_ON_WRITE_COMPLETE, R267: The copy ends, the directory entry becomes private, the reference is dropped and the invalidation completes. -/
  | copyOnWriteComplete (dt : Nat) (slab : Nat)
  /-- GMASK, R343: Instruction that hands a mask list to the cluster's grammar mask unit. -/
  | gmask (dt : Nat) (core : Nat) (w : DWord)
  /-- MASK_REQUEST, R342: The mask unit processes a mask request, consuming inputs, writing states and masks and signalling the list tally. -/
  | maskRequest (dt : Nat) (cluster : Nat)
  /-- SARGM, R344: Instruction that takes the masked argmax of a logits tile into per-row records. -/
  | sargm (dt : Nat) (core : Nat) (w : DWord)
  /-- TSIG, R149: Instruction that signals a tally, which stamps LAST_SIG and REACHED and serves waiters. -/
  | tsig (dt : Nat) (core : Nat) (w : DWord)
  /-- TWAIT, R149: Instruction that consumes k from a tally or queues until granted. -/
  | twait (dt : Nat) (core : Nat) (w : DWord)
  /-- TTRY, R149: Instruction that consumes k from a tally if possible, without queueing. -/
  | ttry (dt : Nat) (core : Nat) (w : DWord)
  /-- TWAITGE, R149: Instruction that waits until a tally's COUNT reaches a threshold. -/
  | twaitge (dt : Nat) (core : Nat) (w : DWord)
  /-- TSET, R149: Instruction that sets a tally's COUNT and serves waiters. -/
  | tset (dt : Nat) (core : Nat) (w : DWord)
  /-- TARM, R149: Instruction that sets a tally's ARM threshold. -/
  | tarm (dt : Nat) (core : Nat) (w : DWord)
  /-- TREAD, R149: Instruction that reads a tally's COUNT. -/
  | tread (dt : Nat) (core : Nat) (w : DWord)
  /-- FENCE, R145: Instruction that waits until every earlier store of the core is acknowledged. -/
  | fence (dt : Nat) (core : Nat) (w : DWord)
  /-- WAITU, R155: Instruction that waits for the named units to finish earlier instructions. -/
  | waitu (dt : Nat) (core : Nat) (w : DWord)
  /-- SEND, R160: Instruction that passes a 64-byte message to the cluster agent for mailbox delivery. -/
  | send (dt : Nat) (core : Nat) (w : DWord)
  /-- WMM_I8, R217: Window matrix instruction with INT8 gather from a feature map. -/
  | wmmI8 (dt : Nat) (core : Nat) (w : DWord)
  /-- WMM_E4, R217: Window matrix instruction in E4M3. -/
  | wmmE4 (dt : Nat) (core : Nat) (w : DWord)
  /-- WMM_E5, R217: Window matrix instruction in E5M2. -/
  | wmmE5 (dt : Nat) (core : Nat) (w : DWord)
  /-- WMM_BF, R217: Window matrix instruction in BF16. -/
  | wmmBf (dt : Nat) (core : Nat) (w : DWord)
  /-- WMMT_I8, R217: Window table-multiply instruction with integer activations. -/
  | wmmtI8 (dt : Nat) (core : Nat) (w : DWord)
  /-- WMMT_E4, R217: Window table-multiply instruction with E4M3 activations. -/
  | wmmtE4 (dt : Nat) (core : Nat) (w : DWord)
  /-- WDRAIN, R219: Instruction that drains a tile into a tensor layout or a zero-run-compressed segment. -/
  | wdrain (dt : Nat) (core : Nat) (w : DWord)
  /-- WPOOL, R223: Instruction that max- or average-pools a window into an FP32 tile. -/
  | wpool (dt : Nat) (core : Nat) (w : DWord)
  /-- WRES, R224: Instruction that resamples a map by nearest or bilinear interpolation. -/
  | wres (dt : Nat) (core : Nat) (w : DWord)
  /-- WUNZ, R222: Instruction that decodes a zero-run-compressed segment into a map. -/
  | wunz (dt : Nat) (core : Nat) (w : DWord)
  /-- PREEMPTION_REQUEST, R170: A pre-emption request reaching a cluster agent stops the named cores and keeps their progress. -/
  | preemptionRequest (dt : Nat) (cluster mask : Nat) (stops : List StopPoint)
  /-- CONTEXT_VALID, R171: A context save completes when DDR4 acknowledges its header, and the agent reports the core idle. -/
  | contextValid (dt : Nat) (core : Nat)
  /-- RESTORE, R175: A restore of a saved context onto an idle core starts, or is refused. -/
  | restore (dt : Nat) (core ctx : Nat)
  /-- RESTORE_COMPLETE, R175: A restore ends, the core map entry is set and issue resumes at PC. -/
  | restoreComplete (dt : Nat) (core : Nat)
  /-- CORE_STATUS, R179: Command that returns the states and jobs of a cluster's cores. -/
  | coreStatus (dt : Nat) (h : Hdr) (p : Bytes)
  /-- TALLY_QUERY, R179: Command that returns a tally's 32-byte record. -/
  | tallyQuery (dt : Nat) (h : Hdr) (p : Bytes)
  /-- TALLY_SIGNAL, R179: Host command that signals a host-range tally. -/
  | tallySignal (dt : Nat) (h : Hdr) (p : Bytes)
  /-- TALLY_ARM, R179: Host command that arms a host-range tally. -/
  | tallyArm (dt : Nat) (h : Hdr) (p : Bytes)
  /-- TALLY_SET, R179: Host command that sets a host-range tally's COUNT. -/
  | tallySet (dt : Nat) (h : Hdr) (p : Bytes)
  /-- QP_QUERY, R205: Command that returns a quantisation point's record. -/
  | qpQuery (dt : Nat) (h : Hdr) (p : Bytes)
  /-- QP_SET, R205: Command that sets a quantisation point's mode and limits from its next fold. -/
  | qpSet (dt : Nat) (h : Hdr) (p : Bytes)
  /-- SEQ_OPEN, R257: Command that opens a sequence, optionally attached to a prefix. -/
  | seqOpen (dt : Nat) (h : Hdr) (p : Bytes)
  /-- SEQ_CLOSE, R268: Command that closes a sequence and releases its references and private slabs. -/
  | seqClose (dt : Nat) (h : Hdr) (p : Bytes)
  /-- SEQ_COMMIT, R258: Command that sets a sequence's committed length. -/
  | seqCommit (dt : Nat) (h : Hdr) (p : Bytes)
  /-- SEQ_ENTER, R278: Command that enters sequences in a step, all or nothing. -/
  | seqEnter (dt : Nat) (h : Hdr) (p : Bytes)
  /-- STEP_RETIRE, R263: Command that retires a step, releasing its pins and the unused part of its reservation. -/
  | stepRetire (dt : Nat) (h : Hdr) (p : Bytes)
  /-- SLAB_RESERVE, R271: Command that reserves slabs for a step, dropping victim columns if needed. -/
  | slabReserve (dt : Nat) (h : Hdr) (p : Bytes)
  /-- PREFIX_SHARE, R278: Command that turns a sequence's private slabs into a registered shared prefix. -/
  | prefixShare (dt : Nat) (h : Hdr) (p : Bytes)
  /-- PREFIX_DROP, R278: Command that releases the registry's reference on a prefix's slabs. -/
  | prefixDrop (dt : Nat) (h : Hdr) (p : Bytes)
  /-- SEQ_QUERY, R278: Command that returns a sequence table entry. -/
  | seqQuery (dt : Nat) (h : Hdr) (p : Bytes)
  /-- SLAB_QUERY, R278: Command that returns a slab table entry. -/
  | slabQuery (dt : Nat) (h : Hdr) (p : Bytes)
  /-- SLAB_STATUS, R278: Command that returns slab pool totals. -/
  | slabStatus (dt : Nat) (h : Hdr) (p : Bytes)
  /-- PROMOTION, R274: A shared slab that reaches PROMOTE_REFS is copied to commons and marked PROMOTED when the copy completes. -/
  | promotion (dt : Nat) (slab : Nat)
  /-- STEP_BUILD, R298: At a build opportunity with work, the serving loop reserves slabs, enters sequences, joins lines and posts the STEP_START. -/
  | stepBuild (dt : Nat) (job : Nat) (plan : StepPlan)
  /-- ACCEPTANCE, R294: The serving loop reads a done step's row results, accepts tokens, commits lengths and retires the step. -/
  | acceptance (dt : Nat) (job : Nat) (facts : List (List RowFact))
  /-- RELEASE_CHECK_TIMEOUT, R314: A sheet's release deadline check times out, so unfinished lines move to the slow lane and the record is committed as it stands. -/
  | releaseCheckTimeout (dt : Nat) (sheet : Nat) (fields : List FieldValue)
  /-- SECOND_DEADLINE_TIMEOUT, R317: A sheet's second deadline times out, so slow-lane lines become unread and pending fields unfilled. -/
  | secondDeadlineTimeout (dt : Nat) (sheet : Nat)
  /-- JOB_WAITING, R302: A job that has waited a whole STEP_PERIOD for cores is reported by event 7. -/
  | jobWaiting (dt : Nat) (job : Nat)
  /-- JOB_STATUS, R323: Command that returns a job's state and counts. -/
  | jobStatus (dt : Nat) (h : Hdr) (p : Bytes)
  /-- LINE_QUERY, R323: Command that returns a decode line's state, budget and deadline. -/
  | lineQuery (dt : Nat) (h : Hdr) (p : Bytes)
  /-- LEARN_POST, R318: Command that holds a learning target for a sample. -/
  | learnPost (dt : Nat) (h : Hdr) (p : Bytes)
  /-- LEARN_CONTROL, R320: Command that starts or stops a learn job. -/
  | learnControl (dt : Nat) (h : Hdr) (p : Bytes)
  /-- TEXT_TOKENIZE, R331: Command that tokenizes bytes on a text channel with its carry. -/
  | textTokenize (dt : Nat) (h : Hdr) (p : Bytes)
  /-- TEXT_DETOKENIZE, R351: Command that returns the raw bytes of token IDs. -/
  | textDetokenize (dt : Nat) (h : Hdr) (p : Bytes)
  /-- GRAMMAR_BIND, R345: Command that binds a region KIND and TAG to a grammar and a stop set. -/
  | grammarBind (dt : Nat) (h : Hdr) (p : Bytes)
  /-- STOP_SET, R347: Command that loads the stop strings of a stop set. -/
  | stopSet (dt : Nat) (h : Hdr) (p : Bytes)
  /-- GRAMMAR_LOAD, R351: Command that verifies and loads a signed grammar section into a slot. -/
  | grammarLoad (dt : Nat) (h : Hdr) (p : Bytes)
  /-- GRAMMAR_QUERY, R351: Command that returns a grammar slot's figures. -/
  | grammarQuery (dt : Nat) (h : Hdr) (p : Bytes)
  /-- RECORD_COMMIT, R373: A sheet record, amendment or notice is assembled into the output ring, stamped and its OUT_RELEASE posted. -/
  | recordCommit (dt : Nat) (kind sheet : Nat) (fields : List FieldValue)
  /-- TRANSMIT_PACKET, R359: At a packet boundary a port starts the next packet by priority and frees transmitted ring entries. -/
  | transmitPacket (dt : Nat) (port : Nat)
  /-- OUT_HOLD_FALL, R381: OUT_HOLD_N falls and both ports stop starting packets. -/
  | outHoldFall (dt : Nat)
  /-- OUT_HOLD_RISE, R381: OUT_HOLD_N rises and the ports resume transmission. -/
  | outHoldRise (dt : Nat)
  /-- OUT_STATUS, R384: Command that returns ring occupancy and port queue counts. -/
  | outStatus (dt : Nat) (h : Hdr) (p : Bytes)
  /-- FRAMING_REFUSAL, R395: A received packet with a bad header CRC, a bad length, extra bytes or a bad payload CRC is refused with EXEC 0. -/
  | framingRefusal (dt : Nat) (k : BadPacket)
  /-- REPLY_READ, R399: An I3C private read returns bytes of the oldest reply. -/
  | replyRead (dt : Nat) (max : Nat)
  /-- PARAM_READ, R404: Command that returns a parameter's posted or staged value. -/
  | paramRead (dt : Nat) (h : Hdr) (p : Bytes)
  /-- PARAM_WRITE, R404: Command that checks all entries, then applies or stages them. -/
  | paramWrite (dt : Nat) (h : Hdr) (p : Bytes)
  /-- EPOCH_POST, R407: Command that makes the staged set the next epoch, quiet or not. -/
  | epochPost (dt : Nat) (h : Hdr) (p : Bytes)
  /-- EPOCH_DISCARD, R407: Command that empties the staging. -/
  | epochDiscard (dt : Nat) (h : Hdr) (p : Bytes)
  /-- EPOCH_STATUS, R409: Command that returns epoch history and per-unit epochs. -/
  | epochStatus (dt : Nat) (h : Hdr) (p : Bytes)
  /-- EPOCH_ADOPTION, R408: Blocks with code E other than jobs adopt a posted epoch within 10 us of its post stamp. -/
  | epochAdoption (dt : Nat)
  /-- QUIET_APPLY, R411: When every side of the window is recorded and every step retired, the quiet items are applied and epoch n is adopted by every unit. -/
  | quietApply (dt : Nat)
  /-- ADAPTER_ACTIVATE, R410: Command that stages a quiet item putting a learn job's adapters into service. -/
  | adapterActivate (dt : Nat) (h : Hdr) (p : Bytes)
  /-- RESOURCE_QUERY, R413: Command that returns the owner of a shared resource. -/
  | resourceQuery (dt : Nat) (h : Hdr) (p : Bytes)
  /-- MBOX_WRITE, R420: Host command that sends a message on a channel under its ACL. -/
  | mboxWrite (dt : Nat) (h : Hdr) (p : Bytes)
  /-- MBOX_READ, R427: Command that takes messages from host channels. -/
  | mboxRead (dt : Nat) (h : Hdr) (p : Bytes)
  /-- MBOX_RING, R425: Command that ORs a value into a channel's doorbell. -/
  | mboxRing (dt : Nat) (h : Hdr) (p : Bytes)
  /-- MBOX_DB_READ, R425: Command that reads and clears doorbells. -/
  | mboxDbRead (dt : Nat) (h : Hdr) (p : Bytes)
  /-- MBOX_CONFIG, R424: Command that sets a channel's receiver, depth, ACL and flags. -/
  | mboxConfig (dt : Nat) (h : Hdr) (p : Bytes)
  /-- MBOX_QUERY, R427: Command that returns a channel's settings and counts. -/
  | mboxQuery (dt : Nat) (h : Hdr) (p : Bytes)
  /-- MBOX_FLUSH, R424: Command that removes every message of a channel and clears its doorbell. -/
  | mboxFlush (dt : Nat) (h : Hdr) (p : Bytes)
  /-- ENTDAA, R389: I3C dynamic address assignment by ENTDAA. -/
  | entdaa (dt : Nat) (addr : Nat)
  /-- SETDASA, R389: I3C assignment of the dynamic address from the static address. -/
  | setdasa (dt : Nat) (addr : Nat)
  /-- RSTDAA, R389: I3C common command that gives up the dynamic address. -/
  | rstdaa (dt : Nat)
  /-- ENEC, R391: I3C common command that sets ENINT. -/
  | enec (dt : Nat) (bits : Nat)
  /-- DISEC, R391: I3C common command that clears ENINT. -/
  | disec (dt : Nat) (bits : Nat)
  /-- GETPID, R391: I3C common command that returns the provisioned ID. -/
  | getpid (dt : Nat)
  /-- GETBCR, R388: I3C common command that returns BCR 0x2E. -/
  | getbcr (dt : Nat)
  /-- GETDCR, R391: I3C common command that returns DCR 0x00. -/
  | getdcr (dt : Nat)
  /-- GETSTATUS, R391: I3C common command that returns target status. -/
  | getstatus (dt : Nat)
  /-- SETMWL, R391: I3C common command that sets the maximum write length. -/
  | setmwl (dt : Nat) (n : Nat)
  /-- GETMWL, R391: I3C common command that returns the maximum write length. -/
  | getmwl (dt : Nat)
  /-- SETMRL, R391: I3C common command that sets the maximum read length. -/
  | setmrl (dt : Nat) (n : Nat)
  /-- GETMRL, R391: I3C common command that returns the maximum read length. -/
  | getmrl (dt : Nat)
  /-- GETMXDS, R391: I3C common command that returns maximum data speed. -/
  | getmxds (dt : Nat)
  /-- GETCAPS, R391: I3C common command that returns GETCAP1 and GETCAP2. -/
  | getcaps (dt : Nat)
  /-- ENTHDR0, R391: I3C common command that enters HDR-DDR mode. -/
  | enthdr0 (dt : Nat)
  /-- SLEEP_WAKE_WRITE, R390: In Sleep, a private write to the static address is ACKed and starts a wake with cause I3C. -/
  | sleepWakeWrite (dt : Nat) (addr : Nat)
  /-- PWR_STATE, R438: Command that requests Doze, or Sleep if the device is quiet, and runs the Sleep entry. -/
  | pwrState (dt : Nat) (h : Hdr) (p : Bytes)
  /-- PWR_STATUS, R461: Command that returns device, stack and ledger state. -/
  | pwrStatus (dt : Nat) (h : Hdr) (p : Bytes)
  /-- AGE_QUERY, R460: Command that returns a cluster's age record. -/
  | ageQuery (dt : Nat) (h : Hdr) (p : Bytes)
  /-- AGE_REPLAN, R458: Command that starts an ageing re-plan at once. -/
  | ageReplan (dt : Nat) (h : Hdr) (p : Bytes)
  /-- REPLAN, R458: Every 24 h of powered time a re-plan recomputes each cluster's voltage/frequency plan. -/
  | replan (dt : Nat)
  /-- WAKE_COMPARATOR, R51: The always-on comparator reaches the lead before the earliest due slot and wakes the device from Sleep. -/
  | wakeComparator (dt : Nat) (ticks : Nat)
  /-- WAKE_FROM_SLEEP, R441: A wake cause in Sleep latches PWR_WAKE_CAUSE, restores TB, thaws the save list and leaves self-refresh. -/
  | wakeFromSleep (dt : Nat) (ticks : Nat)
  /-- DEVICE_READY, R441: The device is ready after a wake, answers its dynamic address and sends the MDB 0x05 IBI. -/
  | deviceReady (dt : Nat)
  /-- DOZE_ENTRY, R434: A compute stack with no active charge for DOZE_AFTER, or after PWR_STATE Doze, enters Doze in two phases. -/
  | dozeEntry (dt : Nat) (stack : Nat)
  /-- DOMAIN_READY, R435: A woken domain becomes ready after its exit latency, and its wake charge becomes its standing charge. -/
  | domainReady (dt : Nat) (domain : Nat)
  /-- CLUSTER_HOLD_EXPIRY, R450: CLUSTER_HOLD after a cluster's last done stamp passes and its active charge is returned. -/
  | clusterHoldExpiry (dt : Nat) (cluster : Nat)
  /-- BUDGET_CHANGE, R451: A budget change takes effect 10 us after its epoch, admitting waiting actions or returning idle cluster charges. -/
  | budgetChange (dt : Nat)
  /-- DOWNSHIFT, R448: An action whose VDD_CORE request has waited DOWNSHIFT_WAIT is offered again at a slower point. -/
  | downshift (dt : Nat) (slot : Nat)
  /-- LEDGER_WAIT_REPORT, R463: An action that has waited on the ledger for more than 1 ms is reported by event 4. -/
  | ledgerWaitReport (dt : Nat) (slot : Nat)
  /-- THERMAL_SAMPLE, R454: The 1 ms junction-temperature sample updates the thermal cap. -/
  | thermalSample (dt : Nat) (temps : List Int)
  /-- CORE_SENSE_SAMPLE, R447: The 1 ms measurement of VDD_CORE_SENSE updates the set point used for P0 charges. -/
  | coreSenseSample (dt : Nat) (microvolt : Nat)
  /-- PATH_MONITOR_SAMPLE, R457: The 1 ms path-monitor measurement updates the minimum slack at the running point. -/
  | pathMonitorSample (dt : Nat) (cluster ps : Nat)
  /-- RING_OSCILLATOR_COUNT, R457: A 1 us ring-oscillator count at P0 updates the cluster's ageing samples. -/
  | ringOscillatorCount (dt : Nat) (cluster : Nat) (counts : List Nat)
  /-- BROWN_OUT, R456: A monitored rail below 90% for 1 us stops the cluster clocks, opens the power gates and raises fault 0x07B0. -/
  | brownOut (dt : Nat) (rail : Nat)
  /-- RECOVERY_RESUME, R473: Recovery ends at the resume stamp and intake accepts sides again. -/
  | recoveryResume (dt : Nat)
  /-- SRAM_SCRUB, R476: A scrub read of one on-chip SRAM granule corrects a single-bit error in place. -/
  | sramScrub (dt : Nat) (at_ : SramGranule) (bits : Nat)
  /-- PATROL_SCRUB, R477: A paced DDR4 patrol read corrects and writes back errors. -/
  | patrolScrub (dt : Nat) (addr : Nat) (err : Nat)
  /-- LINK_UNCORRECTED, R467: A package-network transfer still failing after 8 retries, or a crossing that does not agree after 4 samples, is a fault 0x07C3. -/
  | linkUncorrected (dt : Nat) (place : Nat)
  /-- CLOCK_LOST, R536: A reference interruption of 2 us or more is fault 0x07C4 and starts a new boot. -/
  | clockLost (dt : Nat)
  /-- REF_INTERRUPTION, R536: A reference interruption shorter than 2 us is held through and counted. -/
  | refInterruption (dt : Nat) (ns : Nat)
  /-- AON_CLOCK_LOST, R537: No 32.768 kHz edge for 122 us clears AON_OK, stops the tick counter and sends PIN event 2. -/
  | aonClockLost (dt : Nat)
  /-- AON_CLOCK_RESTORED, R537: Edges of the 32.768 kHz clock return and PIN event 3 is sent. -/
  | aonClockRestored (dt : Nat)
  /-- AON_CALIBRATION, R28: A 2^20-tick window completes and P_AON is updated. -/
  | aonCalibration (dt : Nat) (ns : Nat)
  /-- TB_SYNC, R21: The synchronisation word every 4,096 ns aligns each die's TB replica with the master. -/
  | tbSync (dt : Nat) (die : Nat)
  /-- FAULT_LOG, R475: Command that returns the fault log and re-arms MDB 0x04. -/
  | faultLog (dt : Nat) (h : Hdr) (p : Bytes)
  /-- FAULT_INJECT, R498: Command that takes a fault as detected at EXEC with INJECTED set. -/
  | faultInject (dt : Nat) (h : Hdr) (p : Bytes)
  /-- TWIN_STATUS, R498: Command that returns twin link and heartbeat state. -/
  | twinStatus (dt : Nat) (h : Hdr) (p : Bytes)
  /-- TWIN_TAKEOVER, R491: Command that makes a standby take over at once. -/
  | twinTakeover (dt : Nat) (h : Hdr) (p : Bytes)
  /-- TWIN_HANDOVER, R496: Command that makes a synced primary refuse new sides and hand over once the sides in flight are acknowledged. -/
  | twinHandover (dt : Nat) (h : Hdr) (p : Bytes)
  /-- HANDOVER_COMPLETE, R496: The last side's final record is acknowledged, the primary sends code 4 and the standby takes over. -/
  | handoverComplete (dt : Nat)
  /-- FRZ_READ, R481: Command that reads frozen state over I3C during a freeze. -/
  | frzRead (dt : Nat) (h : Hdr) (p : Bytes)
  /-- FREEZE, R479: A FROST_N falling edge or a self-freeze stops every clock and puts DDR4 into self-refresh for read-out. -/
  | freeze (dt : Nat)
  /-- HEARTBEAT, R489: Every HB_PERIOD a part sends a pulse on TWIN_HB_OUT whose width codes its state. -/
  | heartbeat (dt : Nat)
  /-- HEARTBEAT_RECEIVED, R489: A pulse on TWIN_HB_IN is measured and its rising edge stamped. -/
  | heartbeatReceived (dt : Nat) (width : Nat)
  /-- TAKEOVER, R492: A ready standby that has lost heartbeat and link becomes primary, notices unrecorded sides and opens the mirrored streams. -/
  | takeover (dt : Nat)
  /-- ROLE_SETTLE, R495: After listening 3 x HB_PERIOD at boot, a twin part settles as primary or standby. -/
  | roleSettle (dt : Nat)
  /-- ACK_WAIT_EXPIRY, R488: An unacknowledged record after TWIN_ACK_WAIT makes the primary declare the link lost, go solo and release the record. -/
  | ackWaitExpiry (dt : Nat)
  /-- LINK_ITEM_SEND, R486: A part sends a LINK item when nothing else has been sent for half an HB_PERIOD. -/
  | linkItemSend (dt : Nat)
  /-- HELLO, R486: Mirror item carrying identity, variant, role and image digests. -/
  | hello (dt : Nat) (m : ItemHdr) (body : Bytes)
  /-- LINK, R486: Empty mirror item that keeps the link alive. -/
  | linkItem (dt : Nat) (m : ItemHdr) (body : Bytes)
  /-- COMMAND, R486: Mirror item carrying an executed command, which the standby applies. -/
  | commandItem (dt : Nat) (m : ItemHdr) (body : Bytes)
  /-- SIDE, R486: Mirror item carrying an accepted side's identity. -/
  | sideItem (dt : Nat) (m : ItemHdr) (body : Bytes)
  /-- RECORD, R486: Mirror item carrying a committed record, which the standby retains untransmitted. -/
  | recordItem (dt : Nat) (m : ItemHdr) (body : Bytes)
  /-- SENT, R486: Mirror item carrying the highest transmitted RECORD_NO, which frees retained records. -/
  | sent (dt : Nat) (m : ItemHdr) (body : Bytes)
  /-- BLOB, R486: Mirror item carrying a prefix share, a prefix drop or adapter weights. -/
  | blob (dt : Nat) (m : ItemHdr) (body : Bytes)
  /-- MBOX, R486: Mirror item carrying a channel-29 message, delivered on channel 8 with sender 0x02. -/
  | mboxItem (dt : Nat) (m : ItemHdr) (body : Bytes)
  /-- NAK, R487: Mirror item asking for a resend from an MSEQ, or for a snapshot. -/
  | nak (dt : Nat) (m : ItemHdr) (body : Bytes)
  /-- SNAPSHOT_BEGIN, R487: Mirror item that opens a full resynchronisation. -/
  | snapshotBegin (dt : Nat) (m : ItemHdr) (body : Bytes)
  /-- SNAPSHOT_END, R487: Mirror item that closes a resynchronisation, after which the standby is ready. -/
  | snapshotEnd (dt : Nat) (m : ItemHdr) (body : Bytes)
  /-- POWER_ON_RESET, R534: POR_N low for 1 us, or VDD_AON below 1.62 V, resets the device. -/
  | powerOnReset (dt : Nat) (asel : Nat)
  /-- BOOT, R509: The rise of POR_N, or another new boot, verifies firmware and image, trains DDR4, wakes the stacks and applies the profile. -/
  | boot (dt : Nat)
  /-- PLL_LOCK, R18: The timebase PLL locks and TB starts at 0. -/
  | pllLock (dt : Nat)
  /-- SEC_IDENTITY, R520: Command that returns the identity certificate. -/
  | secIdentity (dt : Nat) (h : Hdr) (p : Bytes)
  /-- SEC_ATTEST, R521: Command that returns a signed attestation report over a nonce. -/
  | secAttest (dt : Nat) (h : Hdr) (p : Bytes)
  /-- IMAGE_WRITE, R516: Command that programs bytes into the inactive firmware or image slot. -/
  | imageWrite (dt : Nat) (h : Hdr) (p : Bytes)
  /-- IMAGE_COMMIT, R516: Command that verifies a slot and marks it committed. -/
  | imageCommit (dt : Nat) (h : Hdr) (p : Bytes)
  /-- IMAGE_ACTIVATE, R516: Command that sets the preferred firmware, or stages an image as a quiet item. -/
  | imageActivate (dt : Nat) (h : Hdr) (p : Bytes)
  /-- PROFILE_STORE, R512: Command that stores a profile record for the next boot. -/
  | profileStore (dt : Nat) (h : Hdr) (p : Bytes)
  /-- SEC_REBOOT, R518: Command that starts a new boot once its reply is queued. -/
  | secReboot (dt : Nat) (h : Hdr) (p : Bytes)
  /-- SVN_COMMIT, R518: Command that advances a fused SVN counter. -/
  | svnCommit (dt : Nat) (h : Hdr) (p : Bytes)
  /-- KEY_UPDATE, R507: Command that enrols or revokes a key slot from a signed container. -/
  | keyUpdate (dt : Nat) (h : Hdr) (p : Bytes)
  /-- PIN_STATUS, R557: Command that returns pin levels and owners. -/
  | pinStatus (dt : Nat) (h : Hdr) (p : Bytes)
  /-- CLOCK_STATUS, R557: Command that returns clock flags and losses. -/
  | clockStatus (dt : Nat) (h : Hdr) (p : Bytes)
  /-- HOST_IN_EDGE, R542: An accepted edge on a HOST_IN pin sends PIN event 1. -/
  | hostInEdge (dt : Nat) (pin : Nat) (level : Bool)
  /-- WAKE_IN_EDGE, R542: An edge to the active level on a WAKE_IN pin wakes the device with cause 0x06. -/
  | wakeInEdge (dt : Nat) (pin : Nat) (level : Bool)
  /-- TIME_TB_LO, R55: A read of TIME_TB_LO latches TB and returns its low half. -/
  | timeTbLo (dt : Nat)
  /-- TIME_FC_STATUS, R55: A read returns Forecast status and clears LATE_LAUNCHES. -/
  | timeFcStatus (dt : Nat)
  /-- INTK_PORT_ERR, R95: A read of a port's error register returns and clears its counters. -/
  | intkPortErr (dt : Nat) (port : Nat)
  /-- CORE_NUM_EVT, R207: A read returns and clears the selected core's numeric event counters. -/
  | coreNumEvt (dt : Nat)
  /-- TEXT_GMU, R354: A read returns mask-unit state and clears MASKS. -/
  | textGmu (dt : Nat)
  /-- OUT_PORT_STAT, R387: A read returns port state and clears PACKETS_SENT. -/
  | outPortStat (dt : Nat) (port : Nat)
  /-- CMD_CHAN, R431: A read returns a channel's state and clears LOST and DENIED. -/
  | cmdChan (dt : Nat)
  /-- CMD_IF, R431: A read returns the command interface state and clears BAD_PACKETS. -/
  | cmdIf (dt : Nat)
  /-- PWR_WAKE_CAUSE, R465: A read returns the last wake cause and clears WAKES. -/
  | pwrWakeCause (dt : Nat)
  /-- FLT_ECC, R502: A read returns and clears the ECC and fault counters. -/
  | fltEcc (dt : Nat)
  /-- PIN_CLK_STAT, R561: A read returns clock status and clears the loss counters. -/
  | pinClkStat (dt : Nat)
  /-- DEBUG_REGISTER_WRITE, R9: A write to a debug register with no row of its own, such as a selector, sets its RW fields. -/
  | debugRegisterWrite (dt : Nat) (addr : Nat) (v : Word)
  /-- FRZ_ADDR, R481: JTAG instruction that sets the 64-bit freeze address. -/
  | frzAddr (dt : Nat) (a : DWord)
  /-- FRZ_DATA, R481: JTAG instruction that reads 8 bytes at the freeze address and advances it by 8. -/
  | frzData (dt : Nat)
  /-- FRZ_STAT, R481: JTAG instruction that reads the freeze status. -/
  | frzStat (dt : Nat)
  /-- FRZ_RESET, R481: JTAG instruction that starts a new boot. -/
  | frzReset (dt : Nat)
  /-- DBG_ADDR, R481: JTAG instruction that sets the debug register address. -/
  | dbgAddr (dt : Nat) (addr : Nat)
  /-- DBG_DATA, R481: JTAG instruction that reads or writes the addressed debug register. -/
  | dbgData (dt : Nat) (write : Bool) (v : Word)
  /-- BYPASS, R548: JTAG BYPASS instruction. -/
  | bypass (dt : Nat) (tdi : Bool)
  /-- IDCODE, R548: JTAG instruction that returns the IDCODE. -/
  | idcode (dt : Nat)
  /-- SAMPLE_PRELOAD, R548: JTAG SAMPLE/PRELOAD boundary-scan instruction. -/
  | samplePreload (dt : Nat) (cells : BitVec 16)
  /-- EXTEST, R548: JTAG EXTEST boundary-scan instruction. -/
  | extest (dt : Nat) (cells : BitVec 16)
  /-- EXTEST_PULSE, R548: IEEE 1149.6 EXTEST_PULSE on the D-PHY lanes and REFCLK. -/
  | extestPulse (dt : Nat) (cells : BitVec 16)
  /-- EXTEST_TRAIN, R548: IEEE 1149.6 EXTEST_TRAIN on the D-PHY lanes and REFCLK. -/
  | extestTrain (dt : Nat) (cells : BitVec 16)
  /-- OPCODE_UNKNOWN, R395: A command packet that passes its framing checks but carries an opcode of no block is refused with 0x01A3 and has no other effect. -/
  | opcodeUnknown (dt : Nat) (h : Hdr) (opcode : Nat) (p : Bytes)
  /-- SHARE_RETURN, R449: A returned VDD_CORE share ramps down over 1 us, at most 80 units per microsecond, and the freed budget admits waiting actions. -/
  | shareReturn (dt : Nat)
  /-- MIRROR_ITEM_DISCARDED, R487: A mirror item with a bad header CRC, a bad body CRC or an MSEQ gap is discarded with every item after it, and the standby sends NAK. -/
  | mirrorItemDiscarded (dt : Nat) (reason : Nat)
  /-- BUS_FREE, R401: When the I3C bus becomes free with ENINT set, the target starts the request of the highest pending IBI cause within 2 us. -/
  | busFree (dt : Nat) (nack : Bool)
  /-- REVERSE_BIAS, R444: A cluster that has held no active charge for 20 us has reverse body bias of 150 mV applied. -/
  | reverseBias (dt : Nat) (cluster : Nat)
deriving DecidableEq, Repr

end Sys2Proof
end

