-- ==== Sys2Proof/Machine/Part/Image.lean ====
section
/-! DEFINITION. What a loaded Jenar image declares, as data (04 R117; 05; 06 R200; 09 R251; 10 R284; 11 R328 to R347). -/
namespace Sys2Proof.Machine

/-- A batch class (04 R109, R117). -/
structure BatchClass where
  hc : Nat
  wc : Nat
  channels : Nat
  layout : Nat
  pad : Nat
  bMax : Nat
  aug : Bool
  /-- The job whose steps consume its batches, and the tally signalled when a batch is filled. -/
  job : Nat
  tally : Nat
deriving DecidableEq, Repr

/-- A KV geometry (09 R251). KVFMT as the formats of 06 R186: 2 E4M3, 3 E5M2, 4 BF16. -/
structure Geom where
  layers : Nat
  groups : Nat
  kvh : Nat
  hdim : Nat
  bf16 : Bool
  maxIndex : Nat
deriving DecidableEq, Repr

/-- A job (10 R284). KIND 1 batch, 2 decode, 3 learn. -/
structure JobDecl where
  kind : Nat
  clusters : Nat
  priority : Nat
  stepPeriod : Nat
  maxInflight : Nat
  candidates : Nat
  stepRows : Nat
  seedRows : Nat
  chunk : Nat
  maxTokens : Nat
  geom : Option Geom
  /-- The image has an encoder draft for the job's lines (10 R299). -/
  encoderDraft : Bool
  /-- DDR4 windows granted to the job: base and length (05 R165). -/
  windows : List (Nat × Nat)
  /-- DDR4 burst class of a step, in units (14 R446). -/
  burst : Nat
deriving DecidableEq, Repr

/-- A declared quantisation point (06 R200, R204). -/
structure QpDecl where
  job : Nat
  mode : Nat
  adj : Int
  adjMin : Int
  adjMax : Int
  relax : Nat
  thresh : Nat
deriving DecidableEq, Repr

/-- Resident content of a core (05 R167; 14 R441): its tag, and bytes of its scratchpad from an offset. -/
structure Resident where
  core : Nat
  tag : Nat
  offset : Nat
  bytes : Bytes
deriving DecidableEq, Repr

/-- An image, as the body of its container declares it. -/
structure Image where
  classes : Tab BatchClass
  /-- Consumers that each band is owed to (04 R105), and the tallies given to band slots from this one on. -/
  bandConsumers : Nat
  bandTally : Nat
  /-- The region queue of each stream (04 R106): tally, cluster and offset of its first record. -/
  regionQueues : List (Nat × Nat × Nat)
  detectorClass : Option Nat
  prepClusters : Nat
  /-- Bytes of the image's own area of each cluster's commons (13 R416). -/
  commonsBytes : Nat
  jobs : Tab JobDecl
  qps : Tab QpDecl
  slotBytes : Nat
  resident : List Resident
  /-- The image's own area of commons: cluster, offset, bytes. -/
  commons : List (Nat × Nat × Bytes)
  /-- The dictionary section (11 R328), class tables (R336), grammars by slot (R337), bindings (R345), stop sets (R347). -/
  dict : Bytes
  classTables : List Bytes
  grammars : Tab Bytes
  bindings : List ((Nat × Nat) × (Nat × Nat))
  stops : Tab Bytes
deriving DecidableEq, Repr, Inhabited

end Sys2Proof.Machine
end

