-- ==== Sys2Proof/Config.lean ====
section
/-! DEFINITION. What an implementation fixes and the spec does not give, as constants without a body: nothing can be
proved of their values. -/
namespace Sys2Proof.Config

/-- A value that the spec leaves open, fresh for each number drawn from State.freeCtr (log 2). -/
opaque freeWord : Nat → Word
/-- The same as a number and as a bit. -/
opaque freeNat : Nat → Nat
opaque freeBit : Nat → Bool
/-- ML-DSA-87 verification of FIPS 204 (16 R506): public key, message, signature. -/
opaque mldsaVerify : Bytes → Bytes → Bytes → Bool
/-- A hedged ML-DSA-87 signature of the identity key (16 R506, R521): message, and the number of the draw of randomness. -/
opaque mldsaSign : Bytes → Nat → Bytes
/-- The identity public key of the part (16 R519). -/
opaque identityKey : Bytes
/-- The JEP106 code of IDCODE (17 R548), the version code of GETCAP2 (13 R391), the bytes of GETMXDS. -/
opaque jep106 : BitVec 11
opaque i3cVersion : BitVec 4
opaque mxds : Bytes
/-- Bits of GETSTATUS that I3C defines and the spec does not state. -/
opaque getStatus : Nat → BitVec 16

/-- What the body of a Jenar image declares (16 R505: the spec gives the body no layout). -/
opaque imageBody : Bytes → Machine.Image

/-- What firmware sets at boot or image load (09 R279; 12 R383): POOL_BASE, POOL_BYTES, TABLE_BASE, RING_BASE. -/
opaque poolBase : Nat
opaque poolBytes : Nat
opaque tableBase : Nat
opaque ringBase : Nat

/-- Where firmware places its own region and the copy of the image in DDR4: base and length (15 R467; 16 R516). -/
opaque ddrFirmware : Nat × Nat
opaque ddrImage : Nat × Nat

/-- The tally that a DEADLINE of the device's own signals on timeout, among T0 to T1023 (02 R35, R50): by awaited object. -/
opaque unitTally : Nat → Nat

/-- Where a stream's band slot lies in its cluster's commons (04 R105), and a class's batch in a cluster's (04 R120). -/
opaque bandSlotAt : Nat → Nat → Nat
opaque batchAt : Nat → Nat → Nat

/-- Where the spec gives a real number and a fixed-point field for it without a rounding: up rather than down, for the skew of
a slope (numerator, denominator; 03 R79), and for the sine and cosine of an angle in 0.001° (04 R103). -/
opaque skewUp : Int → Nat → Bool
opaque sinUp : Int → Bool
opaque cosUp : Int → Bool

/-- Whether LDVC and STVC take the lanes of an integer FMT as INT32 rather than FP32 (05 R158, 06 R186: the spec does not say),
and whether a branch counts its offset from the next instruction rather than from itself (05 R157). -/
opaque laneInt : Nat → Bool
opaque brFromNext : Bool
/-- BANK_CONFLICT_CYCLES of a cluster at a stamp (05 R140, R180), which follows the timing of accesses. -/
opaque bankConflicts : Nat → Nat → Nat

/-- What a freeze read returns where the spec gives no layout (15 R480): a byte at a place, at a frozen TB; and which 8 bytes of a
32-byte tally or slot record an address reads. -/
opaque frzOpen : Nat → Nat → Nat
opaque frzPart : Nat → Nat

/-- Bytes of a context block that the spec names without a layout (05 R172): by address and stamp of the save. -/
opaque ctxOpen : Nat → Nat → Nat

/-- Fused figures of ageing (14 R457, R458): S(k) in mV per 10,000 ppm, MARGIN0 over 40,000 ppm, and the count of an
oscillator corrected to 85 °C and its time-zero count, as DELTA of that oscillator in ppm (cluster, oscillator, count). -/
opaque sensitivity : Nat → Nat
opaque marginOver : Nat
opaque oscDelta : Nat → Nat → Nat → Int

/-- The weights of a learn job's adapters as a BLOB item carries them (15 R486): learn job, and the number of the draw. -/
opaque adapterWeights : Nat → Nat → Bytes

/-- What the body of a key container says (16 R507: the spec gives it no layout): KIND 4, the owner key and body flag [0];
KIND 5, the slot it names (owner class, slot). -/
opaque keyEnrol : Bytes → Bytes × Bool
opaque keyRevoke : Bytes → Bool × Nat

end Sys2Proof.Config
end

