-- ==== Sys2Proof/Machine/Bits.lean ====
section
/-! DEFINITION. Byte order, bit fields, two's complement, sparse tables, checksums (00 R6; 13 R394). -/
namespace Sys2Proof.Machine

/-! ### Bytes and fields -/

/-- The low `n` bytes of `v`, least significant first (00 R6). -/
def le : (n v : Nat) → Bytes
  | 0, _ => []
  | n + 1, v => BitVec.ofNat 8 v :: le n (v / 256)

/-- The number that bytes spell, least significant first (00 R6). -/
def leNat : Bytes → Nat
  | [] => 0
  | b :: bs => b.toNat + 256 * leNat bs

/-- The `w` bytes at offset `off`, read as a number; bytes beyond the end read as 0. -/
def leAt (p : Bytes) (off w : Nat) : Nat := leNat ((p.drop off).take w)

/-- The byte at offset `off`. -/
def byteAt (p : Bytes) (off : Nat) : Nat := leAt p off 1

/-- Fields written one after another: (width in bytes, value). -/
def pack : List (Nat × Nat) → Bytes
  | [] => []
  | (w, v) :: r => le w v ++ pack r

/-- `n` zero bytes. -/
def zeros (n : Nat) : Bytes := List.replicate n 0

/-- Bytes cut or filled with zeros to length `n`. -/
def fit (n : Nat) (p : Bytes) : Bytes := p.take n ++ zeros (n - p.length)

/-- Every byte is zero: the check of a reserved field (00 R6). -/
def allZero (p : Bytes) : Bool := p.all (· == 0)

/-- The reserved bytes `off … off + n - 1` are zero. -/
def resZero (p : Bytes) (off n : Nat) : Bool := allZero ((p.drop off).take n)

/-- Bit `i` of `v`. -/
def bit (v i : Nat) : Bool := v.testBit i

/-- Bits `hi` to `lo` of `v`. -/
def field (v hi lo : Nat) : Nat := (v >>> lo) % 2 ^ (hi + 1 - lo)

/-- `v` with its bits `hi` to `lo` replaced by `x`. -/
def setField (v hi lo x : Nat) : Nat :=
  let n := hi + 1 - lo
  (v >>> (hi + 1) <<< (hi + 1)) + ((x % 2 ^ n) <<< lo) + v % 2 ^ lo

/-- A Bool as a bit. -/
def b2n (b : Bool) : Nat := if b then 1 else 0

/-- The set bits of a mask below `n`, in ascending order. -/
def bitsOf (n mask : Nat) : List Nat := (List.range n).filter (bit mask)

/-- The mask with the bits of a list set. -/
def maskOf (l : List Nat) : Nat := l.foldl (fun m i => if bit m i then m else m + 2 ^ i) 0

/-- The two's complement reading of the low `w` bits. -/
def sext (w v : Nat) : Int :=
  let m := v % 2 ^ w
  if m < 2 ^ (w - 1) then m else (m : Int) - 2 ^ w

/-- The `w`-bit two's complement of an integer, wrapped. -/
def twos (w : Nat) (i : Int) : Nat := (i % (2 ^ w : Int)).toNat

/-- An integer held to `[lo, hi]`. -/
def clampI (lo hi i : Int) : Int := if i < lo then lo else if hi < i then hi else i

/-- `v` held at `max`. -/
def sat (max v : Nat) : Nat := if max < v then max else v

/-- The largest 32-bit number, at which counters saturate. -/
def max32 : Nat := 0xFFFFFFFF

/-- A saturating 32-bit count. -/
def inc32 (v n : Nat) : Nat := sat max32 (v + n)

/-- Quotient rounded up. -/
def ceilDiv (a b : Nat) : Nat := (a + b - 1) / b

/-- Bits set among the low `n`. -/
def popcount (n v : Nat) : Nat := (bitsOf n v).length

/-! ### Lists by position -/

/-- The element at `i`, or a default. -/
def nth {α : Type} (l : List α) (i : Nat) (d : α) : α := (l[i]?).getD d

/-- The list with the element at `i` changed; nothing where there is none. -/
def modNth {α : Type} : List α → Nat → (α → α) → List α
  | [], _, _ => []
  | a :: l, 0, f => f a :: l
  | a :: l, n + 1, f => a :: modNth l n f

/-- The list with the element at `i` replaced. -/
def setNth {α : Type} (l : List α) (i : Nat) (a : α) : List α := modNth l i (fun _ => a)

/-- Insertion by a key, after the elements whose key is not larger. -/
def insertBy {α : Type} (key : α → Nat) (a : α) : List α → List α
  | [] => [a]
  | b :: l => if key a < key b then a :: b :: l else b :: insertBy key a l

/-- A list sorted by a key, elements of one key in the order given. -/
def sortBy {α : Type} (key : α → Nat) (l : List α) : List α := l.foldl (fun acc a => insertBy key a acc) []

/-! ### Sparse tables -/

/-- The entry of key `k`. -/
def Tab.find {α : Type} : Tab α → Nat → Option α
  | [], _ => none
  | (k', a) :: t, k => if k' = k then some a else Tab.find t k

/-- The entry of key `k`, or what a missing key stands for. -/
def Tab.get {α : Type} (t : Tab α) (k : Nat) (d : α) : α := (Tab.find t k).getD d

/-- The table with key `k` removed. -/
def Tab.erase {α : Type} (t : Tab α) (k : Nat) : Tab α := t.filter (fun e => e.1 != k)

/-- The table with key `k` set; keys stay rising. -/
def Tab.set {α : Type} : Tab α → Nat → α → Tab α
  | [], k, a => [(k, a)]
  | (k', a') :: t, k, a =>
    if k' = k then (k, a) :: t
    else if k < k' then (k, a) :: (k', a') :: t
    else (k', a') :: Tab.set t k a

/-- The table with the entry of key `k`, or the default, changed. -/
def Tab.mod {α : Type} (t : Tab α) (k : Nat) (d : α) (f : α → α) : Tab α := Tab.set t k (f (Tab.get t k d))

/-- The least number below `n` that is no key of the table. -/
def Tab.free {α : Type} (t : Tab α) (n : Nat) : Option Nat :=
  (List.range n).find? (fun k => (Tab.find t k).isNone)

/-! ### Memory -/

/-- Memory: address and byte pairs, addresses strictly rising, no byte that an unlisted address reads as (0: log 4). -/
abbrev Memory := List (Nat × Byte)

/-- What a byte that nothing has written reads as (log 4, DESIGN CHOICE). -/
def Memory.blank : Byte := 0

/-- One byte of memory. -/
def Memory.read : Memory → Nat → Byte
  | [], _ => Memory.blank
  | (k, b) :: m, a => if k = a then b else Memory.read m a

/-- Memory with the byte at `a` removed from the list, so that it reads as blank. -/
def Memory.clear : Memory → Nat → Memory
  | [], _ => []
  | (k, b) :: m, a => if k = a then m else if a < k then (k, b) :: m else (k, b) :: Memory.clear m a

/-- Memory with the byte at `a` listed as `v`. -/
def Memory.put : Memory → Nat → Byte → Memory
  | [], a, v => [(a, v)]
  | (k, b) :: m, a, v =>
    if k = a then (a, v) :: m
    else if a < k then (a, v) :: (k, b) :: m
    else (k, b) :: Memory.put m a v

/-- Memory with byte `v` written at `a`, in canonical form. -/
def Memory.write (m : Memory) (a : Nat) (v : Byte) : Memory :=
  if v = Memory.blank then Memory.clear m a else Memory.put m a v

/-- The `n` bytes from `a` on. -/
def Memory.readN (m : Memory) (a : Nat) : Nat → Bytes
  | 0 => []
  | n + 1 => Memory.read m a :: Memory.readN m (a + 1) n

/-- Memory with bytes written from `a` on. -/
def Memory.writeN (m : Memory) (a : Nat) : Bytes → Memory
  | [] => m
  | b :: bs => Memory.writeN (Memory.write m a b) (a + 1) bs

/-- The canonical form from address `lo` on: addresses rise strictly and no byte is blank. -/
def Memory.wfFrom : Nat → Memory → Bool
  | _, [] => true
  | lo, (a, b) :: m => decide (lo ≤ a) && (b != Memory.blank) && Memory.wfFrom (a + 1) m

/-- The canonical form of a memory. -/
def Memory.wf (m : Memory) : Bool := Memory.wfFrom 0 m

/-! ### Checksums -/

/-- One bit of a reflected CRC with polynomial `poly`. -/
def crcBit (poly c : Nat) : Nat := if c % 2 = 1 then (c / 2) ^^^ poly else c / 2

/-- One byte of a reflected CRC. -/
def crcByte (poly c : Nat) (b : Byte) : Nat :=
  (List.range 8).foldl (fun c _ => crcBit poly c) (c ^^^ b.toNat)

/-- CRC-32C of RFC 3720 (13 R394): polynomial 0x1EDC_6F41, reflected, initial value and final XOR 0xFFFF_FFFF. -/
def crc32c (p : Bytes) : Nat := (p.foldl (crcByte 0x82F63B78) 0xFFFFFFFF) ^^^ 0xFFFFFFFF

end Sys2Proof.Machine
end

