-- ==== Sys2Proof/Machine/Fixed.lean ====
section
/-! DEFINITION. Real functions in fixed point with 96 fraction bits, exact to far below what any field of the block holds:
square root, sine, cosine, arc tangent (03 R79; 04 R103). -/
namespace Sys2Proof.Machine

/-- One, with 96 fraction bits. -/
def fxOne : Int := 2 ^ 96

/-- A product of two fixed-point numbers, truncated toward −∞. -/
def fxMul (a b : Int) : Int := a * b / fxOne

/-- π to 48 decimal places. -/
def fxPi : Int := 3141592653589793238462643383279502884197169399375 * fxOne / 10 ^ 48

/-- The terms of a series whose next term is the last times −x² ÷ ((k + 1)(k + 2)). -/
def fxSeries : Nat → Int → Int → Int → Int → Int
  | 0, _, _, _, acc => acc
  | n + 1, k, x2, t, acc =>
    let u := -(fxMul t x2) / ((k + 1) * (k + 2))
    fxSeries n (k + 2) x2 u (acc + u)

def fxSin (x : Int) : Int := fxSeries 20 1 (fxMul x x) x x
def fxCos (x : Int) : Int := fxSeries 20 0 (fxMul x x) fxOne fxOne

/-- The square root of a fixed-point number. -/
def fxSqrt (x : Int) : Int := (Nat.sqrt (x * fxOne).toNat : Int)

/-- The terms of x − x³ ÷ 3 + x⁵ ÷ 5 − …; `t` is the power of x, with its sign. -/
def fxAtanSeries : Nat → Int → Int → Int → Int → Int
  | 0, _, _, _, acc => acc
  | n + 1, k, x2, t, acc =>
    let u := -(fxMul t x2)
    fxAtanSeries n (k + 2) x2 u (acc + u / (k + 2))

/-- Arc tangent, its argument halved in angle `n` times first. -/
def fxAtan : Nat → Int → Int
  | 0, x => fxAtanSeries 24 1 (fxMul x x) x x
  | n + 1, x => 2 * fxAtan n (x * fxOne / (fxOne + fxSqrt (fxOne + fxMul x x)))

/-- An integer part, one more where a fraction is left and the open rounding says so. -/
def roundOpen (up : Bool) (x : Int) : Int := x / fxOne + (if x % fxOne ≠ 0 ∧ up then 1 else 0)

/-- The arc tangent of num ÷ den in 0.001°, as a fixed-point number. -/
def milliDegrees (num : Int) (den : Nat) : Int := fxMul (fxAtan 5 (num * fxOne / (den : Int))) (180000 * fxOne * fxOne / fxPi)

/-- Sine and cosine of an angle in 0.001°, with 30 fraction bits (04 R103). -/
def sin30 (t : Int) : Int := roundOpen (Config.sinUp t) (fxSin (fxPi * t / 180000) * 2 ^ 30)
def cos30 (t : Int) : Int := roundOpen (Config.cosUp t) (fxCos (fxPi * t / 180000) * 2 ^ 30)

/-- Quotient rounded to nearest, ties up; the divisor is positive. -/
def roundDivI (a b : Int) : Int := (2 * a + b) / (2 * b)
def roundDiv (a b : Nat) : Nat := (2 * a + b) / (2 * b)

end Sys2Proof.Machine
end

