-- ==== Sys2Proof/Machine/Float.lean ====
section
/-! DEFINITION. The number formats of the clove core, with exact arithmetic and one rounding to nearest even (06 R183 to
R189, R196). -/
namespace Sys2Proof.Machine

/-- A value: NaN, an infinity, or (-1)^neg × m × 2^e. A zero keeps its sign. -/
inductive Fp where
  | nan
  | inf (neg : Bool)
  | fin (neg : Bool) (m : Nat) (e : Int)
deriving DecidableEq, Repr

/-- A floating-point format: fraction bits, bias, the code of the largest finite magnitude, of infinity (0 none), and of the
canonical NaN, and the sign bit's place. -/
structure Fmt where
  frac : Nat
  bias : Int
  top : Nat
  infinity : Nat
  canon : Nat
  sign : Nat
deriving DecidableEq, Repr

def fmt32 : Fmt := ⟨23, 127, 0x7F7FFFFF, 0x7F800000, 0x7FC00000, 31⟩
def fmtBf : Fmt := ⟨7, 127, 0x7F7F, 0x7F80, 0x7FC0, 15⟩
def fmtE4 : Fmt := ⟨3, 7, 0x7E, 0, 0x7F, 7⟩
def fmtE5 : Fmt := ⟨2, 15, 0x7B, 0x7C, 0x7F, 7⟩

/-- The exponent of the last place of a subnormal. -/
def Fmt.low (f : Fmt) : Int := 1 - f.bias - f.frac

/-- The value of a code (R183). -/
def Fmt.value (f : Fmt) (v : Nat) : Fp :=
  let neg := bit v f.sign
  let a := v % 2 ^ f.sign
  if a ≤ f.top then
    let e := a / 2 ^ f.frac
    let m := a % 2 ^ f.frac
    if e = 0 then .fin neg m f.low else .fin neg (m + 2 ^ f.frac) (f.low + e - 1)
  else if f.infinity ≠ 0 ∧ a = f.infinity then .inf neg
  else .nan

/-- `m` × 2^-k to the nearest integer, ties to even (R185). -/
def rne (m k : Nat) : Nat :=
  let d := m / 2 ^ k
  let r := 2 * (m % 2 ^ k)
  if 2 ^ k < r ∨ (r = 2 ^ k ∧ d % 2 = 1) then d + 1 else d

/-- Bits of a number. -/
def bitLen (n : Nat) : Nat := if n = 0 then 0 else n.log2 + 1

/-- The magnitude code of m × 2^e rounded to the format's precision with no limit on range (R186). -/
def Fmt.roundCode (f : Fmt) (m : Nat) (e : Int) : Nat :=
  if m = 0 then 0
  else
    let q := max (e + bitLen m - (f.frac + 1)) f.low
    let r := if q ≤ e then m * 2 ^ (e - q).toNat else rne m (q - e).toNat
    (q - f.low).toNat * 2 ^ f.frac + r

/-- An FP32, BF16 or E5M2 result under IEEE 754: overflow gives an infinity (R188, R189). -/
def Fmt.round (f : Fmt) : Fp → Nat
  | .nan => f.canon
  | .inf neg => b2n neg * 2 ^ f.sign + f.infinity
  | .fin neg m e =>
    let c := f.roundCode m e
    b2n neg * 2 ^ f.sign + (if f.top < c then f.infinity else c)

/-- What an FP32 register holds, and the rounding to it. -/
def fp (w : Word) : Fp := fmt32.value w.toNat
def r32 (x : Fp) : Word := BitVec.ofNat 32 (fmt32.round x)

def Fp.neg : Fp → Fp
  | .nan => .nan
  | .inf n => .inf !n
  | .fin n m e => .fin (!n) m e

def Fp.isNan : Fp → Bool
  | .nan => true
  | _ => false

/-- The signed mantissa. -/
def signed (neg : Bool) (m : Nat) : Int := if neg then -(m : Int) else m

/-- An integer times a power of two; a zero is positive. -/
def ofInt (i : Int) (e : Int := 0) : Fp := .fin (decide (i < 0)) i.natAbs e

/-- The exact sum. A zero sum of operands that are not both negative is +0, except −0 + −0. -/
def Fp.add : Fp → Fp → Fp
  | .nan, _ => .nan
  | _, .nan => .nan
  | .inf a, .inf b => if a = b then .inf a else .nan
  | .inf a, _ => .inf a
  | _, .inf b => .inf b
  | .fin a m e, .fin b n g =>
    let q := min e g
    let i := signed a (m * 2 ^ (e - q).toNat) + signed b (n * 2 ^ (g - q).toNat)
    if i = 0 then .fin (a && b) 0 q else ofInt i q

/-- The exact product. -/
def Fp.mul : Fp → Fp → Fp
  | .nan, _ => .nan
  | _, .nan => .nan
  | .inf a, .inf b => .inf (a != b)
  | .inf a, .fin b n _ => if n = 0 then .nan else .inf (a != b)
  | .fin a m _, .inf b => if m = 0 then .nan else .inf (a != b)
  | .fin a m e, .fin b n g => .fin (a != b) (m * n) (e + g)

/-- The order of two values that are no NaN, with −0 below +0: a is below b. -/
def Fp.below : Fp → Fp → Bool
  | .nan, _ => false
  | _, .nan => false
  | .inf a, .inf b => a && !b
  | .inf a, .fin _ _ _ => a
  | .fin _ _ _, .inf b => !b
  | .fin a m e, .fin b n g =>
    let q := min e g
    let x := signed a (m * 2 ^ (e - q).toNat)
    let y := signed b (n * 2 ^ (g - q).toNat)
    if m = 0 ∧ n = 0 then a && !b else decide (x < y)

/-- MAX and MIN (R196): NaN if either is. -/
def Fp.max (a b : Fp) : Fp := if a.isNan || b.isNan then .nan else if a.below b then b else a
def Fp.min (a b : Fp) : Fp := if a.isNan || b.isNan then .nan else if b.below a then b else a

/-- a < b as numbers: both zeros are equal. -/
def Fp.lt (a b : Fp) : Bool :=
  match a, b with
  | .fin _ 0 _, .fin _ 0 _ => false
  | _, _ => a.below b

/-- A quotient of magnitudes m × 2^e ÷ (n × 2^g) with n ≠ 0: 80 bits or more, and a sticky last bit. -/
def quotient (m n : Nat) (e g : Int) : Nat × Int :=
  let k := 80 + bitLen n
  (2 * (m * 2 ^ k / n) + b2n (m * 2 ^ k % n != 0), e - g - k - 1)

/-- Division of IEEE 754, to be rounded once. -/
def Fp.div : Fp → Fp → Fp
  | .nan, _ => .nan
  | _, .nan => .nan
  | .inf _, .inf _ => .nan
  | .inf a, .fin b _ _ => .inf (a != b)
  | .fin a _ _, .inf b => .fin (a != b) 0 0
  | .fin a m e, .fin b n g =>
    if n = 0 then (if m = 0 then .nan else .inf (a != b))
    else .fin (a != b) (quotient m n e g).1 (quotient m n e g).2

/-- RCP and RSQRT (R196), to be rounded once. The root of RSQRT is taken of the reciprocal with 160 bits and a sticky bit. -/
def Fp.rcp (x : Fp) : Fp := Fp.div (.fin false 1 0) x
def Fp.rsqrt : Fp → Fp
  | .nan => .nan
  | .inf n => if n then .nan else .fin false 0 0
  | .fin n m e =>
    if m = 0 then .inf n
    else if n then .nan
    else
      -- x = m × 2^e with e made even; 1/√x = √(2^(2k) ÷ m) × 2^(-k - e/2)
      let (m, e) := if e % 2 = 0 then (m, e) else (2 * m, e - 1)
      let k := 120 + bitLen m
      let a := 2 ^ (2 * k)
      let r := Nat.sqrt (a / m)
      .fin false (2 * r + b2n (r * r * m != a)) (-(k : Int) - e / 2 - 1)

/-- e^y for 0 ≤ y < 1 in units of 2^-192: the terms y^n ÷ n!, n below 64. -/
def expSeries (y : Nat) : Nat :=
  ((List.range 64).foldl (fun (st : Nat × Nat) n => (st.1 + st.2, st.2 * y / 2 ^ 192 / (n + 1))) (0, 2 ^ 192)).1

/-- ln 2 in units of 2^-256: 2 Σ 3^-(2n+1) ÷ (2n+1). -/
def ln2 : Nat := (List.range 90).foldl (fun a n => a + 2 * 2 ^ 256 / (3 ^ (2 * n + 1) * (2 * n + 1))) 0

/-- Floor of m × 2^e in units of 2^-w, for e + w of either sign. -/
def scaled (m : Nat) (e : Int) (w : Nat) : Nat :=
  let q := e + w
  if 0 ≤ q then m * 2 ^ q.toNat else m / 2 ^ (-q).toNat

/-- EXP (R196), to be rounded once: |x| beyond 256 has overflowed or is below every subnormal; otherwise 2^n × e^y, with more
than 100 correct bits and a sticky bit, since e^x of a dyadic x other than 0 is irrational. -/
def Fp.exp : Fp → Fp
  | .nan => .nan
  | .inf n => if n then .fin false 0 0 else .inf false
  | .fin n m e =>
    if m = 0 then .fin false 1 0
    else if 8 < e + bitLen m then (if n then .fin false 1 (-400) else .fin false 1 400)
    else if e + bitLen m < -60 then
      -- 1 + x to within a last place far below the rounding
      (if n then .fin false (2 ^ 62 - 1) (-62) else .fin false (2 ^ 62 + 1) (-62))
    else
      let i := signed n (scaled m e 256)
      let k := i / (ln2 : Int)
      let y := ((i - k * ln2) / (2 ^ 64 : Int)).toNat
      .fin false (2 * expSeries y + 1) (k - 193)

/-- Natural logarithm of a value above 0 in a form to be rounded once (08 R234): ln(m × 2^e) = k ln 2 + 2 artanh(z), where
m is scaled into [2^192, 2^193) and z = (m − 1) ÷ (m + 1) of that fraction. -/
def lnFixed (m : Nat) (e : Int) : Int :=
  let b := bitLen m
  let f := if b ≤ 193 then m * 2 ^ (193 - b) else m / 2 ^ (b - 193)
  let z := (f - 2 ^ 192) * 2 ^ 256 / (f + 2 ^ 192)
  let s := (List.range 130).foldl (fun (st : Nat × Nat) n => (st.1 + st.2 / (2 * n + 1), st.2 * z / 2 ^ 256 * z / 2 ^ 256)) (0, z)
  (e + b - 1) * ln2 + 2 * s.1

def Fp.ln : Fp → Fp
  | .nan => .nan
  | .inf n => if n then .nan else .inf false
  | .fin n m e =>
    if m = 0 then .inf true
    else if n then .nan
    else
      let b := bitLen m
      if m = 2 ^ (b - 1) ∧ e + b - 1 = 0 then .fin false 0 0
      else ofInt (2 * lnFixed m e + 1) (-257)

/-! ### Formats by number (05 R158, R161) -/

/-- A floating-point element format of FMT and OUTFMT: 2 E4M3, 3 E5M2, 4 BF16, 5 FP32 here. -/
def floatFmt : Nat → Fmt
  | 2 => fmtE4
  | 3 => fmtE5
  | 4 => fmtBf
  | _ => fmt32

/-- The range of an integer target. -/
structure IntRange where
  lo : Int
  hi : Int
  bits : Nat
deriving DecidableEq, Repr

def rInt8 : IntRange := ⟨-128, 127, 8⟩
def rUint8 : IntRange := ⟨0, 255, 8⟩
def rInt16 : IntRange := ⟨-32768, 32767, 16⟩
def rInt32 : IntRange := ⟨-2147483648, 2147483647, 32⟩

/-- A converted element: its code, whether the conversion clipped, whether it was a NaN event (R187). -/
structure Converted where
  code : Nat
  clip : Bool
  nan : Bool
deriving DecidableEq, Repr

/-- The integer nearest to a finite value, ties to even. -/
def nearest (neg : Bool) (m : Nat) (e : Int) : Int :=
  signed neg (if 0 ≤ e then m * 2 ^ e.toNat else rne m (-e).toNat)

/-- An integer held to a range. -/
def IntRange.hold (r : IntRange) (i : Int) : Converted :=
  ⟨twos r.bits (clampI r.lo r.hi i), decide (i < r.lo) || decide (r.hi < i), false⟩

/-- Conversion of a value to an integer (R186): an exponent that large is out of every range. -/
def IntRange.convert (r : IntRange) : Fp → Converted
  | .nan => ⟨0, false, true⟩
  | .inf n => ⟨twos r.bits (if n then r.lo else r.hi), true, false⟩
  | .fin n m e =>
    if m = 0 then ⟨0, false, false⟩
    else if 64 < e + bitLen m then ⟨twos r.bits (if n then r.lo else r.hi), true, false⟩
    else r.hold (nearest n m e)

/-- Conversion of a value to a floating-point format (R186): E4M3 and E5M2 saturate, BF16 and FP32 overflow. -/
def Fmt.convert (f : Fmt) : Fp → Converted
  | .nan => ⟨f.canon, false, true⟩
  | .inf n => ⟨b2n n * 2 ^ f.sign + (if f.infinity = 0 then f.top else f.infinity), f.infinity == 0, false⟩
  | .fin n m e =>
    let c := f.roundCode m e
    let exceeds := decide (f.top < c)
    ⟨b2n n * 2 ^ f.sign + (if !exceeds then c else if f.sign = 7 then f.top else f.infinity), exceeds, false⟩

/-- Conversion to FMT 0 INT8, 1 UINT8, 2 E4M3, 3 E5M2, 4 BF16, 5 INT16. -/
def convertTo (fmt : Nat) (x : Fp) : Converted :=
  match fmt with
  | 0 => rInt8.convert x
  | 1 => rUint8.convert x
  | 5 => rInt16.convert x
  | n => (floatFmt n).convert x

/-- Bytes of an element of FMT. -/
def fmtBytes (fmt : Nat) : Nat := if fmt = 4 ∨ fmt = 5 then 2 else 1
/-- FMT is an integer format. -/
def fmtInt (fmt : Nat) : Bool := fmt == 0 || fmt == 1 || fmt == 5
/-- An integer element of FMT. -/
def fmtIntVal (fmt v : Nat) : Int := if fmt = 0 then sext 8 v else if fmt = 5 then sext 16 v else v
/-- An element of FMT as a value. -/
def fmtValue (fmt v : Nat) : Fp := if fmtInt fmt then ofInt (fmtIntVal fmt v) else (floatFmt fmt).value v

end Sys2Proof.Machine
end

