-- ==== Sys2Proof/Machine/Part/Power.lean ====
section
/-! DEFINITION. Power, the current ledger and ageing as data (14). -/
namespace Sys2Proof.Machine

/-- Who holds a ledger charge (14 R446). -/
inductive Holder where
  | cluster (c : Nat)
  | dieStanding (stack : Nat)
  | dieWake (stack : Nat)
  | sramStack (stack : Nat)
  | sramIo (die : Nat)
  | control
  | i3c
  | rxPort (p : Nat)
  | stream (s : Nat)
  | prepEngine (die : Nat)
  | prep (s : Nat)
  | outImage (s : Nat)
  | outPort (port : Nat)
  | outRelease (slot : Nat)
  | ddrGroup (g : Nat)
  | scrub (g : Nat)
  | burst (job step : Nat)
  | context (core : Nat)
  | maintenance (id : Nat)
  | twin
  | flash
deriving DecidableEq, Repr

/-- A charge held on a rail (1 VDD_CORE, 2 VDD_SRAM, 3 VDD_IO, 4 VDDQ_DDR). -/
structure Charge where
  rail : Nat
  units : Nat
  holder : Holder
deriving DecidableEq, Repr

/-- A share of a VDD_CORE charge that is admitted and waits for its grant (14 R449): the core of a cluster, or a part of a
die's wake (`core` is then 8). -/
structure Share where
  units : Nat
  holder : Holder
  core : Nat
deriving DecidableEq, Repr

/-- A compute stack (14 R432, R434, R435). -/
inductive StackState where
  /-- Powered off (before its first wake, in Sleep). -/
  | off
  /-- Waiting for the shares of its wake, and for the exit latency. -/
  | waking
  | awake
  /-- Entering Doze: phase 1 began at the stamp. -/
  | entering (since : Nat)
  | doze
deriving DecidableEq, Repr

/-- The device states of R432: 1 Active, 2 Idle, 3 Doze, 4 Sleep, 5 Off are read from this. -/
inductive Mode where
  | off | running | sleep
deriving DecidableEq, Repr

/-- What ageing keeps for one cluster (14 R457, R458, R460). -/
structure Age where
  /-- DELTA in ppm, and the one of the latest count since the last re-plan. -/
  delta : Int
  counted : Option Int
  /-- Minimum slack since the last re-plan at P0 to P6, in ps; 0xFFFF none. -/
  slack : List Nat
  /-- Minimum slack at P0 over the interval that the last re-plan closed. -/
  slackP0 : Nat
  mhz : List Nat
  mv : List Nat
  retired : Nat
  vmaxReached : Bool
  noP0 : Bool
  stamp : Nat
deriving DecidableEq, Repr

/-- The save list kept through Sleep (14 R440): what a thaw restores; `intact` is the CRC check's outcome. -/
structure SaveList where
  format : Nat
  intact : Bool
  tbCap : Nat
  n0 : Nat
deriving DecidableEq, Repr

/-- Power (14). -/
structure Power where
  mode : Mode
  stackDies : List StackState
  /-- PWR_STATE Doze has been asked of the stack: it dozes as soon as none of its clusters holds an active charge. -/
  dozeAsked : List Bool
  /-- The base-die SRAM of the stack leaves retention, and is not ready yet. -/
  sramWaking : List Bool
  /-- The resident content must be reloaded before the next STEP_START (R441). -/
  reload : Bool
  charges : List Charge
  shares : List Share
  returns : List Share
  /-- (stamp, units) of grants and of returns in the last microsecond. -/
  granted : List (Nat × Nat)
  returned : List (Nat × Nat)
  /-- Per cluster: the point its held charge was computed at; the stamp of its last done step; whether reverse bias is applied. -/
  points : List (Option Nat)
  lastDone : List Nat
  /-- Per cluster: the stamp at which its last active charge was given back. -/
  lastHeld : List Nat
  reverseBias : List Bool
  /-- VDD_CORE set point in mV, rounded up to 10 mV and at least 750. -/
  setPoint : Nat
  thermalCap : Nat
  /-- The reading that set the cap, the hottest reading now, and the sensors of the last sample. -/
  capTemp : Int
  tjMax : Int
  temps : List Int
  ages : List Age
  replanning : Bool
  /-- ns of powered time since the last re-plan, and since time zero. -/
  poweredNs : Nat
  poweredTotal : Nat
  wakes : Nat
  ledgerWaits : Nat
  /-- PWR_WAKE_CAUSE. -/
  wakeFrom : Nat
  wakeCause : Nat
  wakeDomain : Nat
  wakesRc : Nat
  ledgerSel : Nat
  /-- The budgets are set (boot). -/
  budgetsSet : Bool
  /-- Post stamp of an epoch whose budgets are not yet in effect. -/
  budgetDue : Option Nat
  budgets : List Nat
  saved : Option SaveList
  /-- Cause of the wake from Sleep under way. -/
  waking : Option Nat
deriving DecidableEq, Repr

end Sys2Proof.Machine
end

