-- ==== Sys2Proof/Machine/Part/Boot.lean ====
section
/-! DEFINITION. Boot flash, fuses, boot state, and the pins as data (16, 17). -/
namespace Sys2Proof.Machine

/-- State of a container slot in the directory (16 R504). -/
inductive SlotMark where
  | empty | written | committed
deriving DecidableEq, Repr

/-- The boot-flash directory (16 R504): slots 0 and 1 are firmware A and B, 2 and 3 are images 0 and 1. -/
structure Directory where
  generation : Nat
  preferredFw : Nat
  activeImage : Nat
  marks : List SlotMark
  bootNumber : Nat
deriving DecidableEq, Repr

/-- The boot flash (16 R503, R504). -/
structure Flash where
  /-- Identified by JESD216 with a size from 256 MiB to 2 GiB and octal DDR read (R503). -/
  usable : Bool
  bytes : Nat
  /-- The two copies; none where the copy's CRC does not agree. -/
  copies : List (Option Directory)
  /-- Contents of firmware A, B, image 0, 1. -/
  slots : List (List (Nat × Byte))
  /-- Size of each slot in bytes. -/
  sizes : List Nat
  profile : Bytes
  identity : Bytes
  /-- The ageing plan and powered times that firmware last wrote (14 R457). -/
  plan : Option (List Age × Nat × Nat)
deriving DecidableEq, Repr

/-- A fused key slot: the SHA3-512 of its public key (none: not programmed) and its revoke bit (16 R507). -/
structure KeySlot where
  digest : Option Bytes
  revoked : Bool
deriving DecidableEq, Repr

/-- The fuses (16 R507), and whether an identity key has been generated (R519). -/
structure Fuses where
  vendor : List KeySlot
  owner : List KeySlot
  fwSvn : Nat
  imageSvn : Nat
  ownerRequired : Bool
  identityPresent : Bool
deriving DecidableEq, Repr

/-- What discovery keeps for the default pair of a stream (16 R514). -/
structure Discovery where
  /-- Stamp of the last refusal; none where the pair has not been refused. -/
  refusedAt : Option Nat
deriving DecidableEq, Repr

/-- Boot and security state of this boot (16). -/
structure BootState where
  stage : Nat
  fwSlot : Nat
  imageSlot : Nat
  fwFallback : Bool
  imageFallback : Bool
  profileFactory : Bool
  lastStatus : Nat
  /-- Ready stamp; commands execute once `ready`. -/
  readyTb : Nat
  ready : Bool
  /-- A rise of POR_N or another new boot has been asked for, and BOOT has not run yet. -/
  due : Bool
  /-- Steps 1 and 2 of the profile are done, and the twin's role settles before steps 3 and 4 (15 R495): OPEN_MASK and the
  AUTO_OPEN flag that wait. -/
  awaitRole : Option (Nat × Bool)
  /-- Container digests of the running firmware and of the active image, and the digest of the profile applied (16 R521). -/
  fwDigest : Bytes
  imageDigest : Bytes
  profileDigest : Bytes
  fwSvn : Nat
  imageSvn : Nat
  hostTookIntake : Bool
  discovery : List Discovery
  /-- The slot whose container is in the DDR4 staged copy (16 R516). -/
  stagedImage : Option Nat
deriving DecidableEq, Repr

/-- Who holds a general pin (13 R414, 17 R542). A pin with FUNC ≠ 0 is owned by that function. -/
inductive PinOwner where
  | free
  | stream (s : Nat)
  | sync (g : Nat)
deriving DecidableEq, Repr

/-- A pulse on a pin: it ends at a stamp, where the pin takes the level. -/
structure Pulse where
  pin : Nat
  ends : Nat
  level : Bool
deriving DecidableEq, Repr

/-- The pins (17). -/
structure Pins where
  /-- Level at each ball GP0 to GP15, and whether the part drives it. -/
  levels : List Bool
  driven : List Bool
  /-- Level that each driven pin takes when no action drives it. -/
  owners : List PinOwner
  pulses : List Pulse
  edges : List Nat
  outHold : Bool
  /-- The part pulls FROST_N low (R483). -/
  frostLow : Bool
  hbOut : Bool
  /-- End of the pulse on TWIN_HB_OUT. -/
  hbEnds : Option Nat
deriving DecidableEq, Repr

end Sys2Proof.Machine
end

