-- ==== Sys2Proof/Machine/Part/Clock.lean ====
section
/-! DEFINITION. The timebase and the Forecast unit as data (02). -/
namespace Sys2Proof.Machine

/-- The variants of the part (00 R1). -/
inductive Variant where
  | kd96x4 | kd96x4m | kd96x2
deriving DecidableEq, Repr

/-- Timebase, always-on counter and clock status (02 R18 to R28, R53, R55; 17 R536, R537, R557, R561). -/
structure Clock where
  /-- The master TB, in ns. -/
  tb : Nat
  /-- TB counts: PLL locked, neither Sleep nor freeze. -/
  tbRun : Bool
  /-- TIME_FC_STATUS.TB_VALID. -/
  tbValid : Bool
  /-- PIN_CLK_STAT.REF_OK, AON_OK, TB_LOCK. -/
  refOk : Bool
  aonOk : Bool
  /-- The PLL has not locked since a power-on reset. -/
  cold : Bool
  tbLock : Bool
  /-- RC fields of PIN_CLK_STAT. -/
  aonLossesRc : Nat
  refLossesRc : Nat
  /-- Always-on clock losses since boot and the TB of the last one (CLOCK_STATUS). -/
  aonLosses : Nat
  lastLoss : Nat
  /-- P_AON in 2^-24 ns. -/
  pAon : Nat
  /-- A calibration window is in progress. -/
  calOpen : Bool
  /-- LAST_SLEEP_TICKS, LAST_SLEEP_TB. -/
  lastSleepTicks : Nat
  lastSleepTb : Nat
  /-- TB_CAP and the tick count N0 of the last Sleep entry. -/
  tbCap : Nat
  ticksN0 : Nat
  /-- The 48-bit always-on tick counter as last read. -/
  ticks : Nat
  /-- What the comparator holds: the tick count at which it wakes the part. -/
  comparator : Option Nat
  /-- The upper half that a read of TIME_TB_LO latched. -/
  tbHi : Nat
  /-- Whether each compute die's replica follows the master (R21, R25), in stack order. -/
  replicaOk : List Bool
deriving DecidableEq, Repr

/-- The pools of Forecast slots (02 R29). -/
inductive Pool where
  | housekeeping | intake | serving | host
deriving DecidableEq, Repr

/-- What a device-owned slot serves, beside its record (02 R29, R36). -/
inductive SlotUse where
  /-- Posted by a command. -/
  | posted
  | lineTrigger (stream : Nat)
  | strobe (stream k : Nat)
  | enable (stream : Nat)
  | releaseCheck (stream sheet : Nat)
  | secondDeadline (stream sheet : Nat)
  | recordRelease (stream sheet record : Nat)
  | noticeRelease (stream record : Nat)
  | edgeTimeout (stream : Nat)
  | lineWatch (stream : Nat)
  | stepStart (job step : Nat)
  | lineDeadline (line : Nat)
  | quiet (epoch : Nat)
  | watch (supervisor : Nat)
  | hbJudge
  | linkJudge
  | rePlan
  /-- A wake that an access, a doorbell or the serving loop asks for, with its cause (14 R443). -/
  | wakeDie (cause : Nat)
deriving DecidableEq, Repr

/-- A Forecast slot: the record of R33, and what the unit keeps beside it. -/
structure Slot where
  due : Nat
  period : Nat
  count : Nat
  cls : Nat
  notify : Bool
  index : Nat
  owner : Nat
  /-- 1 waiting; 2 dispatched; 3 waiting on the ledger. -/
  state : Nat
  arg0 : Nat
  arg1 : Nat
  charge : Nat
  rail : Nat
  late : Nat
  pool : Pool
  use : SlotUse
  /-- Index of the occurrence in progress; its due time is due + k * period (R41). -/
  k : Nat
  /-- Stamp of admission to the unit (R39, R40). -/
  admitted : Nat
  /-- Stamp at which the occurrence in progress asked for its charge, and at which it was handed over. -/
  asked : Nat
  handed : Nat
  /-- Stamp of the awaited arrival of a DEADLINE, where one has come (R49). -/
  arrival : Option Nat
  /-- The DDR4 burst class of a STEP_START, which it takes first (14 R446). -/
  burst : Nat
  /-- The rail on which it waits in state 3. -/
  waitRail : Nat
  /-- Ledger wait already reported by event 4 (14 R463). -/
  reported : Bool
  /-- A cancel came after the hand-over: nothing follows this occurrence (R50). -/
  last : Bool
  /-- The occurrence in progress is beyond 128 actions of one due time, or 8 of one target unit (R39). -/
  crowded : Bool
deriving DecidableEq, Repr

/-- The Forecast unit. -/
structure Forecast where
  slots : Tab Slot
  /-- LATE_LAUNCHES of parameter 0x0100_0013, and the RC field of TIME_FC_STATUS. -/
  lateLaunches : Nat
  lateRc : Nat
deriving DecidableEq, Repr

/-- A tally at its home (05 R148), with its waiters. -/
structure Tally where
  count : Nat
  arm : Nat
  reached : Nat
  lastSig : Nat
  ovf : Bool
  /-- Consuming waiters, oldest first: (waiter, k). A waiter below 128 is a core; 128 + c is cluster c's dispatcher. -/
  waiters : List (Nat × Nat)
  /-- Threshold waiters: (waiter, v). -/
  geWaiters : List (Nat × Nat)
deriving DecidableEq, Repr

end Sys2Proof.Machine
end

