-- ==== Sys2Proof/Machine/Part/Command.lean ====
section
/-! DEFINITION. The command interface, parameters, epochs and mailboxes as data (13). -/
namespace Sys2Proof.Machine

/-- A received packet (13 R392, R393): opcode, TAG, EPOCH, parameters, stamped sender, the TB of its last bit, and the
status of a framing refusal (13 R395), which then holds EPOCH as the latest posted epoch of the refusal. -/
structure Packet where
  sender : Nat
  opcode : Nat
  tag : Nat
  epoch : Nat
  params : Bytes
  rx : Nat
  framing : Option Nat
deriving DecidableEq, Repr

/-- A 64-byte message in a channel's queue, with its envelope (13 R421). -/
structure Message where
  sender : Nat
  lost : Nat
  seq : Nat
  stamp : Nat
  body : Bytes
deriving DecidableEq, Repr

/-- A mailbox channel (13 R417, R421, R425, R431). -/
structure Channel where
  receiver : Nat
  depth : Nat
  acl : Nat
  ibi : Bool
  wakeOnDb : Bool
  dbTally : Nat
  queue : List Message
  doorbell : Nat
  /-- Messages lost since the previous delivery. -/
  lost : Nat
  denied : Nat
  seq : Nat
  /-- RC fields of CMD_CHAN. -/
  lostRc : Nat
  deniedRc : Nat
  /-- Event 5 has been sent since the queue filled (R422). -/
  fullSent : Bool
deriving DecidableEq, Repr

/-- A message whose sender waits for room (13 R422). -/
structure Waiting where
  chan : Nat
  sender : Nat
  body : Bytes
deriving DecidableEq, Repr

/-- A cause of an in-band interrupt (13 R401): its MDB, the channel where it has one, bytes 1 to 3, and whether it has been
delivered (then it stands until re-armed) or NACKed at a stamp. -/
structure Ibi where
  mdb : Nat
  chan : Nat
  info : Nat
  sent : Bool
  nacked : Option Nat
deriving DecidableEq, Repr

/-- One entry of the epoch history (13 R409). -/
structure EpochRec where
  epoch : Nat
  changed : Nat
  stamp : Nat
deriving DecidableEq, Repr

/-- A quiet item (13 R410). -/
inductive QuietItem where
  | adapters (learn reading : Nat)
  | image
deriving DecidableEq, Repr

/-- A staged or posted quiet epoch: its number, due time, items, state (1 scheduled, 2 window open), the QUIET_POINT's
launch, and the sides refused in the window. -/
structure Quiet where
  epoch : Nat
  due : Nat
  items : List QuietItem
  state : Nat
  openedAt : Nat
  refused : Nat
deriving DecidableEq, Repr

/-- The command interface, parameters, epochs, mailboxes (13). -/
structure Command where
  staticAddr : Nat
  /-- 0x00 while none is held. -/
  dynAddr : Nat
  /-- A dynamic address has been assigned since power-on reset. -/
  everAssigned : Bool
  enint : Bool
  mwl : Nat
  mrl : Nat
  hdr : Bool
  packets : List Packet
  /-- Bytes still to read of each reply, oldest first. -/
  replies : List Bytes
  ibis : List Ibi
  /-- What the last private read, common command code or register read returned to the outside. -/
  lastRead : Bytes
  /-- The last reply to a command of firmware (log 5). -/
  fwReply : Bytes
  posted : Tab Nat
  inForce : Tab Nat
  staged : Tab Nat
  stagedItems : List QuietItem
  epochs : List EpochRec
  quiet : Option Quiet
  streamEpochs : List Nat
  /-- The epoch in use by each job, each batch class and the other units. -/
  jobEpochs : List Nat
  classEpochs : List Nat
  deviceEpoch : Nat
  /-- SERV and TEXT values that each job adopted at its last build (10 R321). -/
  jobParams : List (Tab Nat)
  chans : List Channel
  waiting : List Waiting
  packetsCount : Nat
  refusedCount : Nat
  ibiCount : Nat
  deniedCount : Nat
  lostCount : Nat
  badPacketsRc : Nat
  chsel : Nat
deriving DecidableEq, Repr

end Sys2Proof.Machine
end

