-- ==== Sys2Proof/Machine/Part/Core.lean ====
section
/-! DEFINITION. Clove cores and clusters as data (05, 06, 08). -/
namespace Sys2Proof.Machine

/-- A tile descriptor (05 R167). -/
structure TileDesc where
  tileId : Nat
  entry : Nat
  priority : Nat
  lcore : Nat
  coreMask : Nat
  liveSave : Bool
  waitTally : Nat
  waitCount : Nat
  doneTally : Nat
  doneCount : Nat
  tallyBase : Nat
  tallyLimit : Nat
  tag : Nat
  arg : List Word
  live : Nat
  ctxBase : Nat
deriving DecidableEq, Repr

/-- A tile held by a dispatcher (05 R168). -/
structure PendingTile where
  desc : TileDesc
  job : Nat
  step : Nat
  epoch : Nat
  /-- The wait has been met (or there is none). -/
  eligible : Bool
deriving DecidableEq, Repr

/-- A hardware loop level (05 R157, R172): iterations left, first instruction, and the one after the body. -/
structure LoopLevel where
  left : Nat
  start : Nat
  stop : Nat
deriving DecidableEq, Repr

/-- An accumulator tile (05 R137, R138): FP32 or INT32, 16 rows of 64 cells, row-major. -/
structure AccTile where
  fp : Bool
  cells : List Word
deriving DecidableEq, Repr

/-- A tile that nothing has written. -/
def AccTile.zero : AccTile := ⟨false, List.replicate 1024 0⟩

/-- A Y register (08 R227): per row the running maximum M and sum L as FP32, and the mask bits. -/
structure YReg where
  m : List Word
  l : List Word
  mask : List Bool
deriving DecidableEq, Repr

/-- A DMA transfer in the queue (05 R164): the descriptor's fields; addresses are the whole 64-bit words. -/
structure DmaXfer where
  src : Nat
  dst : Nat
  rowBytes : Nat
  rows : Nat
  tally : Nat
  srcStride : Nat
  dstStride : Nat
  done : Nat
deriving DecidableEq, Repr

/-- What an append carries to the walker (08 R241, R242): where its rows go, and the rows. -/
structure Append where
  seq : Nat
  layer : Nat
  group : Nat
  head : Nat
  part : Nat
  value : Bool
  pos0 : Nat
  tally : Nat
  rows : List Bytes
deriving DecidableEq, Repr

/-- A partial instruction (05 R170, R172; 08 R249): its word, its next k or row, and the X registers and the
group-scale register that it took at its issue; for a withdrawn append, what it had converted. -/
structure Partial where
  word : DWord
  next : Nat
  x : List Word
  g : Nat
  append : Option Append
deriving DecidableEq, Repr

/-- What the registers, units and memory of a core hold; what a context keeps (05 R133, R172). -/
structure CoreRegs where
  pc : Nat
  x : List Word
  v : List (List Word)
  p : List Bool
  loops : List (Option LoopLevel)
  g : List DWord
  y : List YReg
  acc : Tab AccTile
  dmaq : List DmaXfer
  /-- Partial matrix, drain and window instructions, oldest first. -/
  part : List Partial
  /-- The pending tally wait: tally, threshold kind, value. -/
  wait : Option (Nat × Bool × Nat)
deriving DecidableEq, Repr

/-- A saved context (05 R172). -/
structure Context where
  kind : Nat
  variant : Nat
  job : Nat
  lcore : Nat
  fromCore : Nat
  waitGranted : Bool
  tag : Nat
  savedAt : Nat
  epoch : Nat
  step : Nat
  tile : TileDesc
  regs : CoreRegs
  /-- KIND 1: (offset, bytes) of each extent. KIND 0: the whole scratchpad. -/
  extents : List (Nat × Bytes)
  scratch : Memory
deriving DecidableEq, Repr

/-- A clove core. States (05 R178, R182): 0 powered down, 1 idle, 2 running, 3 waiting, 4 stopping, 5 saving, 6 restoring,
7 faulted. -/
structure Core where
  state : Nat
  job : Nat
  step : Nat
  epoch : Nat
  tile : Option TileDesc
  r : CoreRegs
  scratch : Memory
  clipped : Nat
  nanOut : Nat
  accSat : Nat
  tag : Nat
  waitGranted : Bool
  /-- The unit that an access has stalled (05 R146), the word that waits. -/
  stalled : Option DWord
  /-- Stamp of the stop, for a save; of the request, or of the restore's start. -/
  stoppedAt : Nat
  askedAt : Nat
  /-- CTX_BASE of the restore in progress; a pre-emption request held for its end. -/
  restoring : Option Nat
  heldRequest : Bool
  /-- The share of the cluster's charge has been granted to the core (14 R449). -/
  clocked : Bool
  /-- Outstanding walker requests (09 R261). -/
  walks : Nat
  /-- The last TB value that TBRD read: successive reads never decrease (02 R22). -/
  lastTb : Nat
deriving DecidableEq, Repr

def YReg.empty : YReg := ⟨List.replicate 16 0xFF800000, List.replicate 16 0, List.replicate 16 false⟩

def CoreRegs.reset : CoreRegs where
  pc := 0
  x := List.replicate 32 0
  v := List.replicate 8 (List.replicate 64 0)
  p := true :: List.replicate 7 false
  loops := List.replicate 4 none
  g := List.replicate 16 0
  y := List.replicate 4 YReg.empty
  acc := []
  dmaq := []
  part := []
  wait := none

def Core.reset : Core where
  state := 0
  job := 0
  step := 0
  epoch := 0
  tile := none
  r := CoreRegs.reset
  scratch := []
  clipped := 0
  nanOut := 0
  accSat := 0
  tag := 0
  waitGranted := false
  stalled := none
  stoppedAt := 0
  askedAt := 0
  restoring := none
  heldRequest := false
  clocked := false
  walks := 0
  lastTb := 0

/-- A cluster (05 R133, R168, R180). -/
structure Cluster where
  commons : Memory
  tiles : List PendingTile
  tilesRun : Nat
deriving DecidableEq, Repr

/-- Counts since boot (05 R180). -/
structure CtxCounts where
  saves : Nat
  restores : Nat
  bytes : Nat
  completed : Nat
deriving DecidableEq, Repr

end Sys2Proof.Machine
end

