-- ==== Sys2Proof/Machine/Part/Fault.lean ====
section
/-! DEFINITION. Faults, freeze, the twin pair and JTAG as data (15; 17 R548). -/
namespace Sys2Proof.Machine

/-- An entry of the fault log (15 R475). -/
structure FaultEntry where
  seq : Nat
  status : Nat
  action : Nat
  unit : Nat
  stamp : Nat
  whereAt : Nat
  sides : Nat
  steps : Nat
  flags : Nat
  resumeUs : Nat
deriving DecidableEq, Repr

/-- A recovery in progress (15 R473, R474): F, the governing action (1 D to 4 B). -/
structure Recovery where
  at_ : Nat
  action : Nat
  /-- The cores whose resident content is reloaded. -/
  reload : List Nat
deriving DecidableEq, Repr

/-- Faults and freeze (15 R466 to R484). -/
structure Faults where
  log : List FaultEntry
  /-- The entry of an action-B fault kept over the reset. -/
  prior : Option FaultEntry
  seq : Nat
  recovery : Option Recovery
  lastStatus : Nat
  frozen : Bool
  selfFrozen : Bool
  frostTb : Nat
  /-- Counts since boot: FAULTS, SIDES_DISCARDED, SRAM_CE, DDR_CE, DDR_UE_IDLE, TAKEOVERS. -/
  faults : Nat
  sidesDiscarded : Nat
  sramCe : Nat
  ddrCe : Nat
  ddrUeIdle : Nat
  takeovers : Nat
  /-- FLT_ECC. -/
  sramCeRc : Nat
  ddrCeRc : Nat
  ddrUeRc : Nat
  faultsRc : Nat
  /-- Corrected errors of this pass by 1 MiB region. -/
  regions : Tab Nat
  /-- Fault flag stamps visible to OUT_RELEASE: the last F. -/
  lastF : Option Nat
  /-- Stamp of the last watchdog service of control cores 0x10 to 0x13 (02 R36). -/
  watchdog : List Nat
deriving DecidableEq, Repr

/-- An item of the mirror kept for a resend or under assembly (15 R486). -/
structure MirrorItem where
  kind : Nat
  mseq : Nat
  body : Bytes
  stamp : Nat
deriving DecidableEq, Repr

/-- A side that the primary has mirrored (15 R486, R492). -/
structure MirroredSide where
  sheet : Nat
  stream : Nat
  replayOf : Nat
  t0 : Nat
  /-- A sheet record or notice has been mirrored; lines or fields still pending in the last mirrored record. -/
  recorded : Bool
  pending : Bool
deriving DecidableEq, Repr

/-- A retained record of a standby (15 R486). -/
structure Retained where
  recordNo : Nat
  stream : Nat
  bytes : Bytes
deriving DecidableEq, Repr

/-- Role and state of the twin (15 R489): codes of R489, 0 disabled. -/
structure Twin where
  state : Nat
  partner : Nat
  /-- Listening at boot until the stamp (R495). -/
  listening : Option Nat
  mseq : Nat
  acked : Nat
  received : Nat
  lastPulse : Nat
  lastItem : Nat
  /-- Code of the last pulse received, 0 none. -/
  pulseCode : Nat
  sentItems : List MirrorItem
  lastSend : Nat
  lastBeat : Nat
  sides : List MirroredSide
  retained : List Retained
  lastSent : Nat
  topRecord : Nat
  topSheet : Nat
  /-- Stream commands recorded as the open set: (opcode, parameters). -/
  openSet : List (Nat × Bytes)
  partnerId : Nat
  partnerRole : Nat
  partnerImage : Bytes
  /-- A standby is receiving a snapshot; it has acknowledged the end of one since the link started. -/
  snapshot : Bool
  snapDone : Bool
  /-- MSEQ of the last SNAPSHOT_END that a primary has sent, 0 none. -/
  snapEnd : Nat
  /-- A primary hands over; at a standby, its primary has handed over (15 R496). -/
  handover : Bool
  linkLost : Bool
  hbLost : Bool
  /-- A NAK has been sent, and items are discarded until the named MSEQ comes. -/
  nakFrom : Option Nat
deriving DecidableEq, Repr

/-- The instruction in the JTAG register (15 R481; 17 R548). -/
inductive JtagInstr where
  | bypass | idcode | samplePreload | extest | extestPulse | extestTrain
  | frzAddr | frzData | frzStat | frzReset | dbgAddr | dbgData
deriving DecidableEq, Repr

/-- The JTAG TAP and read-out engine (15 R480, R481; 17 R548). -/
structure Jtag where
  instr : JtagInstr
  frzAddr : DWord
  dbgAddr : Nat
  /-- FRZ_STAT.BAD_ADDR and UNCORRECTED. -/
  badAddr : Bool
  uncorrected : Bool
  /-- Boundary cells of GP0 to GP15, as last captured or loaded. -/
  cells : BitVec 16
  /-- What the data register captured last. -/
  dataOut : Nat
deriving DecidableEq, Repr

end Sys2Proof.Machine
end

