-- ==== Sys2Proof/Machine/Part/Intake.lean ====
section
/-! DEFINITION. Scan intake as data (03). -/
namespace Sys2Proof.Machine

/-- The edge record of a sheet side (03 R81). A skew of none is 0x8000, not available; a column of none is 0xFFFF. -/
structure EdgeRec where
  sheet : Nat
  epoch : Nat
  t0 : Nat
  trail : Nat
  skewLead : Option Int
  skewTrail : Option Int
  xMin : Option Nat
  xMax : Option Nat
  length : Nat
  skewFinal : Bool
  skewOver : Bool
  speedLow : Bool
  subst : Bool
  replay : Bool
  frameEndMissing : Bool
  substLines : Nat
  replayOf : Nat
deriving DecidableEq, Repr

/-- An entry of the intake ring: the header of R91, and the samples, channel by channel. -/
structure RingLine where
  stamp : Nat
  /-- 0 for gap lines and lines of refused sides. -/
  sheet : Nat
  /-- 0xFFFF_FFFF for gap lines. -/
  line : Nat
  streamLine : Nat
  /-- Place in the ring, counted since the stream started. -/
  seq : Nat
  paper : Bool
  corrupt : Bool
  /-- Substituted for packets that arrived damaged, rather than missing (R66). -/
  damaged : Bool
  leading : Bool
  trailing : Bool
  speedLow : Bool
  xLeft : Option Nat
  xRight : Option Nat
  speed : Nat
  delays : List Nat
  epoch : Nat
  px : List (List Nat)
  /-- Columns of the edge window that are paper, as counted in each of the 64 bins (R79). -/
  bins : List Nat
deriving DecidableEq, Repr

/-- Edge tracking (03 R78). -/
inductive EdgeState where
  | gap
  | leadRun (k : Nat)
  | sheet
  | trailRun (k : Nat)
deriving DecidableEq, Repr

/-- One of the 64 bins of the skew estimator (03 R79): its paper count on the last classified line; the stream line at which
it reached half, with the counts before and there; the stream line at which it last held half. -/
structure Bin where
  prev : Nat
  lead : Option (Nat × Nat × Nat)
  last : Option Nat
deriving DecidableEq, Repr

/-- A side in progress on a stream, accepted or refused (03 R78 to R88). -/
structure OpenSide where
  edge : EdgeRec
  accepted : Bool
  /-- Lines counted so far, from line 0. -/
  lines : Nat
  /-- Substituted lines in a row, whether one of them had arrived damaged, and whether any packet came for them. -/
  run : Nat
  runDamaged : Bool
  /-- Line at which the skew estimate became final. -/
  finalAt : Option Nat
  /-- Lowest and highest paper columns so far, and whether a line was paper. -/
  xl : Option Nat
  xr : Option Nat
  paper : Bool
  /-- Stamp of the last line of the side, and the stream line of line 0. -/
  lastStamp : Nat
  line0 : Nat
deriving DecidableEq, Repr

/-- A line being assembled (03 R64): which channels have come, the channel whose Line Start stands open, the count, and
whether a packet of it was damaged. -/
structure Assembly where
  openCh : Option Nat
  gotLong : Bool
  chans : List (Nat × List Nat)
  count : Option Nat
  corrupt : Bool
deriving DecidableEq, Repr

/-- A flat-field table (03 R68): its entries, and whether a boundary has put it in use. -/
structure FlatTable where
  entries : List (Nat × Nat)
  used : Bool
deriving DecidableEq, Repr

/-- An intake stream (03). -/
structure Stream where
  /-- STATE: 0 closed, 1 starting, 2 training, 3 running. -/
  state : Nat
  /-- Width in force; 0 until the first valid long packet sets it (R562). -/
  pixels : Nat
  edge : EdgeState
  linesRx : Nat
  linesSubst : Nat
  accepted : Nat
  refused : Nat
  discarded : Nat
  asm : Option Assembly
  /-- The expected line count of modes 1 and 2. -/
  expected : Option Nat
  /-- Stamps of the last complete lines, newest first, at most 17; of the first 16 since the open, oldest first. -/
  stamps : List Nat
  first16 : List Nat
  /-- Stamp of the last complete or substituted line. -/
  lastStamp : Option Nat
  lastComplete : Option Nat
  /-- Corrected lines of each channel, newest first, at most 65, and each channel's first line since the start. -/
  stored : List (List (List Nat))
  /-- The channels of the last complete line, before correction. -/
  raw : List (List Nat)
  streamLine : Nat
  /-- Sum and number of window pixels of the 16 most recent lines classified not paper; lines trained. -/
  backing : List (Nat × Nat)
  trained : Nat
  cand : List RingLine
  side : Option OpenSide
  /-- The bins of the skew estimator, over the lines since a bin last held less than half (R79). -/
  bins : List Bin
  ring : List RingLine
  ringSeq : Nat
  frameOpen : Bool
  replayLo : Option Nat
  replayHi : Option Nat
  epoch : Nat
  tach : List Nat
  speeds : List (Nat × Nat)
  flats : Tab FlatTable
  /-- Lines of colour-delay storage of each channel, as allocated. -/
  storage : List Nat
  openedAt : Nat
  /-- TB of the first line trigger of the stream or its sync group. -/
  phase : Nat
  /-- The period taken from the first 16 lines, for a free-running stream. -/
  freePeriod : Option Nat
deriving DecidableEq, Repr

/-- The error counters of a receive port (03 R95). -/
structure PortErr where
  hdrUncorr : Nat
  crcFail : Nat
  wcFraming : Nat
  hdrCorr : Nat
deriving DecidableEq, Repr

/-- Scan intake. -/
structure Intake where
  streams : List Stream
  ports : List PortErr
  /-- Packets counted under R58 and R62. -/
  strays : Nat
  /-- The next sheet identifier (01 R15). -/
  nextSheet : Nat
deriving DecidableEq, Repr

end Sys2Proof.Machine
end

