-- ==== Sys2Proof/Machine/Part/Output.lean ====
section
/-! DEFINITION. Results output as data (12). -/
namespace Sys2Proof.Machine

/-- What an entry of the output ring holds (12 R376, R377). -/
inductive EntryKind where
  | imageRow (sheet row : Nat)
  | thumb (sheet : Nat)
  | record (no : Nat)
  | twin (mseq : Nat)
deriving DecidableEq, Repr

/-- An entry of the output ring: its bytes, whether it has been transmitted (or never will be), whether it is retained. -/
structure RingEntry where
  kind : EntryKind
  bytes : Nat
  sent : Bool
  retained : Bool
deriving DecidableEq, Repr

/-- A committed record on its way out (12 R373, R374). KIND 1 sheet, 2 amendment, 3 notice. -/
structure OutRecord where
  no : Nat
  kind : Nat
  sheet : Nat
  stream : Nat
  port : Nat
  vc : Nat
  commit : Nat
  bytes : Bytes
  /-- Launched by its OUT_RELEASE, and the slot it was launched from. -/
  launched : Bool
  /-- Joined the port's record queue. -/
  queued : Bool
  /-- Bytes sent so far; the frame is open once its Frame Start has been sent. -/
  sentBytes : Nat
  frame : Nat
  /-- MSEQ of the item that mirrors it, or of the item that it is (15 R486, R488). -/
  mirrored : Nat
deriving DecidableEq, Repr

/-- An image row that waits at its port (12 R359), in hand-over order. -/
structure OutRow where
  sheet : Nat
  stream : Nat
  vc : Nat
  row : Nat
  /-- 0x24 or 0x2A. -/
  format : Nat
  bytes : Bytes
  last : Bool
  at_ : Nat
deriving DecidableEq, Repr

/-- A time mark that has launched and waits to start (12 R375). -/
structure Mark where
  marker : Nat
  slot : Nat
  due : Nat
  launched : Nat
deriving DecidableEq, Repr

/-- An image frame that is open: its sheet, its channel and number, whether its header has left, and whether its last row
has. -/
structure OpenFrame where
  sheet : Nat
  vc : Nat
  number : Nat
  header : Bool
  ended : Bool
deriving DecidableEq, Repr

/-- A packet as it leaves a port. -/
structure TxPacket where
  dataType : Nat
  vc : Nat
  payload : Bytes
  at_ : Nat
deriving DecidableEq, Repr

/-- A transmit port (12). -/
structure TxPort where
  marks : List Mark
  rows : List OutRow
  frames : List OpenFrame
  /-- Last frame number by virtual channel (R357). -/
  numbers : Tab Nat
  /-- The packet last started. -/
  inFlight : Option TxPacket
  bytesSent : Nat
  framesSent : Nat
  holdNs : Nat
  packetsRc : Nat
  /-- PACKET_BYTES in force: adopted at a Frame Start (13 R408). -/
  packetBytes : Nat
deriving DecidableEq, Repr

/-- Results output. -/
structure Output where
  ring : List RingEntry
  high : Bool
  records : List OutRecord
  /-- Records that found no room, by kind and sheet, for which event 5 has been sent (12 R380). -/
  waiting : List (Nat × Nat)
  ports : List TxPort
  nextRecord : Nat
  lastRecord : Nat
  lastSent : Nat
  sheets : Nat
  amendments : Nat
  notices : Nat
  marksLate : Nat
  /-- OUT_HOLD_N is low, and since when. -/
  hold : Option Nat
deriving DecidableEq, Repr

end Sys2Proof.Machine
end

