-- ==== Sys2Proof/Machine/Part/Prep.lean ====
section
/-! DEFINITION. Page preparation and sample batching as data (04). -/
namespace Sys2Proof.Machine

/-- A region record (04 R107). -/
structure Region where
  sheet : Nat
  index : Nat
  kind : Nat
  target : Nat
  x : Nat
  y : Nat
  w : Nat
  h : Nat
  angle : Int
  score : Nat
  last : Bool
  steered : Bool
  host : Bool
  link : Nat
  parent : Nat
  tag : Nat
deriving DecidableEq, Repr

/-- The geometry of a side's prepared image (04 R96, R100 to R103): θ in 0.001°, W, H (once known), M, x_A in 1/2^30
column, sin and cos with 30 fraction bits; no rotation where θ is none. -/
structure Geometry where
  theta : Option Int
  w : Nat
  h : Option Nat
  m : Nat
  xa : Int
  sinT : Int
  cosT : Int
deriving DecidableEq, Repr

/-- A sheet side from acceptance until nothing more is owed for it: its edge record, and what preparation, serving and
output hold for it. -/
structure Sheet where
  id : Nat
  stream : Nat
  edge : EdgeRec
  /-- The stream's width, and its parameters as in force at line 0 (04 R129). -/
  width : Nat
  pars : Tab Nat
  /-- The trailing edge (or Frame End) has been confirmed. -/
  closed : Bool
  closedAt : Nat
  /-- Line F at which the skew became final, XL and XR (R101). -/
  finalAt : Option Nat
  xl : Option Nat
  xr : Option Nat
  /-- Place in the ring of line 0, and ring lines written from it on (the side's own, and those that follow). -/
  base : Nat
  linesIn : Nat
  geo : Option Geometry
  /-- Release stamps of the bands released, and how many of them are prepared. -/
  released : List Nat
  prepared : Nat
  /-- TB from which the next band has waited for a slot; event 6 sent. -/
  waitingSince : Option Nat
  advised : Bool
  /-- A difference over the open-time charge is held for M > 32 (R127). -/
  extra : Nat
  regions : List Region
  /-- Steering regions in force for the side, and which have been adopted. -/
  steer : List Region
  adopted : List Nat
  listDone : Bool
  /-- Host regions awaited; the fallback has happened. -/
  hostWait : Bool
  offered : Bool
  /-- The next index that preparation assigns. -/
  nextIndex : Nat
  /-- Bands that meet no steering region are skipped (R112, ROI). -/
  roi : Bool
  /-- Regions whose sample has been offered to batching, and whose sample has been filled. -/
  asked : List Nat
  cut : List Nat
  /-- Level-0 rows prepared, channel-interleaved. -/
  rows : List (List Nat)
  /-- Substituted lines read by each row, by index in the side. -/
  rowSubst : List (List Nat)
  /-- Sheet record committed: its stamp and RECORD_NO; AMEND_NO of the next amendment; lines and fields still pending. -/
  committed : Option Nat
  recordNo : Nat
  amendNo : Nat
  linesPending : List Nat
  fieldsPending : List Nat
  /-- Discard or refusal status, and whether its notice has been committed. -/
  dead : Option Nat
  noticed : Bool
  /-- Due time of the release check, and of the second deadline, that have timed out (10 R314, R317). -/
  checkHit : Option Nat
  secondHit : Option Nat
  /-- Frame number of the image frame, 0 none; rows handed to output. -/
  frame : Nat
  rowsOut : Nat
  /-- First and last epoch of each producer that worked on the side: (block, job) with (first, last). -/
  epochs : List ((Nat × Nat) × (Nat × Nat))
  /-- Refused rather than accepted: held only for its notice. -/
  refusedSide : Bool
deriving DecidableEq, Repr

/-- A sample that waits for a batch slot (04 R109, R117). -/
structure Sample where
  sheet : Nat
  region : Nat
  cls : Nat
  stream : Nat
  ready : Nat
  express : Bool
  steered : Bool
  t0 : Nat
deriving DecidableEq, Repr

/-- A slot of a batch (04 R120): none for a filler; `done` once filled, then STATUS, VALID_W, VALID_H, flags, pixels. -/
structure BatchSlot where
  sample : Option Sample
  status : Nat
  validW : Nat
  validH : Nat
  flags : Nat
  epochIntk : Nat
  epochPrep : Nat
  px : List Nat
deriving DecidableEq, Repr

/-- A closed batch (04 R117, R120). -/
structure Batch where
  id : Nat
  cls : Nat
  close : Nat
  epoch : Nat
  tally : Nat
  slots : List BatchSlot
  filled : Bool
deriving DecidableEq, Repr

/-- A band slot in commons (04 R105): the header's fields, the consumers still to signal, where it lies. -/
structure BandSlot where
  stream : Nat
  /-- Which of the stream's slots it is. -/
  index : Nat
  cluster : Nat
  sheet : Nat
  band : Nat
  rows : Nat
  width : Nat
  levels : Nat
  flags : Nat
  tally : Nat
  owed : Nat
  t0 : Nat
  epochIntk : Nat
  epochPrep : Nat
deriving DecidableEq, Repr

/-- An augmentation record (04 R124), with its arrival stamp. -/
structure Aug where
  sheet : Nat
  region : Nat
  flags : Nat
  rotate : Int
  shear : Int
  scaleX : Nat
  scaleY : Nat
  shiftX : Int
  shiftY : Int
  contrast : Nat
  bright : Int
  seed : Nat
  amp : Nat
  blur : Nat
  erase : List Nat
  eraseValue : Nat
  arrived : Nat
deriving DecidableEq, Repr

/-- Counters of a stream (04 R128, 0x80 to 0x86). -/
structure PrepCounts where
  prepared : Nat
  cut : Nat
  corrupt : Nat
  stale : Nat
  adopted : Nat
  withdrawn : Nat
  fallbacks : Nat
deriving DecidableEq, Repr

/-- Counters and next BATCH_ID of a class (04 R120, R128). -/
structure ClassCounts where
  batches : Nat
  fillers : Nat
  corrupt : Nat
deriving DecidableEq, Repr

/-- Page preparation. -/
structure Prep where
  sheets : List Sheet
  bandSlots : List BandSlot
  steer : List (List Region)
  /-- Frames of each stream since its open (ROI, R112). -/
  frames : List Nat
  /-- Region records read from each stream's region queue for its present list (log 35). -/
  queueRead : List Nat
  samples : List Sample
  batches : List Batch
  aug : List Aug
  augUnused : Nat
  counts : List PrepCounts
  classes : List ClassCounts
deriving DecidableEq, Repr

end Sys2Proof.Machine
end

