-- ==== Sys2Proof/Machine/Part/Serve.lean ====
section
/-! DEFINITION. Quantisation points, KV slabs, the serving loop, text and grammars as data (06 R200; 09; 10; 11). -/
namespace Sys2Proof.Machine

/-- A quantisation point's record (06 R204), and the settings of a QP_SET that waits for the next fold. -/
structure Qp where
  job : Nat
  mode : Nat
  adjMin : Int
  adjMax : Int
  relax : Nat
  thresh : Nat
  /-- The widening condition at ADJ_MAX has been reported since the last change; adapted since image load. -/
  limitSent : Bool
  adapted : Bool
  clean : Nat
  stale : Nat
  elem : Nat
  clip : Nat
  nan : Nat
  high : Nat
  /-- Four history entries: step and adjustment. -/
  hist : List (Nat × Int)
  changes : Nat
  lastFold : Nat
  next : Option (Nat × Int × Int × Nat × Nat)
deriving DecidableEq, Repr

/-! ### Slabs (09) -/

/-- An entry of the sequence table (09 R255), without its HANDLE's index. STATE 1 open, 2 closing. -/
structure Seq where
  handle : Nat
  job : Nat
  state : Nat
  priority : Nat
  flags : Nat
  prefixId : Nat
  prefixLen : Nat
  firstPrivate : Nat
  committed : Nat
  dir : Nat
  src : Nat
  index : Nat
  entered : Nat
  lastUse : Nat
  /-- Slab indices of the columns dropped. -/
  dropped : List Nat
  /-- Steps that it is entered in: step and RECOMPUTE. -/
  steps : List (Nat × Bool)
deriving DecidableEq, Repr

/-- An entry of the slab table (09 R259). STATE 1 private, 2 shared, 3 draining. -/
structure Slab where
  seq : Nat
  layer : Nat
  group : Nat
  index : Nat
  state : Nat
  promoted : Bool
  registered : Bool
  fill : Nat
  refTally : Nat
  pins : Nat
  job : Nat
  commons : Nat
  lastUse : Nat
deriving DecidableEq, Repr

/-- A registered prefix (09 R257, R278): its job, length, and slabs in the order of its directory entries. -/
structure Prefix where
  job : Nat
  len : Nat
  slabs : List Nat
deriving DecidableEq, Repr

/-- A request that waits at a walker (09 R261, R264): the core, its tile's job and step, and what it asks. -/
inductive WalkAsk where
  | translate (rec : Nat) (request : Bytes)
  | append (a : Append)
deriving DecidableEq, Repr

structure WalkReq where
  core : Nat
  job : Nat
  step : Nat
  ask : WalkAsk
  /-- A copy that it waits for: the shared slab. -/
  waits : Option Nat
  /-- The instruction that asked: it is issued again where the request is withdrawn (08 R249). -/
  again : Partial
deriving DecidableEq, Repr

/-- A walker (09 R263, R264): its SLB, most recent first, its pin records (job, step, slab), and its requests. -/
structure Walker where
  slb : List ((Nat × Nat × Nat × Nat) × Nat)
  pins : List (Nat × Nat × Nat)
  queue : List WalkReq
deriving DecidableEq, Repr

/-- A copy-on-write in progress (09 R267): the shared slab, the new one, and the directory entry that will name it. -/
structure CowCopy where
  old : Nat
  new : Nat
  seq : Nat
  index : Nat
  layer : Nat
  group : Nat
deriving DecidableEq, Repr

/-- A promotion asked for (09 R274): the slab, where its copy goes in its home's commons, and whether its charge is held. -/
structure Promo where
  slab : Nat
  offset : Nat
  started : Bool
deriving DecidableEq, Repr

/-- Slab state. -/
structure SlabState where
  seqs : Tab Seq
  /-- Generation last used by each index. -/
  gens : Tab Nat
  slabs : Tab Slab
  prefixes : Tab Prefix
  /-- Reservations left: (job, step, count). -/
  reserved : List (Nat × Nat × Nat)
  walkers : List Walker
  copies : List CowCopy
  promos : List Promo
  /-- COW_COPIES, ADOPTIONS, COLUMNS_DROPPED, COLUMNS_RESTORED, PROMOTIONS, PIN_TABLE_FULL, SLB_MISSES. -/
  counts : List Nat
  wsel : Nat
deriving DecidableEq, Repr

/-! ### Serving (10) -/

/-- The candidate rows of a line in a step (10 R293, R294): where its row results lie in commons, and its inputs. -/
structure RowsAt where
  handle : Nat
  cluster : Nat
  offset : Nat
  next : Nat
  drafts : List Nat
  startInput : Bool
deriving DecidableEq, Repr

/-- A step in flight (10 R290). STATE 3 posted, 6 running; 7 once its results have been accepted. -/
structure Step where
  number : Nat
  state : Nat
  epoch : Nat
  due : Nat
  launch : Nat
  acceptedAt : Nat
  doneTally : Nat
  tiles : Nat
  rows : List RowsAt
  /-- Prefill chunks: (handle, positions). Columns recomputed: (handle, slab index). -/
  prefill : List (Nat × Nat)
  recompute : List (Nat × Nat)
deriving DecidableEq, Repr

/-- A job at run time (10 R287 to R290, R310, R320). -/
structure Job where
  start : Option Nat
  stepLast : Nat
  lastLaunch : Nat
  steps : List Step
  /-- Windows of the running medians, newest first. -/
  windows : List (List Nat)
  started : Bool
  /-- Waiting for cores since a stamp; event 7 has been sent for this wait. -/
  waitingCores : Option Nat
  waitReported : Bool
  coresHeld : Nat
  /-- TB of the learn steps launched over the last 100 cadence points. -/
  launches : List Nat
deriving DecidableEq, Repr

/-- An accepted token of a line (11 R334; 12 R367): the bytes of it that the text keeps, whether it was accepted as a draft,
whether it is the completing token of a stop, and what the step left for it. -/
structure Tok where
  token : Nat
  kept : Bytes
  draft : Bool
  cut : Bool
  x : Nat
  w : Nat
  logit : Word
  step : Nat
deriving DecidableEq, Repr

/-- A decode line (10 R309). STATE 1 waiting, 2 normal, 3 slow, 4 done, 5 unread, 6 discarded. -/
structure Line where
  sheet : Nat
  region : Nat
  job : Nat
  handle : Nat
  state : Nat
  /-- Why it is unread: the status of a corrupt sample (04 R119), or 0x0790. -/
  status : Nat
  bucket : Nat
  budget : Nat
  stepsUsed : Nat
  firstText : Nat
  seeds : Nat
  ready : Nat
  /-- The next token; the drafts for the positions after it; the encoder draft; the tokens at the text positions so far. -/
  next : Nat
  drafts : List Nat
  encoder : List Nat
  placed : List Nat
  /-- Accepted tokens, the raw text, and its segment cuts (11 R348). -/
  toks : List Tok
  text : Bytes
  cuts : List Nat
  /-- The grammar bound at join, the one in use, its state, and the line's copy of its stop set (11 R345). -/
  bound : Nat
  grammar : Nat
  gstate : Nat
  stops : Bytes
  stopIndex : Option Nat
  stopped : Bool
  surplus : Nat
  /-- START stands for the next token in the next mask request (11 R346, R350). -/
  startInput : Bool
  /-- Tokens of a continuation still to prefill. -/
  refill : List Nat
  truncated : Bool
  movedAt : Nat
  completion : Option Nat
  deadlineDue : Nat
  deadlineHit : Bool
  firstEpoch : Nat
  lastEpoch : Nat
  /-- A record has carried it as read or unread. -/
  recorded : Bool
deriving DecidableEq, Repr

/-- A line that is never decoded: its sample was corrupt (12 R364). -/
def Line.corrupt (sheet region job status : Nat) : Line where
  sheet := sheet
  region := region
  job := job
  handle := 0
  state := 5
  status := status
  bucket := 7
  budget := 0
  stepsUsed := 0
  firstText := 0
  seeds := 0
  ready := 0
  next := 0
  drafts := []
  encoder := []
  placed := []
  toks := []
  text := []
  cuts := []
  bound := 0xFF
  grammar := 0xFF
  gstate := 0
  stops := []
  stopIndex := none
  stopped := false
  surplus := 0
  startInput := false
  refill := []
  truncated := false
  movedAt := 0
  completion := none
  deadlineDue := 0
  deadlineHit := false
  firstEpoch := 0
  lastEpoch := 0
  recorded := false

/-- A learning target (10 R318). -/
structure Target where
  sheet : Nat
  region : Nat
  tokens : List Nat
  arrived : Nat
deriving DecidableEq, Repr

/-- Serving state. -/
structure Serving where
  jobs : List Job
  lines : List Line
  targets : List Target
  /-- PREEMPTIONS, CORES_SAVED, RESTORES, STEPS_OVERRUN, LINES_SLOW, LINES_AMENDED, LINES_UNREAD. -/
  counts : List Nat
  jsel : Nat
  /-- Adapters in service, one learn job for each reading job: (reading, learn) (10 R319; 13 R410). -/
  adapters : List (Nat × Nat)
deriving DecidableEq, Repr

/-! ### Text (11) -/

/-- A mask list handed over (11 R341, R343): its offset in the cluster's commons, the core and job of its tile, and the
requests done. -/
structure MaskList where
  offset : Nat
  core : Nat
  job : Nat
  done : Nat
deriving DecidableEq, Repr

/-- The mask unit of a cluster (11 R343): lists handed over, oldest first, MASKS, and the grammar slot of the request in
progress. -/
structure MaskUnit where
  lists : List MaskList
  masksRc : Nat
  grammar : Nat
deriving DecidableEq, Repr

/-- Text state. -/
structure TextState where
  carries : List Bytes
  dict : Bytes
  classTables : Tab Bytes
  grammars : Tab Bytes
  bindings : List ((Nat × Nat) × (Nat × Nat))
  stops : Tab Bytes
  /-- Bindings and stop sets staged, and posted but not yet built under. -/
  stagedBinds : List ((Nat × Nat) × (Nat × Nat))
  stagedStops : Tab Bytes
  /-- BYTES_TOKENIZED, MASKS_WRITTEN, BYTES_REPLACED, STOPS, CONTINUATIONS, SURPLUS_BYTES. -/
  counts : List Nat
  masks : List MaskUnit
  gsel : Nat
deriving DecidableEq, Repr

def Walker.reset : Walker := ⟨[], [], []⟩

def SlabState.reset : SlabState :=
  ⟨[], [], [], [], [], List.replicate 16 Walker.reset, [], [], List.replicate 7 0, 0⟩

def Job.reset : Job :=
  { start := none, stepLast := 0, lastLaunch := 0, steps := [], windows := List.replicate 8 [], started := false
    waitingCores := none, waitReported := false, coresHeld := 0, launches := [] }

def Serving.reset : Serving := ⟨List.replicate 16 Job.reset, [], [], List.replicate 7 0, 0, []⟩

def TextState.reset : TextState where
  carries := List.replicate 16 []
  dict := []
  classTables := []
  grammars := []
  bindings := []
  stops := []
  stagedBinds := []
  stagedStops := []
  counts := List.replicate 6 0
  masks := List.replicate 16 ⟨[], 0, 0⟩
  gsel := 0

end Sys2Proof.Machine
end

