-- ==== Sys2Proof/Machine/State.lean ====
section
/-! DEFINITION. The state of the block, its reset value, and the reasons why a step can stop. -/
namespace Sys2Proof.Machine

/-- Reasons for a fault of the model. The block's own faults (15 R467) are states, never these. -/
inductive Fault where
  /-- Raised by no meaning. Safe: no step ends in it. -/
  | none
deriving DecidableEq, Repr

/-- Reasons for a refusal by the model. -/
inductive Refusal where
  /-- The command has no meaning yet; raised by an arm of `exec` only. Safe: the machine stops where the part goes on. -/
  | notModelled (mnemonic : String)
deriving DecidableEq, Repr

/-- The state of the block. -/
structure State where
  /-- Commands that wait, first in, first out. -/
  pending : List Instr
  variant : Variant
  /-- How many free values have been drawn (log 2). -/
  freeCtr : Nat
  clk : Clock
  fc : Forecast
  tallies : Tab Tally
  cmd : Command
  pwr : Power
  flt : Faults
  twin : Twin
  jtag : Jtag
  flash : Flash
  fuses : Fuses
  boot : BootState
  pins : Pins
  intk : Intake
  prep : Prep
  out : Output
  image : Option Image
  /-- The cores, by physical number, and the clusters. -/
  cores : List Core
  clusters : List Cluster
  /-- The core map of each job: physical core of each logical core, or none where PARKED (05 R143). -/
  coreMaps : List (List (Option Nat))
  ctxs : Tab Context
  ctxCounts : CtxCounts
  /-- DDR4. -/
  ddr : Memory
  /-- CORE_SEL (05 R182). -/
  coreSel : Nat
  qps : Tab Qp
  slab : SlabState
  serv : Serving
  text : TextState
deriving DecidableEq, Repr

/-! ### Reset -/

def Clock.reset : Clock where
  tb := 0
  tbRun := false
  tbValid := false
  refOk := false
  aonOk := false
  cold := true
  tbLock := false
  aonLossesRc := 0
  refLossesRc := 0
  aonLosses := 0
  lastLoss := 0
  pAon := 512000000000000
  calOpen := false
  lastSleepTicks := 0
  lastSleepTb := 0
  tbCap := 0
  ticksN0 := 0
  ticks := 0
  comparator := none
  tbHi := 0
  replicaOk := [false, false, false, false]

def Forecast.reset : Forecast := ⟨[], 0, 0⟩

def Channel.reset : Channel := ⟨0, 0, 0, false, false, 0xFFFF, [], 0, 0, 0, 0, 0, 0, false⟩

def Command.reset : Command where
  staticAddr := 0x2C
  dynAddr := 0
  everAssigned := false
  enint := true
  mwl := 65535
  mrl := 65535
  hdr := false
  packets := []
  replies := []
  ibis := []
  lastRead := []
  fwReply := []
  posted := []
  inForce := []
  staged := []
  stagedItems := []
  epochs := []
  quiet := none
  streamEpochs := List.replicate 12 0
  jobEpochs := List.replicate 16 0
  classEpochs := List.replicate 16 0
  deviceEpoch := 0
  jobParams := List.replicate 16 []
  chans := List.replicate 32 Channel.reset
  waiting := []
  packetsCount := 0
  refusedCount := 0
  ibiCount := 0
  deniedCount := 0
  lostCount := 0
  badPacketsRc := 0
  chsel := 0

/-- The voltage/frequency table planned at time zero (14 R447): MHz and mV of P0 to P6 (P0 runs on the rail). -/
def Age.planned : Age where
  delta := 0
  counted := none
  slack := List.replicate 7 0xFFFF
  slackP0 := 0xFFFF
  mhz := [1000, 900, 800, 700, 600, 500, 400]
  mv := [0, 700, 665, 630, 600, 570, 540]
  retired := 0
  vmaxReached := false
  noP0 := false
  stamp := 0

def Power.reset : Power where
  mode := .off
  stackDies := List.replicate 4 .off
  dozeAsked := List.replicate 4 false
  sramWaking := List.replicate 4 false
  reload := false
  charges := []
  shares := []
  returns := []
  granted := []
  returned := []
  points := List.replicate 16 none
  lastDone := List.replicate 16 0
  lastHeld := List.replicate 16 0
  reverseBias := List.replicate 16 false
  setPoint := 750
  thermalCap := 0
  capTemp := 0
  tjMax := 0
  temps := List.replicate 18 0
  ages := List.replicate 16 Age.planned
  replanning := false
  poweredNs := 0
  poweredTotal := 0
  wakes := 0
  ledgerWaits := 0
  wakeFrom := 0
  wakeCause := 0
  wakeDomain := 0
  wakesRc := 0
  ledgerSel := 1
  budgetsSet := false
  budgetDue := none
  budgets := [0, 0, 0, 0]
  saved := none
  waking := none

def Faults.reset : Faults where
  log := []
  prior := none
  seq := 0
  recovery := none
  lastStatus := 0
  frozen := false
  selfFrozen := false
  frostTb := 0
  faults := 0
  sidesDiscarded := 0
  sramCe := 0
  ddrCe := 0
  ddrUeIdle := 0
  takeovers := 0
  sramCeRc := 0
  ddrCeRc := 0
  ddrUeRc := 0
  faultsRc := 0
  regions := []
  lastF := none
  watchdog := List.replicate 4 0

def Twin.reset : Twin where
  state := 0
  partner := 0
  listening := none
  mseq := 0
  acked := 0
  received := 0
  lastPulse := 0
  lastItem := 0
  pulseCode := 0
  sentItems := []
  lastSend := 0
  lastBeat := 0
  sides := []
  retained := []
  lastSent := 0
  topRecord := 0
  topSheet := 0
  openSet := []
  partnerId := 0
  partnerRole := 0
  partnerImage := []
  snapshot := false
  snapDone := false
  snapEnd := 0
  handover := false
  linkLost := false
  hbLost := false
  nakFrom := none

def Jtag.reset : Jtag := ⟨.idcode, 0, 0, false, false, 0, 0⟩

def Flash.reset : Flash where
  usable := false
  bytes := 0
  copies := [none, none]
  slots := [[], [], [], []]
  sizes := [16777216, 16777216, 0, 0]
  profile := []
  identity := []
  plan := none

def Fuses.reset : Fuses where
  vendor := List.replicate 4 ⟨none, false⟩
  owner := List.replicate 4 ⟨none, false⟩
  fwSvn := 0
  imageSvn := 0
  ownerRequired := false
  identityPresent := false

def BootState.reset : BootState where
  stage := 0
  fwSlot := 0
  imageSlot := 0
  fwFallback := false
  imageFallback := false
  profileFactory := false
  lastStatus := 0
  readyTb := 0
  ready := false
  due := true
  awaitRole := none
  fwDigest := []
  imageDigest := []
  profileDigest := []
  fwSvn := 0
  imageSvn := 0
  hostTookIntake := false
  discovery := List.replicate 12 ⟨none⟩
  stagedImage := none

def Pins.reset : Pins where
  levels := List.replicate 16 false
  driven := List.replicate 16 false
  owners := List.replicate 16 .free
  pulses := []
  edges := List.replicate 16 0
  outHold := true
  frostLow := false
  hbOut := false
  hbEnds := none

def Stream.reset : Stream where
  state := 0
  pixels := 0
  edge := .gap
  linesRx := 0
  linesSubst := 0
  accepted := 0
  refused := 0
  discarded := 0
  asm := none
  expected := none
  stamps := []
  first16 := []
  lastStamp := none
  lastComplete := none
  stored := [[], [], [], []]
  raw := []
  streamLine := 0
  backing := []
  trained := 0
  cand := []
  side := none
  bins := []
  ring := []
  ringSeq := 0
  frameOpen := false
  replayLo := none
  replayHi := none
  epoch := 0
  tach := []
  speeds := []
  flats := []
  storage := [0, 0, 0, 0]
  openedAt := 0
  phase := 0
  freePeriod := none

def Intake.reset : Intake where
  streams := List.replicate 12 Stream.reset
  ports := List.replicate 6 ⟨0, 0, 0, 0⟩
  strays := 0
  nextSheet := 1

def Prep.reset : Prep where
  sheets := []
  bandSlots := []
  steer := List.replicate 12 []
  frames := List.replicate 12 0
  queueRead := List.replicate 12 0
  samples := []
  batches := []
  aug := []
  augUnused := 0
  counts := List.replicate 12 ⟨0, 0, 0, 0, 0, 0, 0⟩
  classes := List.replicate 16 ⟨0, 0, 0⟩

def TxPort.reset : TxPort := ⟨[], [], [], [], none, 0, 0, 0, 0, 8192⟩

def Output.reset : Output where
  ring := []
  high := false
  records := []
  waiting := []
  ports := List.replicate 2 TxPort.reset
  nextRecord := 1
  lastRecord := 0
  lastSent := 0
  sheets := 0
  amendments := 0
  notices := 0
  marksLate := 0
  hold := none

/-- The machine right after power-on reset, before its boot. -/
def State.reset : State where
  pending := []
  variant := .kd96x4
  freeCtr := 0
  clk := Clock.reset
  fc := Forecast.reset
  tallies := []
  cmd := Command.reset
  pwr := Power.reset
  flt := Faults.reset
  twin := Twin.reset
  jtag := Jtag.reset
  flash := Flash.reset
  fuses := Fuses.reset
  boot := BootState.reset
  pins := Pins.reset
  intk := Intake.reset
  prep := Prep.reset
  out := Output.reset
  image := none
  cores := List.replicate 128 Core.reset
  clusters := List.replicate 16 ⟨[], [], 0⟩
  coreMaps := List.replicate 16 ((List.range 128).map some)
  ctxs := []
  ctxCounts := ⟨0, 0, 0, 0⟩
  ddr := []
  coreSel := 0
  qps := []
  slab := SlabState.reset
  serv := Serving.reset
  text := TextState.reset

end Sys2Proof.Machine
end

