-- ==== Sys2Proof/Machine/Params.lean ====
section
/-! DEFINITION. The parameters of every block: ranges, defaults and change codes (02 R53; 03 R63; 04 R128; 05 R180; 06 R206;
09 R279; 10 R322; 11 R352; 12 R383; 13 R428; 14 R462; 15 R499; 16 R523; 17 R558), and the variant's figures (00 R1). -/
namespace Sys2Proof.Machine

/-! ### The variant -/

def Variant.code : Variant → Nat
  | .kd96x4 => 0x04
  | .kd96x4m => 0x14
  | .kd96x2 => 0x02

def Variant.half (v : Variant) : Bool := v == .kd96x2
def Variant.stackDies (v : Variant) : Nat := if v.half then 2 else 4
def Variant.clusters (v : Variant) : Nat := if v.half then 8 else 16
def Variant.cores (v : Variant) : Nat := 8 * v.clusters
def Variant.rxPorts (v : Variant) : Nat := if v.half then 3 else 6
def Variant.txPorts (v : Variant) : Nat := if v.half then 1 else 2
def Variant.ioDies (v : Variant) : Nat := if v.half then 1 else 2
def Variant.ddrGroups (v : Variant) : Nat := if v.half then 1 else 2
def Variant.scratchBytes (v : Variant) : Nat := if v == .kd96x4m then 6291456 else 3145728

/-- CMD_PART_ID and parameter 0x0A00_0001 (00 R3, R9). -/
def partId (v : Variant) : Nat := 0x96 * 2 ^ 24 + v.code * 2 ^ 16 + 0x10 * 2 ^ 8

/-! ### Parameter tables -/

/-- Change codes (13 R405; 03 R63; 15 R499; 17 R558). -/
inductive Change where
  | ro | c | z | s | b | e | p | t
deriving DecidableEq, Repr

/-- The values that a parameter takes whatever the others hold. -/
inductive Range where
  | span (lo hi : Nat)
  | oneOf (l : List Nat)
  /-- From lo to hi, a multiple of m. -/
  | step (lo hi m : Nat)
  /-- 0, or from lo to hi, a multiple of m. -/
  | zeroOr (lo hi m : Nat)
  /-- A 32-bit two's complement number from lo to hi. -/
  | signed (lo hi : Int)
  /-- A span, or one further value. -/
  | spanOr (lo hi x : Nat)
deriving DecidableEq, Repr

def Range.ok : Range → Nat → Bool
  | .span lo hi, v => decide (lo ≤ v) && decide (v ≤ hi)
  | .oneOf l, v => l.contains v
  | .step lo hi m, v => decide (lo ≤ v) && decide (v ≤ hi) && v % m == 0
  | .zeroOr lo hi m, v => v == 0 || (decide (lo ≤ v) && decide (v ≤ hi) && v % m == 0)
  | .signed lo hi, v => decide (lo ≤ sext 32 v) && decide (sext 32 v ≤ hi)
  | .spanOr lo hi x, v => v == x || (decide (lo ≤ v) && decide (v ≤ hi))

/-- A parameter: bytes of its value, change code, range, default, and the status of a write out of range. -/
structure ParamInfo where
  width : Nat
  change : Change
  range : Range
  dflt : Nat
  status : Nat
deriving DecidableEq, Repr

/-- What an ID names (13 R403; 00 R4). -/
inductive ParamLook where
  | unknown
  | absent (status : Nat)
  | known (i : ParamInfo)
deriving DecidableEq, Repr

/-- An entry of a table of parameters: number, width, change code, range, default. -/
abbrev Row := Nat × Nat × Change × Range × Nat

def ro (n : Nat) : Row := (n, 4, .ro, .span 0 0, 0)
def ro8 (n : Nat) : Row := (n, 8, .ro, .span 0 0, 0)
def chan (n : Nat) (ch : Change) : Row := (n, 4, ch, .span 0 31, 0)
def mask (n dflt : Nat) (ch : Change) : Row := (n, 4, ch, .span 0 max32, dflt)

/-- The parameter of number `n` in a table. -/
def row (t : List Row) (status n : Nat) : ParamLook :=
  match t.find? (fun r => r.1 == n) with
  | none => .unknown
  | some (_, w, ch, r, d) => .known ⟨w, ch, r, d, status⟩

/-- The width of a stream, as EDGE_X1 and CROP_W take it: PIXELS, or the width in force (03 R562). -/
def widthOf (s : State) (k : Nat) : Nat :=
  let p := Tab.get s.cmd.inForce (0x02000006 + k * 0x10000) 0
  if p = 0 then (nth s.intk.streams k Stream.reset).pixels else p

def timeRows : List Row :=
  [ro8 0x01, (0x10, 4, .e, .span 512 3072, 2048), ro 0x11, ro 0x12, ro 0x13, ro8 0x20, ro8 0x21, ro8 0x22]

def intkPortRows : List Row :=
  [(0x01, 4, .c, .oneOf [1, 2, 4], 4), (0x02, 4, .c, .span 80 4500, 4500)]

/-- Stream parameters of intake (03 R63); `k` is the stream and `w` its width. -/
def intkRows (v : Variant) (k w nom : Nat) : List Row :=
  [(0x00, 4, .c, .span 0 2, 0),
   (0x01, 4, .c, .span 0 (v.rxPorts - 1), if v.half then k / 4 else k / 2),
   (0x02, 4, .c, .span 0 15, if v.half then k % 4 else k % 2),
   (0x03, 4, .c, .oneOf [0x24, 0x2A, 0x2B, 0x2C, 0x2D, 0x2E], 0x2B),
   (0x04, 4, .c, .span 1 4, 3),
   (0x05, 4, .c, .span 0 2, 1),
   (0x06, 4, .c, .zeroOr 64 16384 8, 0),
   (0x10, 4, .c, .zeroOr 4000 10000000 1, 0),
   (0x11, 4, .c, .spanOr 0 15 0xFF, 0xFF),
   (0x12, 4, .c, .span 100 10000, 1000),
   (0x13, 4, .c, .span 0 6, 0),
   (0x14, 4, .c, .spanOr 0 15 0xFF, 0xFF),
   (0x15, 4, .c, .span 0 100000, 500),
   (0x20, 4, .c, .span 0 2, 0),
   (0x21, 4, .c, .span 1000 20000000, 1000000),
   (0x22, 4, .c, .span 1000 20000000, nom),
   (0x23, 4, .c, .spanOr 0 15 0xFF, 0xFF),
   (0x24, 4, .c, .span 1 1000000, 100),
   (0x30, 4, .s, .span 0 4, 4),
   (0x31, 4, .s, .span 0 16383, 0),
   (0x32, 4, .s, .span 0 16383, w - 1),
   (0x33, 4, .s, .span 1 255, 24),
   (0x34, 4, .s, .span 1 16384, 64),
   (0x35, 4, .s, .span 2 16, 4),
   (0x36, 4, .s, .spanOr 0x100 0x1FF 0, 0),
   (0x40, 4, .c, .span 256 65535, 8192),
   (0x41, 4, .c, .span 1024 65536, 16384),
   (0x42, 4, .c, .span 0 1, 0),
   (0x43, 4, .s, .span 0 255, 8),
   (0x44, 4, .s, .span 1 16, 3),
   chan 0x45 .s, mask 0x46 0xC0 .s,
   ro 0x80, ro 0x81, ro 0x82, ro 0x83, ro 0x84, ro 0x85]

def intkChanRows : List Row :=
  [(0x0, 4, .c, .span 0 1024, 0), (0x1, 4, .s, .signed (-32768) 32767, 0),
   (0x2, 4, .s, .span 0 0xFFFF, 0x1000), (0x3, 4, .s, .span 0 1, 0)]

def intkStrobeRows : List Row :=
  [(0x0, 4, .c, .spanOr 0 15 0xFF, 0xFF), (0x1, 4, .c, .span 0 10000000, 0),
   (0x2, 4, .c, .span 100 1000000, 10000), (0x3, 4, .c, .span 0 1, 1)]

/-- Stream parameters of preparation (04 R128). -/
def prepRows (w clusters allClusters : Nat) : List Row :=
  [(0x00, 4, .s, .span 0 1, 1), (0x01, 4, .s, .span 0 1, 0), (0x02, 4, .s, .span 0 16384, 0),
   (0x03, 4, .s, .span 64 16384, w), (0x04, 4, .s, .span 0 255, 255), (0x05, 4, .s, .span 1 5, 5),
   (0x06, 4, .c, .span 2 8, 3), (0x07, 4, .c, .span 1 allClusters, clusters),
   (0x08, 4, .s, .span 0 2, 1), (0x10, 4, .s, .span 0 3, 0), (0x11, 4, .s, .span 128 255, 192),
   (0x12, 4, .s, .span 0 1024, 64), (0x13, 4, .s, .span 1 255, 16), (0x20, 4, .c, .span 0 1, 0),
   (0x21, 8, .s, .span 1000000 10000000000, 50000000), (0x30, 4, .s, .span 0 3, 0),
   (0x31, 4, .s, .span 1000000 1000000000, 40000000), (0x40, 4, .s, .span 0 255, 2),
   chan 0x41 .s, mask 0x42 0x40 .s,
   ro 0x80, ro 0x81, ro 0x82, ro 0x83, ro 0x84, ro 0x85, ro 0x86]

def prepClassRows (bMax : Nat) : List Row :=
  [(0x00, 4, .b, .span 1 bMax, bMax), ro 0x01, ro 0x02, ro 0x03, ro 0x04, ro 0x05, ro 0x10, ro 0x11, ro 0x12]

def prepDevRows : List Row := [(0x01, 4, .s, .zeroOr 1000000 1000000000 1, 5000000), ro 0x02]

def coreRows (v : Variant) : List Row :=
  [(0x01, 4, .e, if v.half then .span 6400 51200 else .span 12800 102400, if v.half then 25600 else 51200),
   (0x02, 4, .e, .span 1024 16383, 16128), (0x03, 4, .e, .span 0 1024, 256),
   ro 0x10, ro 0x11, ro8 0x12, ro 0x13, chan 0x20 .e]

def coreClusterRows : List Row := [ro 0x00, ro 0x01, ro 0x02, ro 0x03]

def slabRows (slotBytes : Nat) : List Row :=
  [(0x01, 8, .z, .step 0 (2 ^ 40 - 1) (if slotBytes = 0 then 1 else slotBytes), Config.poolBase),
   (0x02, 8, .z, .span slotBytes (2 ^ 22 * slotBytes), Config.poolBytes),
   (0x03, 8, .z, .step 0 (2 ^ 40 - 1) 64, Config.tableBase),
   (0x04, 4, .z, .span 16 65536, 16384), (0x05, 4, .z, .span 1024 16383, 14080),
   (0x06, 4, .z, .span 0 8192, 2048), (0x07, 4, .z, .step 0 2048 64, 512),
   (0x08, 4, .e, .span 0 1, 1), (0x09, 4, .e, .span 2 65535, 2), (0x0A, 4, .e, .span 0 65535, 256),
   chan 0x0B .e, mask 0x0C 4 .e, ro 0x0D,
   ro 0x80, ro 0x81, ro 0x82, ro 0x83, ro 0x84, ro 0x85, ro 0x86]

def servRows : List Row :=
  [chan 0x01 .e, mask 0x02 0x22 .e, (0x03, 4, .e, .span 2 64, 8), (0x04, 4, .e, .span 4 1024, 16),
   (0x05, 4, .e, .span 15 1023, 255), (0x06, 4, .e, .span 0 6, 1), (0x07, 4, .e, .span 0 1024, 64),
   (0x08, 8, .e, .span 150000000 60000000000, 1000000000), (0x09, 4, .e, .span 1 8, 6),
   (0x0A, 4, .e, .span 0 100, 10),
   ro 0x80, ro 0x81, ro 0x82, ro 0x83, ro 0x84, ro 0x85, ro 0x86]

def servJobRows (j : JobDecl) : List Row :=
  [ro 0x00, ro 0x01, (0x02, 4, .e, .span 0 7, j.priority),
   (0x03, 4, .e, .span 100000 100000000, j.stepPeriod),
   (0x04, 4, .e, if j.kind = 2 then .span 1 1 else .span 1 4, j.maxInflight)]
  ++ (if j.kind = 2 then
    [(0x10, 4, .e, .span 1 4, j.candidates), (0x11, 4, .e, .step 16 4096 16, j.stepRows),
     (0x12, 4, .e, .step 0 8192 16, j.seedRows), (0x13, 4, .e, .step 16 1024 16, j.chunk)]
   else
    [(0x10, 4, .e, .oneOf [], 0), (0x11, 4, .e, .oneOf [], 0), (0x12, 4, .e, .oneOf [], 0), (0x13, 4, .e, .oneOf [], 0)])
  ++ [ro 0x14, ro 0x20, ro 0x21, ro 0x22, ro 0x23, ro 0x24, ro 0x25, ro 0x26, ro 0x27, ro 0x30, ro 0x31, ro 0x32]

def textRows : List Row :=
  [(0x01, 4, .c, .step 0 2048 64, 512), ro 0x10, ro 0x11, ro 0x12, ro 0x13,
   ro 0x80, ro 0x81, ro 0x82, ro 0x83, ro 0x84, ro 0x85]

def outRows (v : Variant) (k : Nat) : List Row :=
  [(0x00, 4, .c, .span 0 (v.txPorts - 1), 0), (0x01, 4, .c, .span 0 15, 0),
   (0x02, 4, .c, .span 0 (v.txPorts - 1), 0), (0x03, 4, .c, .span 0 15, 4 + k),
   (0x04, 4, .s, .step 0 0x3F8 8, 0x2B8), (0x05, 4, .s, .span 1 4, 4), (0x06, 4, .s, .span 16 1024, 256),
   (0x07, 4, .s, .span 0 1, 1)]

def outPortRows : List Row :=
  [(0x01, 4, .c, .oneOf [1, 2, 4], 4), (0x02, 4, .c, .span 80 4500, 4500), (0x03, 4, .c, .span 0 1, 0),
   (0x04, 4, .e, .step 1024 32768 64, 8192), (0x05, 4, .c, .span 0 15, 3), ro8 0x80, ro 0x81, ro8 0x82]

def outDevRows (ring : Nat) : List Row :=
  [(0x01, 8, .z, .step 0 (2 ^ 40 - 1) 4096, Config.ringBase), (0x02, 8, .z, .step (2 ^ 28) (2 ^ 36) (2 ^ 20), 2 ^ 32),
   (0x03, 8, .e, .span (2 ^ 26) (2 ^ 36), ring / 2), (0x04, 8, .e, .span 0 (2 ^ 36), ring / 4),
   (0x05, 8, .e, .span (2 ^ 26) (2 ^ 30), 2 ^ 28), chan 0x06 .e, mask 0x07 0x26 .e,
   ro8 0x80, ro 0x81, ro 0x82, ro 0x83, ro 0x84, ro 0x85]

def cmdRows : List Row :=
  [ro 0x01, ro 0x02, ro 0x03, (0x10, 4, .e, .span 1000000 1000000000, 100000000),
   (0x11, 4, .e, .span 10000 10000000, 100000), chan 0x12 .e, mask 0x13 0xE .e, ro 0x20,
   ro 0x80, ro 0x81, ro 0x82, ro 0x83, ro 0x84]

def pwrRows (v : Variant) : List Row :=
  let h := v.half
  [(0x01, 4, .e, .span 64 (if h then 480 else 960), if h then 440 else 880),
   (0x02, 4, .e, .span 32 256, match v with | .kd96x4 => 96 | .kd96x4m => 128 | .kd96x2 => 48),
   (0x03, 4, .e, .span 64 256, if h then 96 else 160),
   (0x04, 4, .e, .span (if h then 64 else 128) (if h then 480 else 960), if h then 440 else 880),
   (0x05, 4, .e, .span 0 100000000, 500000), (0x06, 4, .e, .span 0 1, 1),
   (0x07, 8, .e, .span 1000000 3600000000000, 1000000000), (0x08, 4, .e, .zeroOr 1000 10000000 1, 0),
   (0x09, 4, .e, .span 0 6, 6), (0x0A, 4, .e, .span 85 110, 100), (0x0B, 4, .e, .span 20 100, 40),
   chan 0x0C .e, mask 0x0D 0x72 .e, ro 0x80, ro8 0x81, ro 0x82, ro 0x83, ro 0x84, ro 0x85]

def pwrClusterRows : List Row :=
  [(0x00, 4, .e, .span 0 6, 0), ro 0x01, ro 0x10, ro 0x11, ro 0x12, ro 0x13, ro 0x14, ro 0x15, ro 0x16,
   ro 0x20, ro 0x21, ro 0x22, ro 0x23, ro 0x24, ro 0x25, ro 0x26]

def fltRows (v : Variant) : List Row :=
  [(0x01, 4, .e, .span 0 0xFF, 0), (0x02, 4, .e, .span 1 168, 24), (0x03, 4, .e, .span 1 65535, 16),
   chan 0x04 .e, mask 0x05 0xE .e, (0x10, 4, .t, .span 0 1, 0), (0x11, 4, .t, .span 0 1, 0),
   (0x12, 4, .t, .span 0 (v.rxPorts - 1), v.rxPorts - 1), (0x13, 4, .t, .span 0 15, 15),
   (0x14, 4, .t, .span 0 15, if v.half then 1 else 0), (0x15, 4, .t, .span 50000 10000000, 100000),
   (0x16, 4, .t, .span 2 16, 3), (0x17, 4, .e, .span 100000 5000000, 2000000),
   (0x18, 4, .t, .span 16 1024, 256), (0x19, 4, .e, .span 0 1, 0), (0x1A, 4, .e, .span 0 1, 1),
   ro 0x80, ro 0x81, ro 0x82, ro 0x83, ro 0x84, ro 0x85]

def secRows : List Row :=
  [ro 0x01, ro8 0x02, ro 0x03, ro 0x04, (0x05, 4, .e, .span 0 1, 0), chan 0x06 .e, mask 0x07 0xE .e, ro8 0x08]

def pinRows : List Row :=
  [(0x00, 4, .p, .span 0 5, 0), (0x01, 4, .p, .span 0 1, 0), (0x02, 4, .e, .span 0 2, 1),
   (0x03, 4, .e, .span 0 255, 0), (0x04, 4, .e, .span 0 2, 1), ro 0x80]

def pinDevRows : List Row := [chan 0x01 .e, mask 0x02 2 .e, (0x03, 4, .e, .span 0 255, 10), ro 0x80]

/-- SPEED_NOM of a stream, which is the default of its SPEED_MIN. -/
def nomOf (s : State) (k : Nat) : Nat := Tab.get s.cmd.inForce (0x02000021 + k * 0x10000) 1000000

/-- What a parameter ID names. -/
def paramInfo (s : State) (id : Nat) : ParamLook :=
  let v := s.variant
  let low := id % 0x1000000
  let hi := low / 0x10000
  let mid := low / 0x100 % 0x100
  let n := low % 0x100
  match id / 0x1000000 with
  | 0x01 => if low < 0x100 then row timeRows 0x0111 low else .unknown
  | 0x02 =>
    if hi = 0xF0 then
      if mid < v.rxPorts then row intkPortRows 0x0120 n
      else if mid < 6 then (match row intkPortRows 0x0120 n with | .known _ => .absent 0x0120 | x => x) else .unknown
    else if hi < 12 then
      if mid = 0 then row (intkRows v hi (widthOf s hi) (nomOf s hi)) 0x0120 n
      else if mid = 1 ∧ n < 0x40 then row intkChanRows 0x0120 (n % 0x10)
      else if mid = 2 ∧ n < 0x40 then row intkStrobeRows 0x0120 (n % 0x10)
      else .unknown
    else .unknown
  | 0x03 =>
    if hi < 12 ∧ mid = 0 then
      row (prepRows (widthOf s hi) ((s.image.map Image.prepClusters).getD 1) (2 ^ v.clusters - 1)) 0x0130 n
    else if hi = 0x40 ∧ mid < 16 then
      match s.image.bind (fun i => Tab.find i.classes mid) with
      | some c => row (prepClassRows c.bMax) 0x0130 n
      | none => (match row (prepClassRows 1) 0x0130 n with | .known _ => .absent 0x0130 | x => x)
    else if hi = 0xF0 ∧ mid = 0 then row prepDevRows 0x0130 n
    else .unknown
  | 0x04 =>
    if low < 0x100 then row (coreRows v) 0x0140 low
    else if hi = 0x10 ∧ mid < 16 then
      if mid < v.clusters then row coreClusterRows 0x0140 n
      else (match row coreClusterRows 0x0140 n with | .known _ => .absent 0x0140 | x => x)
    else .unknown
  | 0x06 => if low < 0x100 then row (slabRows ((s.image.map Image.slotBytes).getD 0)) 0x0160 low else .unknown
  | 0x07 =>
    if low < 0x100 then row servRows 0x0170 low
    else if hi = 0x10 ∧ mid < 16 then
      match s.image.bind (fun i => Tab.find i.jobs mid) with
      | some j => row (servJobRows j) 0x0170 n
      | none => (match row (servJobRows ⟨2, 0, 0, 0, 0, 0, 0, 0, 0, 0, none, false, [], 0⟩) 0x0170 n with | .known _ => .absent 0x0171 | x => x)
    else .unknown
  | 0x08 => if low < 0x100 then row textRows 0x0184 low else .unknown
  | 0x09 =>
    if hi < 12 ∧ mid = 0 then row (outRows v hi) 0x0190 n
    else if hi = 0xE0 ∧ mid < 2 then
      if mid < v.txPorts then row outPortRows 0x0190 n
      else (match row outPortRows 0x0190 n with | .known _ => .absent 0x0190 | x => x)
    else if hi = 0xF0 ∧ mid = 0 then row (outDevRows (Tab.get s.cmd.inForce 0x09F00002 (2 ^ 32))) 0x0190 n
    else .unknown
  | 0x0A => if low < 0x100 then row cmdRows 0x01A8 low else .unknown
  | 0x0B =>
    if low < 0x100 then row (pwrRows v) 0x01B0 low
    else if hi = 0x10 ∧ mid < 16 then
      if mid < v.clusters then row pwrClusterRows 0x01B0 n
      else (match row pwrClusterRows 0x01B0 n with | .known _ => .absent 0x01B0 | x => x)
    else .unknown
  | 0x0C => if low < 0x100 then row (fltRows v) 0x01C0 low else .unknown
  | 0x0D => if low < 0x100 then row secRows 0x01D0 low else .unknown
  | 0x0E =>
    if hi = 0 ∧ mid < 16 then row pinRows 0x01E0 n
    else if hi = 0xF0 ∧ mid = 0 then row pinDevRows 0x01E0 n
    else .unknown
  | _ => .unknown

/-- The default of a parameter. -/
def paramDefault (s : State) (id : Nat) : Nat :=
  match paramInfo s id with
  | .known i => i.dflt
  | _ => 0

/-- The value that is in force. -/
def par (s : State) (id : Nat) : Nat :=
  match Tab.find s.cmd.inForce id with
  | some v => v
  | none => paramDefault s id

/-- The value of the latest posted epoch. -/
def posted (s : State) (id : Nat) : Nat :=
  match Tab.find s.cmd.posted id with
  | some v => v
  | none => paramDefault s id

/-- The value that a job adopted at its last build (10 R321). -/
def jpar (s : State) (j id : Nat) : Nat := Tab.get (nth s.cmd.jobParams j []) id (paramDefault s id)
/-- A parameter of a job, under the job's own epoch. -/
def jobPar (s : State) (j n : Nat) : Nat := jpar s j (0x07100000 + j * 0x100 + n)

/-- Stream parameters in force, by block. -/
def ipar (s : State) (k n : Nat) : Nat := par s (0x02000000 + k * 0x10000 + n)
def ppar (s : State) (k n : Nat) : Nat := par s (0x03000000 + k * 0x10000 + n)
def opar (s : State) (k n : Nat) : Nat := par s (0x09000000 + k * 0x10000 + n)

end Sys2Proof.Machine
end

