-- ==== Sys2Proof/Machine/Ops.lean ====
section
/-! DEFINITION. The named operations that every block shares: time, free values, messages, interrupts, ledger and slots. -/
namespace Sys2Proof.Machine

/-! ### Time -/

/-- A stamp: TB, or 0 while TB_VALID is 0 (02 R56). -/
def stamp (s : State) : Nat := if s.clk.tbValid then s.clk.tb else 0

/-- Pulses on pins that have ended by `t` (17 R539; 15 R489). -/
def Pins.settle (t : Nat) (p : Pins) : Pins :=
  { p with
    levels := (p.pulses.filter (fun q => decide (q.ends ≤ t))).foldl (fun l q => setNth l q.pin q.level) p.levels
    pulses := p.pulses.filter (fun q => decide (t < q.ends))
    hbOut := p.hbOut && (match p.hbEnds with | some e => decide (t < e) | none => true) }

/-- TB and what runs with it, `dt` ns later (02 R18, R24; 12 R383; 14 R462): the time common to every command. -/
def advance (dt : Nat) (s : State) : State :=
  if s.clk.tbRun then
    { s with
      clk := { s.clk with tb := s.clk.tb + dt }
      pwr := { s.pwr with poweredNs := s.pwr.poweredNs + dt, poweredTotal := s.pwr.poweredTotal + dt }
      out := if s.out.hold.isSome then
          { s.out with ports := s.out.ports.map (fun p => { p with holdNs := p.holdNs + dt }) } else s.out
      pins := Pins.settle (s.clk.tb + dt) s.pins }
  else s

/-- The next value that the spec leaves open: its number, and the state with the number taken (log 2). -/
def draw (s : State) : Nat × State := (s.freeCtr, { s with freeCtr := s.freeCtr + 1 })

/-- Every clock runs: the part is neither frozen nor asleep nor off. -/
def awake (s : State) : Bool := s.clk.tbRun && !s.flt.frozen

/-- A recovery is in progress at the present TB (15 R473). -/
def recovering (s : State) : Bool := s.flt.recovery.isSome

/-! ### In-band interrupts (13 R401) -/

/-- A cause arises: one outstanding request for each cause and channel. -/
def raiseIbi (mdb chan info : Nat) (s : State) : State :=
  if s.cmd.ibis.any (fun i => i.mdb == mdb && i.chan == chan) then s
  else { s with cmd := { s.cmd with ibis := s.cmd.ibis ++ [⟨mdb, chan, info, false, none⟩] } }

/-- A cause is re-armed. -/
def rearmIbi (mdb chan : Nat) (s : State) : State :=
  { s with cmd := { s.cmd with ibis := s.cmd.ibis.filter (fun i => !(i.mdb == mdb && i.chan == chan)) } }

/-! ### Mailboxes (13 R417 to R424) -/

/-- The channel's state. -/
def chanAt (s : State) (c : Nat) : Channel := nth s.cmd.chans c Channel.reset

/-- The state with a channel changed. -/
def modChan (c : Nat) (f : Channel → Channel) (s : State) : State :=
  { s with cmd := { s.cmd with chans := modNth s.cmd.chans c f } }

/-- The ACL bit of a stamped sender (13 R417). -/
def aclBit (sender : Nat) : Option Nat :=
  if sender = 0x01 then some 0
  else if sender = 0x02 then some 1
  else if 0x10 ≤ sender ∧ sender ≤ 0x16 then some (4 + (sender - 0x10))
  else if sender = 0x18 then some 12
  else if 0x20 ≤ sender ∧ sender ≤ 0x2F then some (16 + (sender - 0x20))
  else none

/-- The sender is in the channel's ACL, and the channel is enabled (13 R420). -/
def allowed (s : State) (c sender : Nat) : Bool :=
  let ch := chanAt s c
  decide (c < 32) && ch.receiver != 0 && (match aclBit sender with | some b => bit ch.acl b | none => false)

/-- The owner channel of a sender (13 R426). -/
def ownerChannel (sender : Nat) : Nat :=
  if sender = 0x01 then 1
  else if 0x10 ≤ sender ∧ sender ≤ 0x13 then 8 + (sender - 0x10)
  else if sender = 0x18 then 12
  else if 0x20 ≤ sender ∧ sender ≤ 0x2F then 13 + (sender - 0x20)
  else 0

/-- A DEADLINE of awaited kind 2 that the message answers (13 R421). -/
def awaitsMessage (sl : Slot) (c sender : Nat) : Bool :=
  sl.cls == 0x06 && sl.index == 2 && sl.arrival.isNone && sl.arg0 % 0x100 == c
    && (sl.arg0 / 0x100 % 0x100 == 0 || sl.arg0 / 0x100 % 0x100 == sender)

/-- The state with every slot changed. -/
def mapSlots (f : Slot → Slot) (s : State) : State :=
  { s with fc := { s.fc with slots := s.fc.slots.map (fun e => (e.1, f e.2)) } }

/-- A message enters its channel's queue (13 R421). -/
def deliver (c sender : Nat) (body : Bytes) (s : State) : State :=
  let ch := chanAt s c
  let m : Message := ⟨sender, sat 0xFFFF ch.lost, ch.seq + 1, stamp s, fit 64 body⟩
  let s := modChan c (fun ch => { ch with queue := ch.queue ++ [m], lost := 0, seq := ch.seq + 1 }) s
  let s := mapSlots (fun sl => if awaitsMessage sl c sender then { sl with arrival := some (stamp s) } else sl) s
  if ch.ibi && ch.receiver == 0x01 then raiseIbi 0x02 c (sat 0xFF (ch.queue.length + 1)) s else s

/-- A denied send (13 R420): counted on the channel and since boot. -/
def countDenied (c : Nat) (s : State) : State :=
  let s := modChan c (fun ch => { ch with denied := inc32 ch.denied 1, deniedRc := sat 0xFF (ch.deniedRc + 1) }) s
  { s with cmd := { s.cmd with deniedCount := inc32 s.cmd.deniedCount 1 } }

/-- A message that finds its channel full and is not held (13 R422). -/
def countLost (c : Nat) (s : State) : State :=
  let s := modChan c (fun ch => { ch with lost := sat 0xFFFF (ch.lost + 1), lostRc := sat 0xFF (ch.lostRc + 1), fullSent := true }) s
  { s with cmd := { s.cmd with lostCount := inc32 s.cmd.lostCount 1 } }

/-- A send without the reports of R420 and R422; `holds` says that the sender waits for room. -/
def postQuiet (c sender : Nat) (holds : Bool) (body : Bytes) (s : State) : State :=
  if !allowed s c sender then countDenied c s
  else if s.cmd.waiting.any (fun w => w.chan == c) && holds then
    { s with cmd := { s.cmd with waiting := s.cmd.waiting ++ [⟨c, sender, body⟩] } }
  else if (chanAt s c).queue.length < (chanAt s c).depth then deliver c sender body s
  else if holds then { s with cmd := { s.cmd with waiting := s.cmd.waiting ++ [⟨c, sender, body⟩] } }
  else countLost c s

/-- The body of a CMD event (13 R429). -/
def cmdEventBody (ev chan sender epoch st changed count : Nat) : Bytes :=
  pack [(1, ev), (1, chan), (1, sender), (1, 0), (4, epoch), (8, st), (4, changed), (4, count)] ++ zeros 40

/-- A CMD event, sent by firmware on control core 0x10 (13 R419, R429): events 2, 3 and 5 always, the others when enabled. -/
def cmdEvent (ev chan sender epoch changed count : Nat) (s : State) : State :=
  if ev == 2 || ev == 3 || ev == 5 || bit (par s 0x0A000013) ev then
    postQuiet (par s 0x0A000012) 0x10 true (cmdEventBody ev chan sender epoch (stamp s) changed count) s
  else s

/-- A send by a unit, a core or firmware (13 R420 to R422). -/
def post (c sender : Nat) (holds : Bool) (body : Bytes) (s : State) : State :=
  if !allowed s c sender then
    let s := countDenied c s
    if c = par s 0x0A000012 then s else cmdEvent 4 c sender 0 0 0 s
  else if !holds && decide ((chanAt s c).depth ≤ (chanAt s c).queue.length) then
    let first := !(chanAt s c).fullSent
    let s := countLost c s
    if first then cmdEvent 5 c sender 0 0 (chanAt s c).lost s else s
  else postQuiet c sender holds body s

/-- Messages whose senders wait enter a channel that has room, in the order sent (13 R421, R422). -/
def admitMessages : Nat → Nat → State → State
  | 0, _, s => s
  | n + 1, c, s =>
    if (chanAt s c).queue.length < (chanAt s c).depth then
      match s.cmd.waiting.find? (fun w => w.chan == c) with
      | some w =>
        let s := { s with cmd := { s.cmd with waiting := s.cmd.waiting.erase w } }
        admitMessages n c (deliver c w.sender w.body s)
      | none => s
    else s

/-- A channel has been given room: the next fill is reported again, and waiting messages enter. -/
def roomMade (c : Nat) (s : State) : State :=
  admitMessages 64 c (modChan c (fun ch => { ch with fullSent := false }) s)

/-- An event of a block: on the channel and under the mask of the parameters named, or always. -/
def report (sender : Nat) (holds : Bool) (chanPar maskPar : Nat) (always : Bool) (ev : Nat) (body : Bytes) (s : State) : State :=
  if always || bit (par s maskPar) ev then post (par s chanPar) sender holds body s else s

/-- The 64-byte layout of 14 R463, which FLT, SEC and PIN events share. -/
def pwrBody (ev arg status value st : Nat) (rec : Bytes) : Bytes :=
  pack [(1, ev), (1, arg), (2, status), (4, value), (8, st)] ++ fit 48 rec

/-- PWR events (14 R463): 2 and 3 always. -/
def pwrEvent (ev arg value : Nat) (rec : Bytes) (s : State) : State :=
  report 0x10 true 0x0B00000C 0x0B00000D (ev == 2 || ev == 3) ev (pwrBody ev arg 0 value (stamp s) rec) s

/-- An event in the layout of 14 R463 whose ARG and VALUE the spec does not state: they are free (log 2). -/
def openEvent (sender chanPar maskPar : Nat) (always : Bool) (ev status : Nat) (s : State) : State :=
  let a := draw s
  let v := draw a.2
  report sender true chanPar maskPar always ev (pwrBody ev (Config.freeNat a.1) status (Config.freeNat v.1) (stamp s) []) v.2

/-- FLT events (15 R499): 1 and 4 always. -/
def fltEvent (ev status : Nat) (s : State) : State := openEvent 0x10 0x0C000004 0x0C000005 (ev == 1 || ev == 4) ev status s

/-- SEC events (16 R523), from the security core: 4 and 5 always. -/
def secEvent (ev status : Nat) (s : State) : State := openEvent 0x18 0x0D000006 0x0D000007 (ev == 4 || ev == 5) ev status s

/-- PIN events (17 R559): 2 and 3 always. -/
def pinEvent (ev arg value : Nat) (s : State) : State :=
  report 0x10 true 0x0EF00001 0x0EF00002 (ev == 2 || ev == 3) ev (pwrBody ev arg 0 value (stamp s) []) s

/-- What an event of R324 says beside its number. -/
structure ServNote where
  job : Nat := 0
  status : Nat := 0
  step : Nat := 0
  at_ : Nat := 0
  sheet : Nat := 0
  region : Nat := 0xFFFF
  bucket : Nat := 0xFF
  cause : Nat := 0
  used : Nat := 0
  tokens : Nat := 0
  cores : Nat := 0
  bytes : Nat := 0
  duration : Nat := 0

/-- A SERV event: 2, 3 and 4 always. -/
def servEvent (ev : Nat) (e : ServNote) (s : State) : State :=
  report 0x10 true 0x07000001 0x07000002 (ev == 2 || ev == 3 || ev == 4) ev
    (fit 64 (pack [(1, ev), (1, e.job), (2, e.status), (4, e.step), (8, e.at_), (4, e.sheet), (2, e.region), (1, e.bucket), (1, e.cause),
      (4, e.used), (4, e.tokens), (16, e.cores), (4, e.bytes), (4, e.duration)])) s

/-! ### The current ledger (14 R445) -/

/-- Units admitted on a rail. -/
def admitted (s : State) (rail : Nat) : Nat :=
  (s.pwr.charges.filter (fun c => c.rail == rail)).foldl (fun n c => n + c.units) 0

/-- Units of admitted VDD_CORE charges whose shares still wait for their grant. -/
def ungranted (s : State) : Nat := s.pwr.shares.foldl (fun n x => n + x.units) 0

/-- The budget of a rail in effect. -/
def budget (s : State) (rail : Nat) : Nat := nth s.pwr.budgets (rail - 1) 0

/-- A charge fits the free budget of its rail. -/
def fits (s : State) (rail units : Nat) : Bool :=
  decide (admitted s rail + (if rail = 1 then ungranted s else 0) + units ≤ budget s rail)

/-- A charge is taken. -/
def hold (rail units : Nat) (h : Holder) (s : State) : State :=
  if units = 0 then s else { s with pwr := { s.pwr with charges := s.pwr.charges ++ [⟨rail, units, h⟩] } }

/-- What a holder holds is given back (on a rail other than VDD_CORE, whose returns are staged). -/
def giveBack (h : Holder) (s : State) : State :=
  { s with pwr := { s.pwr with charges := s.pwr.charges.filter (fun c => c.holder != h) } }

/-- A holder holds a charge. -/
def holds (s : State) (h : Holder) : Bool := s.pwr.charges.any (fun c => c.holder == h)

/-! ### Forecast slots (02 R29 to R33) -/

/-- The streams that are open. -/
def openStreams (s : State) : List Nat :=
  (List.range 12).filter (fun k => (nth s.intk.streams k Stream.reset).state != 0)

def poolUsed (s : State) (p : Pool) : Nat := (s.fc.slots.filter (fun e => e.2.pool == p)).length

/-- The size of a pool (02 R29). -/
def poolSize (s : State) : Pool → Nat
  | .housekeeping => 64
  | .intake => 33 * (openStreams s).length
  | .serving => par s 0x01000010
  | .host => 4096 - 64 - 33 * (openStreams s).length - par s 0x01000010

def slotAt (s : State) (n : Nat) : Option Slot := Tab.find s.fc.slots n

def modSlot (n : Nat) (f : Slot → Slot) (s : State) : State :=
  { s with fc := { s.fc with slots := s.fc.slots.map (fun e => if e.1 = n then (n, f e.2) else e) } }

def freeSlot (n : Nat) (s : State) : State :=
  { s with fc := { s.fc with slots := Tab.erase s.fc.slots n } }

/-- The slots with a given use. -/
def slotsFor (s : State) (u : SlotUse) : List Nat := (s.fc.slots.filter (fun e => e.2.use == u)).map Prod.fst

/-- A fresh slot record: waiting, admitted now. -/
def newSlot (s : State) (due cls index owner arg0 arg1 : Nat) (p : Pool) (u : SlotUse) : Slot where
  due := due
  period := 0
  count := 0
  cls := cls
  notify := false
  index := index
  owner := owner
  state := 1
  arg0 := arg0
  arg1 := arg1
  charge := 0
  rail := 0
  late := 0
  pool := p
  use := u
  k := 0
  admitted := stamp s
  asked := 0
  handed := 0
  arrival := none
  burst := 0
  waitRail := 0
  reported := false
  last := false
  crowded := false

/-- The slot takes the lowest free number (log 7); nothing where none is free. -/
def addSlot (sl : Slot) (s : State) : State :=
  match Tab.free s.fc.slots 4096 with
  | some n => { s with fc := { s.fc with slots := Tab.set s.fc.slots n sl } }
  | none => s

/-- Every slot with a given use is freed. -/
def dropSlots (p : SlotUse → Bool) (s : State) : State :=
  { s with fc := { s.fc with slots := s.fc.slots.filter (fun e => !p e.2.use) } }

/-- The scheduled due time of the occurrence in progress (02 R41). -/
def Slot.now (sl : Slot) : Nat := sl.due + sl.k * sl.period

/-- A transmit port is named by an open stream, a mark slot or the twin (12 R382). -/
def portNamed (s : State) (p : Nat) : Bool :=
  (openStreams s).any (fun k => opar s k 0x00 == p || opar s k 0x02 == p)
    || s.fc.slots.any (fun e => e.2.cls == 0x0B && e.2.index == p)
    || (par s 0x0C000010 == 1 && p == (if s.variant.half then 0 else 1))

/-- The charge of each transmit port follows what names it (12 R382). -/
def refreshPorts (s : State) : State :=
  (List.range s.variant.txPorts).foldl (fun s p =>
    if portNamed s p then (if holds s (.outPort p) then s else hold 3 6 (.outPort p) s) else giveBack (.outPort p) s) s

/-! ### Cores, clusters, streams, sheets -/

def coreAt (s : State) (c : Nat) : Core := nth s.cores c Core.reset
def modCore (c : Nat) (f : Core → Core) (s : State) : State := { s with cores := modNth s.cores c f }
def modRegs (c : Nat) (f : CoreRegs → CoreRegs) (s : State) : State := modCore c (fun k => { k with r := f k.r }) s
def clusterAt (s : State) (c : Nat) : Cluster := nth s.clusters c ⟨[], [], 0⟩
def modCluster (c : Nat) (f : Cluster → Cluster) (s : State) : State := { s with clusters := modNth s.clusters c f }
def streamAt (s : State) (k : Nat) : Stream := nth s.intk.streams k Stream.reset
def modStream (k : Nat) (f : Stream → Stream) (s : State) : State :=
  { s with intk := { s.intk with streams := modNth s.intk.streams k f } }

def sheetAt (s : State) (id : Nat) : Option Sheet := s.prep.sheets.find? (fun h => h.id == id)
def modSheet (id : Nat) (f : Sheet → Sheet) (s : State) : State :=
  { s with prep := { s.prep with sheets := s.prep.sheets.map (fun h => if h.id = id then f h else h) } }

/-- A producer works on a side under an epoch (12 R362). -/
def noteEpoch (sheet block job epoch : Nat) (s : State) : State :=
  modSheet sheet (fun h =>
    match h.epochs.find? (fun e => e.1 == (block, job)) with
    | some e => { h with epochs := h.epochs.map (fun x => if x.1 = e.1 then (x.1, (Nat.min x.2.1 epoch, Nat.max x.2.2 epoch)) else x) }
    | none => { h with epochs := insertBy (fun e => e.1.1 * 256 + e.1.2) ((block, job), (epoch, epoch)) h.epochs }) s

end Sys2Proof.Machine
end

