-- ==== Sys2Proof/Machine/FaultOps.lean ====
section
/-! DEFINITION. Faults, the discard of work in flight, recovery and freeze as shared operations (15 R466 to R484; 17 R541). -/
namespace Sys2Proof.Machine

/-! ### Pins that a function drives (17 R541, R542) -/

def pinFunc (s : State) (p : Nat) : Nat := par s (0x0E000000 + p * 0x100)
def pinLow (s : State) (p : Nat) : Bool := par s (0x0E000001 + p * 0x100) == 1

/-- The strobe of an open stream that holds the pin, as (stream, strobe). -/
def strobeOf (s : State) (p : Nat) : Option (Nat × Nat) :=
  ((openStreams s).flatMap (fun k => (List.range 4).map (fun j => (k, j)))).find?
    (fun e => ipar s e.1 (0x200 + e.2 * 0x10) == p)

/-- The inactive level of an output pin (17 R541). -/
def inactiveLevel (s : State) (p : Nat) : Bool :=
  match strobeOf s p with
  | some (k, j) => ipar s k (0x203 + j * 0x10) == 0
  | none => pinLow s p

/-- A pin is driven to a level. -/
def drive (p : Nat) (level : Bool) (s : State) : State :=
  { s with pins := { s.pins with levels := setNth s.pins.levels p level, driven := setNth s.pins.driven p true } }

/-- A pin is released: high-impedance, at the level of its pull (none: it keeps the level at the ball). -/
def releasePin (p : Nat) (s : State) : State :=
  let lv := nth s.pins.levels p false
  let pull := par s (0x0E000004 + p * 0x100)
  { s with pins := { s.pins with
      levels := setNth s.pins.levels p (if pull = 0 then lv else pull == 2)
      driven := setNth s.pins.driven p false } }

/-- READY and TWIN_ACTIVE follow the state that they show (17 R542). -/
def funcPins (s : State) : State :=
  (List.range 16).foldl (fun s p =>
    let f := pinFunc s p
    if f = 5 then drive p ((s.boot.ready && !recovering s && awake s) != pinLow s p) s
    else if f = 4 then drive p ((s.twin.state == 1 || s.twin.state == 2) != pinLow s p) s
    else s) s

/-! ### Freeze (15 R479, R483, R484) -/

/-- Every clock stops; TB is held; outputs go inactive; a packet in progress is cut. -/
def freezeNow (self : Bool) (s : State) : State :=
  let s := (List.range 16).foldl (fun s p => if nth s.pins.driven p false then drive p (inactiveLevel s p) s else s) s
  { s with
    flt := { s.flt with
      frozen := true, selfFrozen := self, frostTb := s.clk.tb, recovery := none
      log := if s.flt.recovery.isSome then modNth s.flt.log 0 (fun e => { e with action := 5 }) else s.flt.log }
    clk := { s.clk with tbRun := false }
    pins := { s.pins with pulses := [], hbOut := false, frostLow := self }
    out := { s.out with ports := s.out.ports.map (fun p => { p with inFlight := none }) } }

/-! ### The fault log (15 R475) -/

/-- A new entry, newest first, of at most 16. -/
def logFault (status action unit whereAt sides steps flags : Nat) (s : State) : State :=
  let e : FaultEntry := ⟨s.flt.seq + 1, status, action, unit, stamp s, whereAt, sides, steps, flags, 0⟩
  { s with flt := { s.flt with
      log := (e :: s.flt.log).take 16
      seq := s.flt.seq + 1
      prior := if action = 4 then some e else s.flt.prior
      lastStatus := status
      faults := inc32 s.flt.faults 1
      faultsRc := sat 0xFF (s.flt.faultsRc + 1)
      lastF := some (stamp s) } }

/-- The recovery action of a fault (15 R467): 1 D, 2 DR, 3 I, 4 B. -/
def faultAction (status unit whereAt : Nat) : Nat :=
  if status = 0x07B0 then (if whereAt = 1 ∨ whereAt = 2 then 2 else 4)
  else if status = 0x07C0 then (if unit = 1 ∨ unit = 2 then 2 else if unit = 3 then 1 else 4)
  else if status = 0x07C1 then
    if Config.ddrImage.1 ≤ whereAt ∧ whereAt < Config.ddrImage.1 + Config.ddrImage.2 then 3
    else if Config.ddrFirmware.1 ≤ whereAt ∧ whereAt < Config.ddrFirmware.1 + Config.ddrFirmware.2 then 4
    else 1
  else if status = 0x07C2 ∨ status = 0x07C4 then 4
  else 1

/-- The cores whose resident content a fault of action DR has reloaded (15 R467). -/
def reloadCores (status unit whereAt : Nat) : List Nat :=
  if status = 0x07B0 then List.range 128
  else if status = 0x07C0 ∧ unit = 1 then [whereAt]
  else if status = 0x07C0 ∧ unit = 2 then (List.range 8).map (8 * whereAt + ·)
  else []

/-- The bit of FREEZE_ON that a fault belongs to (15 R484). -/
def freezeGroup (status : Nat) : Nat :=
  if status = 0x0760 ∨ status = 0x0761 then 1
  else if status = 0x07C0 then 2
  else if status = 0x07C1 then 3
  else if status = 0x07C3 then 4
  else if status = 0x07B0 then 5
  else if status = 0x07C2 then 6
  else if status = 0x07C4 then 7
  else 0

/-! ### Discarding work in flight (15 R469, R470) -/

/-- The tally is in the host range or the reference-count range, which a fault keeps (15 R469). -/
def keptTally (s : State) (n : Nat) : Bool :=
  let hb := par s 0x04000002
  let rb := par s 0x06000005
  (decide (hb ≤ n) && decide (n < hb + par s 0x04000003)) || (decide (rb ≤ n) && decide (n < rb + par s 0x06000006))

/-- A side is owed something that a fault at `f` takes away. -/
def discarded (f : Nat) (h : Sheet) : Bool :=
  h.dead.isNone && !h.refusedSide &&
    (match h.committed with
     | none => true
     | some c => decide (f < c) || !h.linesPending.isEmpty || !h.fieldsPending.isEmpty)

/-- A core stops and saves nothing (15 R470). -/
def stopCore (k : Core) : Core :=
  if k.state = 0 then k
  else { k with
    state := 1, tile := none, stalled := none, walks := 0, restoring := none, heldRequest := false, waitGranted := false
    r := { k.r with dmaq := [], part := [], wait := none } }

/-- The slot belongs to a discarded side, or to the serving pool. -/
def slotDiscarded (ids : List Nat) (sl : Slot) : Bool :=
  sl.pool == .serving ||
    (match sl.use with
     | .releaseCheck _ h => ids.contains h
     | .secondDeadline _ h => ids.contains h
     | .edgeTimeout _ => true
     | _ => false)

/-- A stream keeps receiving and tracking edges; the lines of discarded sides become gap lines (15 R470). -/
def streamDiscard (ids : List Nat) (st : Stream) : Stream :=
  { st with
    ring := st.ring.filter (fun l => !ids.contains l.sheet)
    discarded := match st.side with
      | some d => if d.accepted && ids.contains d.edge.sheet then inc32 st.discarded 1 else st.discarded
      | none => st.discarded
    side := st.side.map (fun d => if ids.contains d.edge.sheet then { d with accepted := false } else d) }

/-- A tally of the reference-count range after every sequence has been closed: the registry's own reference is left (09 R260). -/
def slabTallies (s : State) (t : Tab Tally) : Tab Tally :=
  s.slab.slabs.foldl (fun t (e : Nat × Slab) =>
    if e.2.refTally = 0xFFFF then t
    else if e.2.registered then Tab.set t e.2.refTally { (Tab.get t e.2.refTally ⟨0, 0, 0, 0, false, [], []⟩) with count := 1 }
    else Tab.erase t e.2.refTally) t

/-- Registered prefixes and their slabs stay; sequences, private slabs, and what walkers were doing go. -/
def discardSlabs (k : SlabState) : SlabState :=
  { k with
    seqs := []
    slabs := (k.slabs.filter (fun e => e.2.registered)).map (fun e => (e.1, { e.2 with pins := 0 }))
    reserved := []
    walkers := k.walkers.map (fun _ => Walker.reset)
    copies := []
    promos := [] }

/-- The steps and the unfinished lines of the serving loop go; the medians, the targets and the learn jobs' start stay. -/
def discardServing (v : Serving) : Serving :=
  { v with
    jobs := v.jobs.map (fun j => { j with steps := [], waitingCores := none, waitReported := false, coresHeld := 0 })
    lines := v.lines.map (fun l => if [4, 5].contains l.state then l else { l with state := 6 }) }

/-- The steps in flight, as (job, step). -/
def stepsInFlight (s : State) : List (Nat × Nat) :=
  (s.serv.jobs.zipIdx).flatMap (fun e => e.1.steps.map (fun t => (e.2, t.number)))

/-- What a fault detected at `f` discards (15 R469, R470), with its status. -/
def discardWork (f status : Nat) (s : State) : State :=
  let ids := (s.prep.sheets.filter (discarded f)).map Sheet.id
  { s with
    prep := { s.prep with
      sheets := s.prep.sheets.map (fun h => if discarded f h then { h with dead := some status } else h)
      bandSlots := []
      samples := []
      batches := [] }
    intk := { s.intk with streams := s.intk.streams.map (streamDiscard ids) }
    fc := { s.fc with slots := s.fc.slots.filter (fun e => !slotDiscarded ids e.2) }
    cores := s.cores.map stopCore
    clusters := s.clusters.map (fun c => { c with tiles := [] })
    ctxs := []
    coreMaps := List.replicate 16 ((List.range 128).map some)
    slab := discardSlabs s.slab
    serv := discardServing s.serv
    text := { s.text with
      carries := List.replicate 16 []
      masks := s.text.masks.map (fun m => { m with lists := [] }) }
    tallies := slabTallies s
      ((s.tallies.filter (fun e => keptTally s e.1)).map (fun e => (e.1, { e.2 with waiters := [], geWaiters := [] })))
    pwr := { s.pwr with charges := s.pwr.charges.filter (fun c =>
      match c.holder with | .burst _ _ => false | .context _ => false | .maintenance _ => false | _ => true) }
    flt := { s.flt with sidesDiscarded := inc32 s.flt.sidesDiscarded ids.length } }

/-- Event 1 of the serving loop for a step that a fault discards (15 R472). -/
def stepDiscarded (f : Nat) (e : Nat × Nat) (s : State) : State :=
  servEvent 1 { job := e.1, status := 0x0770, step := e.2, at_ := f } s

/-- An uncorrected fault is taken at the present stamp (15 R467 to R474, R484). -/
def raiseFault (status unit whereAt flags : Nat) (s : State) : State :=
  if bit (par s 0x0C000001) (freezeGroup status) then
    freezeNow true (logFault status 5 unit whereAt 0 0 flags s)
  else
    let f := stamp s
    let action := faultAction status unit whereAt
    let sides := (s.prep.sheets.filter (discarded f)).length
    let steps := stepsInFlight s
    let s := discardWork f status s
    let s := logFault status action unit whereAt sides steps.length flags s
    let s := steps.foldl (fun s e => stepDiscarded f e s) s
    let s := fltEvent 1 status s
    let was := (s.flt.recovery.map Recovery.action).getD 0
    let cores := (s.flt.recovery.map Recovery.reload).getD [] ++ reloadCores status unit whereAt
    let govern := Nat.max was action
    let s := { s with flt := { s.flt with recovery := some ⟨f, govern, cores⟩ }
                      twin := { s.twin with handover := false }
                      boot := { s.boot with due := s.boot.due || govern == 4 } }
    funcPins (raiseIbi 0x04 0 (status % 0x100) s)

/-- A core's tile ends in a fault of class 0x07 (05 R162): state 7, then the discard. -/
def coreFault (status c : Nat) (s : State) : State :=
  raiseFault status 1 c 0 (modCore c (fun k => { k with state := 7 }) s)

end Sys2Proof.Machine
end

