-- ==== Sys2Proof/Machine/Tally.lean ====
section
/-! DEFINITION. Tallies at their homes, their waiters, and the start of tiles by the dispatchers (05 R147 to R154, R168). -/
namespace Sys2Proof.Machine

def Tally.zero : Tally := ⟨0, 0, 0, 0, false, [], []⟩

def tallyAt (s : State) (n : Nat) : Tally := Tab.get s.tallies n Tally.zero

/-- The tally is replaced; a tally that is 0 in every field is not listed. -/
def setTally (n : Nat) (t : Tally) (s : State) : State :=
  { s with tallies := if t = Tally.zero then Tab.erase s.tallies n else Tab.set s.tallies n t }

/-- The cluster that is a tally's home (05 R147). -/
def tallyHome (s : State) (n : Nat) : Nat := if s.variant.half then n / 2048 else n / 1024

/-- A tally in the host range (05 R147). -/
def hostTally (s : State) (n : Nat) : Bool :=
  decide (par s 0x04000002 ≤ n) && decide (n < par s 0x04000002 + par s 0x04000003)

/-! ### Starting tiles (05 R168) -/

/-- The registers of a core as a tile starts: ARG, TILE_ID, core number, STEP; the others 0; accumulators unchanged. -/
def startRegs (c : Nat) (d : TileDesc) (step : Nat) (r : CoreRegs) : CoreRegs :=
  { CoreRegs.reset with
    x := [0, nth d.arg 0 0, nth d.arg 1 0, nth d.arg 2 0, nth d.arg 3 0, BitVec.ofNat 32 d.tileId, BitVec.ofNat 32 c,
          BitVec.ofNat 32 step] ++ List.replicate 24 0
    acc := r.acc }

/-- A tile starts on a core. -/
def startTile (c : Nat) (t : PendingTile) (s : State) : State :=
  modCore c (fun k => { k with
    state := 2, job := t.job, step := t.step, epoch := t.epoch, tile := some t.desc, waitGranted := false
    r := startRegs c t.desc t.step k.r }) s

/-- A core that can take a tile: idle, its clock granted (14 R449), carrying the tag where one is asked. -/
def takes (s : State) (c tag : Nat) : Bool :=
  let k := coreAt s c
  k.state == 1 && k.clocked && (tag == 0 || k.tag == tag)

/-- Where an eligible tile of cluster `cl` may start now. -/
inductive Place where
  | core (c : Nat)
  | forward (cluster : Nat)
  | wait
deriving DecidableEq, Repr

def placeTile (cl : Nat) (t : PendingTile) (s : State) : Place :=
  if t.desc.lcore = 0xFF then
    let m := if t.desc.coreMask = 0 then 0xFF else t.desc.coreMask
    match (bitsOf 8 m).find? (fun i => takes s (8 * cl + i) t.desc.tag) with
    | some i => .core (8 * cl + i)
    | none => .wait
  else
    match nth (nth s.coreMaps t.job []) t.desc.lcore none with
    | some c => if c / 8 = cl then (if takes s c t.desc.tag then .core c else .wait) else .forward (c / 8)
    | none => .wait

/-- A dispatcher goes through its list: eligible tiles start in list order, a waiting one holds none back. -/
def dispatchList (cl : Nat) : List PendingTile → State → State
  | [], s => s
  | t :: ts, s =>
    if t.eligible then
      match placeTile cl t s with
      | .core c => dispatchList cl ts (startTile c t (modCluster cl (fun k => { k with tiles := k.tiles.erase t }) s))
      | .forward d =>
        dispatchList cl ts (modCluster d (fun k => { k with tiles := k.tiles ++ [t] })
          (modCluster cl (fun k => { k with tiles := k.tiles.erase t }) s))
      | .wait => dispatchList cl ts s
    else dispatchList cl ts s

def dispatchCluster (cl : Nat) (s : State) : State := dispatchList cl (clusterAt s cl).tiles s

/-- Every dispatcher, twice, so that a forwarded tile is seen by the cluster it went to. -/
def dispatchAll (s : State) : State :=
  let go := fun s => (List.range 16).foldl (fun s c => dispatchCluster c s) s
  go (go s)

/-! ### Waiters (05 R151, R178) -/

/-- A grant or release reaches its waiter: a core in state 3 runs on; one in state 4 keeps the grant for its context; a
dispatcher's tiles become eligible. -/
def grantWaiter (n : Nat) (w : Nat × Nat) (s : State) : State :=
  if w.1 < 128 then
    modCore w.1 (fun k =>
      if k.state = 3 then { k with state := 2, r := { k.r with wait := none } }
      else if k.state = 4 then { k with waitGranted := true } else k) s
  else
    modCluster (w.1 - 128) (fun c => { c with tiles := c.tiles.map (fun t =>
      if t.desc.waitTally = n ∧ t.desc.waitCount ≤ w.2 then { t with eligible := true } else t) }) s

/-- Consuming waiters are granted from the head while COUNT lasts: the grants, the rest, and what COUNT becomes. -/
def serveConsuming : Nat → List (Nat × Nat) → List (Nat × Nat) × List (Nat × Nat) × Nat
  | count, [] => ([], [], count)
  | count, (w, k) :: q =>
    if k ≤ count then
      let r := serveConsuming (count - k) q
      ((w, k) :: r.1, r.2.1, r.2.2)
    else ([], (w, k) :: q, count)

/-- After a SIGNAL or SET, the home serves waiters in two passes (05 R151). -/
def serveWaiters (n : Nat) (s : State) : State :=
  let t := tallyAt s n
  let c := serveConsuming t.count t.waiters
  let ge := t.geWaiters.partition (fun w => decide (w.2 ≤ c.2.2))
  let s := setTally n { t with count := c.2.2, waiters := c.2.1, geWaiters := ge.2 } s
  (c.1 ++ ge.1).foldl (fun s w => grantWaiter n w s) s

/-! ### Operations (05 R149, R154) -/

/-- COUNT takes a new value at the home: REACHED is stamped where it crosses ARM. -/
def raiseCount (t : Tally) (v st : Nat) : Tally :=
  { t with count := v, reached := if t.arm ≠ 0 ∧ t.count < t.arm ∧ t.arm ≤ v then st else t.reached }

/-- A band slot whose consumers have all signalled its tally is free (04 R105). -/
def bandSignal (n : Nat) (s : State) : State :=
  let l := s.prep.bandSlots.map (fun b => if b.tally = n then { b with owed := b.owed - 1 } else b)
  { s with prep := { s.prep with bandSlots := l.filter (fun b => !(b.tally == n && b.owed == 0)) } }

/-- SIGNAL n by k, saturating; an overflow is fault 0x0743. -/
def signalTally (n k : Nat) (s : State) : State :=
  let t := tallyAt s n
  let st := stamp s
  let exceeds := decide (max32 < t.count + k)
  let t' := { raiseCount t (sat max32 (t.count + k)) st with lastSig := st, ovf := t.ovf || exceeds }
  let s := serveWaiters n (setTally n t' s)
  let s := dispatchAll (bandSignal n s)
  if exceeds then raiseFault 0x0743 2 (tallyHome s n) 0 s else s

/-- SET n to v: REACHED is stamped only where COUNT grows. -/
def setCount (n v : Nat) (s : State) : State :=
  let t := tallyAt s n
  let t' := if t.count < v then raiseCount t v (stamp s) else { t with count := v }
  dispatchAll (serveWaiters n (setTally n t' s))

/-- ARM n with a. -/
def armTally (n a : Nat) (s : State) : State :=
  let t := tallyAt s n
  setTally n { t with arm := a, reached := if a ≠ 0 ∧ a ≤ t.count then stamp s else 0 } s

/-- The 32-byte record of a tally (05 R148). -/
def tallyRecord (t : Tally) : Bytes :=
  pack [(4, t.count), (4, t.arm), (8, t.reached), (8, t.lastSig), (2, t.waiters.length), (2, t.geWaiters.length),
        (1, b2n t.ovf + 2 * b2n (t.arm != 0))] ++ zeros 3

/-! ### Doorbells (13 R425) -/

/-- A ring that its channel's ACL allows ORs its value in; the first that makes it non-zero signals DB_TALLY and raises
MDB 0x03. -/
def ringDoorbell (c v : Nat) (s : State) : State :=
  let ch := chanAt s c
  let first := ch.doorbell == 0 && v != 0
  let s := modChan c (fun ch => { ch with doorbell := ch.doorbell ||| v }) s
  let s := if first && ch.ibi && ch.receiver == 0x01 then raiseIbi 0x03 c 0 s else s
  if first && ch.dbTally != 0xFFFF then signalTally ch.dbTally 1 s else s

end Sys2Proof.Machine
end

