-- ==== Sys2Proof/Machine/PowerOps.lean ====
section
/-! DEFINITION. Cluster charges, shares, wakes and the device state as shared operations (14 R432 to R453). -/
namespace Sys2Proof.Machine

def stackAt (s : State) (k : Nat) : StackState := nth s.pwr.stackDies k .off
def setStack (k : Nat) (x : StackState) (s : State) : State :=
  { s with pwr := { s.pwr with stackDies := setNth s.pwr.stackDies k x } }

/-- The stack of a cluster. -/
def stackOf (c : Nat) : Nat := c / 4

/-! ### Device state (14 R432, R433) -/

/-- A cluster holds an active charge. -/
def clusterHeld (s : State) (c : Nat) : Bool := (nth s.pwr.points c none).isSome

def anyHeld (s : State) : Bool := s.pwr.points.any Option.isSome

/-- 1 Active, 2 Idle, 3 Doze, 4 Sleep, 5 Off. -/
def deviceState (s : State) : Nat :=
  match s.pwr.mode with
  | .off => 5
  | .sleep => 4
  | .running =>
    if anyHeld s then 1
    else if (s.pwr.stackDies.take s.variant.stackDies).any (fun x => x != .doze && x != .off) then 2 else 3

/-- A change is made, and event 1 tells of a change of device state (14 R463). -/
def withMode (f : State → State) (s : State) : State :=
  let t := f s
  if deviceState t = deviceState s then t else pwrEvent 1 (deviceState t) 0 [] t

/-! ### Points and charges (14 R447, R448) -/

def ageAt (s : State) (c : Nat) : Age := nth s.pwr.ages c Age.planned

/-- The next faster point that is not retired. -/
def unretired (retired : Nat) : Nat → Nat
  | 0 => 0
  | k + 1 => if bit retired (k + 1) then unretired retired k else k + 1

/-- The point at which a cluster's charge is granted: the slower of MAX_POINT and the thermal cap. -/
def clusterPoint (s : State) (c : Nat) : Nat :=
  unretired (ageAt s c).retired (Nat.max (par s (0x0B100000 + c * 0x100)) s.pwr.thermalCap)

/-- The charge of a cluster at a point, in units (R447). -/
def pointCharge (s : State) (c k : Nat) : Nat :=
  let v := if k = 0 then s.pwr.setPoint else nth (ageAt s c).mv k 0
  ceilDiv (48 * nth (ageAt s c).mhz k 0 * v) 750000 + 1

/-- Its increment over the standing 4. -/
def increment (s : State) (c k : Nat) : Nat := pointCharge s c k - 4

/-- The clusters of a mask that hold no active charge. -/
def uncharged (s : State) (m : Nat) : List Nat := (bitsOf 16 m).filter (fun c => !clusterHeld s c)

/-! ### Shares (14 R449) -/

/-- A cluster's increment split over its 8 cores. -/
def coreShares (c inc : Nat) : List Share :=
  (List.range 8).map (fun i => ⟨inc / 8 + (if i < inc % 8 then 1 else 0), .cluster c, i⟩)

/-- Units of a window of 1 µs that ends now. -/
def windowSum (now : Nat) (l : List (Nat × Nat)) : Nat :=
  (l.filter (fun e => decide (now < e.1 + 1000))).foldl (fun n e => n + e.2) 0

/-- A share is granted: its core is ungated, or its die closes gates. -/
def grantShare (x : Share) (s : State) : State :=
  let now := s.clk.tb
  let s := { s with pwr := { s.pwr with
    charges := s.pwr.charges ++ [⟨1, x.units, x.holder⟩]
    granted := (now, x.units) :: s.pwr.granted.filter (fun e => decide (now < e.1 + 1000)) } }
  match x.holder with
  | .cluster c =>
    modCore (8 * c + x.core) (fun k => { k with clocked := true })
      { s with pwr := { s.pwr with reverseBias := setNth s.pwr.reverseBias c false } }
  | _ => s

/-- Shares are granted in order while the increase of the last microsecond stays within 80 units. -/
def pumpShares : Nat → State → State
  | 0, s => s
  | n + 1, s =>
    match s.pwr.shares with
    | [] => s
    | x :: xs =>
      if windowSum s.clk.tb s.pwr.granted + x.units ≤ 80 then
        pumpShares n (grantShare x { s with pwr := { s.pwr with shares := xs } })
      else s

def grantNow (s : State) : State := dispatchAll (pumpShares 512 s)

/-- A share is returned: one held charge of its holder and size goes. -/
def takeBack (x : Share) (s : State) : State :=
  let now := s.clk.tb
  { s with pwr := { s.pwr with
    charges := s.pwr.charges.erase ⟨1, x.units, x.holder⟩
    returned := (now, x.units) :: s.pwr.returned.filter (fun e => decide (now < e.1 + 1000)) } }

/-- Shares are returned in order, at most 80 units in a microsecond. -/
def pumpReturns : Nat → State → State
  | 0, s => s
  | n + 1, s =>
    match s.pwr.returns with
    | [] => s
    | x :: xs =>
      if windowSum s.clk.tb s.pwr.returned + x.units ≤ 80 then
        pumpReturns n (takeBack x { s with pwr := { s.pwr with returns := xs } })
      else s

/-- A cluster's active charge is given back in shares (14 R450); its cores' clocks gate. -/
def returnCluster (c : Nat) (s : State) : State :=
  let mine := (s.pwr.charges.filter (fun x => x.holder == .cluster c)).map (fun x => (⟨x.units, x.holder, 0⟩ : Share))
  let s := { s with pwr := { s.pwr with
    points := setNth s.pwr.points c none
    lastHeld := setNth s.pwr.lastHeld c (stamp s)
    shares := s.pwr.shares.filter (fun x => x.holder != .cluster c)
    returns := s.pwr.returns ++ mine } }
  pumpReturns 512 ((List.range 8).foldl (fun s i => modCore (8 * c + i) (fun k => { k with clocked := false }) s) s)

/-- The charges of the clusters named are admitted: points chosen, shares queued in physical core order. -/
def chargeClusters (l : List Nat) (pt : Nat → Nat) (s : State) : State :=
  l.foldl (fun s c =>
    { s with pwr := { s.pwr with
      points := setNth s.pwr.points c (some (pt c))
      shares := s.pwr.shares ++ coreShares c (increment s c (pt c)) } }) s

/-! ### Domains (14 R435, R436) -/

/-- SRAM of a stack, active and in retention (14 R446). -/
def sramUnits (s : State) : Nat := if s.variant == .kd96x4m then 22 else 14
def sramRetain (s : State) : Nat := if s.variant == .kd96x4m then 3 else 2

def sramActive (s : State) (k : Nat) : Bool :=
  s.pwr.charges.any (fun c => c.holder == .sramStack k && c.units == sramUnits s)

def setSram (k u : Nat) (s : State) : State := hold 2 u (.sramStack k) (giveBack (.sramStack k) s)

/-- The codes of domains that exist on the variant. -/
def domainOk (s : State) (d : Nat) : Bool :=
  (decide (1 ≤ d) && decide (d ≤ s.variant.stackDies)) || (decide (0x11 ≤ d) && decide (d < 0x11 + s.variant.stackDies))

/-- A domain that is awake needs no wake. -/
def domainAwake (s : State) (d : Nat) : Bool :=
  if d < 0x10 then stackAt s (d - 1) == .awake else sramActive s (d - 0x11)

/-- A WAKE is due at once for a dozing domain, with its cause (R436, R437), unless one already stands. -/
def postWake (d cause : Nat) (s : State) : State :=
  if domainAwake s d || s.fc.slots.any (fun e => e.2.cls == 0x07 && e.2.index == d) then s
  else addSlot (newSlot s (stamp s) 0x07 d 0x16 0 0 .housekeeping (.wakeDie cause)) s

/-- A wake is recorded (14 R465). -/
def recordWake (from_ cause domain : Nat) (s : State) : State :=
  { s with pwr := { s.pwr with
      wakeFrom := from_, wakeCause := cause, wakeDomain := domain
      wakes := inc32 s.pwr.wakes 1, wakesRc := sat 0xFF (s.pwr.wakesRc + 1) } }

/-- The receiver's domain of a channel, where it lies in a compute stack (13 R425). -/
def receiverDomain (s : State) (c : Nat) : Option Nat :=
  let r := (chanAt s c).receiver
  if 0x20 ≤ r ∧ r ≤ 0x2F then some (1 + stackOf (r - 0x20)) else none

/-- A ring with WAKE_ON_DB also wakes the receiver's domain. -/
def ringAndWake (c v : Nat) (s : State) : State :=
  let first := (chanAt s c).doorbell == 0 && v != 0
  let wake := (chanAt s c).wakeOnDb
  let s := ringDoorbell c v s
  match first && wake, receiverDomain s c with
  | true, some d => postWake d 0x05 s
  | _, _ => s

/-- The base-die SRAM of a stack takes accesses. -/
def sramReady (s : State) (k : Nat) : Bool := sramActive s k && !nth s.pwr.sramWaking k false

/-- A Doze entry in its first phase is cancelled by a wake or an access (R434). -/
def cancelEntry (k : Nat) (s : State) : State :=
  match stackAt s k with
  | .entering _ => setStack k .awake s
  | _ => s

/-- An access to the base-die SRAM of a stack (R436): a dozing one is woken. Where `sramReady` says no, the access stalls. -/
def touchSram (k : Nat) (s : State) : State :=
  if sramReady s k then cancelEntry k s else postWake (0x11 + k) 0x04 s

/-- A first access to a compute die. -/
def touchDie (k : Nat) (s : State) : State :=
  match stackAt s k with
  | .entering _ => setStack k .awake s
  | .awake => s
  | _ => postWake (1 + k) 0x04 s

/-- A wake of the die has been admitted and is not complete. -/
def dieWaking (s : State) (k : Nat) : Bool :=
  stackAt s k == .waking || s.pwr.shares.any (fun x => x.holder == .dieWake k) || holds s (.dieWake k)

/-- The die needs no wake charge: awake, on its way, or in the first phase of a Doze entry. -/
def dieChargeFree (s : State) (k : Nat) : Bool :=
  match stackAt s k with
  | .awake => true
  | .entering _ => true
  | _ => dieWaking s k

end Sys2Proof.Machine
end

