-- ==== Sys2Proof/Machine/Forecast.lean ====
section
/-! DEFINITION. The Forecast unit: TIME commands, pre-dispatch, launches (02; 14 R445 to R449). -/
namespace Sys2Proof.Machine

/-- What an opcode's own checks and effect give: reply data and the state, or a refusal with its status and data (13 R400). -/
inductive Reply where
  | ok (data : Bytes) (s : State)
  | refuse (status : Nat) (data : Bytes)
  /-- A refusal that leaves something behind (02 R50). -/
  | refuseWith (status : Nat) (data : Bytes) (s : State)

/-! ### The slot record (02 R33) -/

def slotRecord (sl : Slot) : Bytes :=
  pack [(8, sl.due), (4, sl.period), (2, sl.count), (1, sl.cls), (1, if sl.notify then 0x80 else 0), (2, sl.index),
        (1, sl.owner), (1, sl.state), (4, sl.arg0), (4, sl.arg1), (2, sl.charge), (1, sl.rail), (1, sl.late)]

/-- The ranges of INDEX, ARG0 and ARG1 by class (02 R35); the domains of absent stacks are refused here too (00 R4). -/
def slotArgsOk (v : Variant) (cls ix a0 a1 : Nat) : Bool :=
  match cls with
  | 0x01 => decide (ix ≤ 15) && decide (100 ≤ a0) && decide (a0 ≤ 1000000) && decide (a1 ≤ 1)
  | 0x02 => decide (ix ≤ 15) && decide (100 ≤ a0) && decide (a0 ≤ 10000) && decide (a1 ≤ 1)
  | 0x03 => decide (ix ≤ 15) && decide (a0 ≤ 1) && a1 == 0
  | 0x04 => decide (1 ≤ ix) && decide (ix < 2 ^ v.clusters)
  | 0x05 => decide (ix < v.txPorts) && a1 == 0
  | 0x06 => decide (1 ≤ ix) && decide (ix ≤ 4) && decide (a1 ≤ 16383)
      && (ix != 1 || decide (a0 ≤ 16383)) && (ix != 2 || (decide (a0 < 0x10000) && decide (a0 % 0x100 ≤ 31)))
  | 0x07 => a0 == 0 && a1 == 0 && !(v.half && [0x03, 0x04, 0x13, 0x14].contains ix)
  | 0x08 => ix == 0 && decide (a0 ≤ 16383) && decide (1 ≤ a1) && decide (a1 ≤ 65535)
  | 0x09 => decide (ix ≤ 31) && a1 == 0
  | 0x0A => ix == 0 && a1 == 0
  | 0x0B => decide (ix < v.txPorts) && a1 == 0
  | 0x0C => decide (1 ≤ ix) && decide (ix ≤ 5) && a1 == 0 && (if ix = 5 then decide (a0 ≤ 11) else a0 == 0)
  | _ => false

/-- A host record passes the format checks of 02 R34. -/
def slotFormatOk (v : Variant) (p : Bytes) : Bool :=
  let period := leAt p 8 4
  let count := leAt p 12 2
  p.length == 32
    && !(decide (1 ≤ period) && decide (period ≤ 499)) && (period != 0 || count == 0) && (period == 0 || count != 0)
    && leAt p 15 1 % 0x40 == 0
    && slotArgsOk v (leAt p 14 1) (leAt p 16 2) (leAt p 20 4) (leAt p 24 4)
    && resZero p 18 2 && resZero p 28 4

/-- The function or owner of a pin (13 R414, R427; 17 R542): 0 free, 1 stream, 2 sync group, 3 host, 5 PIN function. -/
def pinKind (s : State) (p : Nat) : Nat :=
  let f := pinFunc s p
  if f = 1 ∨ f = 2 then 3
  else if f ≠ 0 then 5
  else match nth s.pins.owners p .free with
    | .free => 0
    | .stream _ => 1
    | .sync _ => 2

/-- Why a host post is refused under 02 R37, if it is. -/
def slotDenied (s : State) (cls ix a0 a1 : Nat) : Option Nat :=
  match cls with
  | 0x01 | 0x03 => if pinFunc s ix = 1 then none else if pinKind s ix = 0 then some 0x0504 else some 0x0220
  | 0x06 => if ix ≤ 2 ∧ hostTally s a1 then none else some 0x0504
  | 0x07 => if (1 ≤ ix ∧ ix ≤ 4) ∨ (0x11 ≤ ix ∧ ix ≤ 0x14) then none else some 0x0504
  | 0x08 => if hostTally s a0 then none else some 0x0504
  | 0x09 => if allowed s ix 0x01 then none else some 0x0504
  | 0x0B => none
  | _ => some 0x0504

/-- The charge of one occurrence, as the record shows it: units and rail (14 R446). -/
def slotCharge (s : State) (sl : Slot) : Nat × Nat :=
  match sl.cls with
  | 0x04 => ((uncharged s sl.index).foldl (fun n c => n + increment s c (clusterPoint s c)) 0, 1)
  | 0x05 => (1, 3)
  | 0x07 => if sl.index < 0x10 then (120, 1) else (0, 0)
  | _ => (0, 0)

def withCharge (s : State) (sl : Slot) : Slot :=
  let c := slotCharge s sl
  { sl with charge := c.1, rail := if c.1 = 0 then 0 else c.2 }

/-! ### TIME commands (02 R52) -/

/-- TIME_READ: the TB sampled as the packet's last bit came. -/
def timeReadBody (p : Packet) (s : State) : Reply :=
  if p.params ≠ [] then .refuse 0x0111 [] else .ok (le 8 p.rx) s

/-- SLOT_POST (02 R30, R33, R34, R37). -/
def slotPostBody (p : Packet) (s : State) : Reply :=
  let r := p.params
  if !slotFormatOk s.variant r then .refuse 0x0111 []
  else
    let cls := leAt r 14 1
    let ix := leAt r 16 2
    let a0 := leAt r 20 4
    let a1 := leAt r 24 4
    match (if p.sender = 0x01 then slotDenied s cls ix a0 a1 else none) with
    | some st => .refuse st []
    | none =>
      if poolSize s .host ≤ poolUsed s .host then .refuse 0x0310 []
      else match Tab.free s.fc.slots 4096 with
        | none => .refuse 0x0310 []
        | some n =>
          let flags := leAt r 15 1
          let due := if bit flags 6 then stamp s + leAt r 0 8 else leAt r 0 8
          let sl := { newSlot s due cls ix p.sender a0 a1 .host .posted with
            period := leAt r 8 4, count := leAt r 12 2, notify := bit flags 7 }
          .ok (le 2 n) (refreshPorts { s with fc := { s.fc with slots := Tab.set s.fc.slots n (withCharge s sl) } })

/-- The stamp from which the occurrence in progress may be offered (02 R39). -/
def Slot.preDispatch (sl : Slot) : Nat := Nat.max (sl.now - 256) sl.admitted

/-- The occurrence has been handed to its target, or, carrying no charge, is at its pre-dispatch point (02 R50). -/
def handedOver (s : State) (sl : Slot) : Bool :=
  sl.state == 2 || (sl.state == 1 && sl.charge == 0 && decide (sl.preDispatch ≤ s.clk.tb))

/-- SLOT_CANCEL (02 R38, R50): a cancel that comes too late still cancels what follows of a repeating slot. -/
def slotCancelBody (p : Packet) (s : State) : Reply :=
  if p.params.length ≠ 2 then .refuse 0x0111 []
  else
    let n := leAt p.params 0 2
    match slotAt s n with
    | none => .refuse 0x0112 []
    | some sl =>
      if sl.owner ≠ p.sender ∧ ¬ (0x10 ≤ p.sender ∧ p.sender ≤ 0x13) then .refuse 0x0503 []
      else if handedOver s sl then .refuseWith 0x0402 [] (modSlot n (fun x => { x with last := true }) s)
      else .ok [] (refreshPorts (freeSlot n s))

/-- SLOT_QUERY. -/
def slotQueryBody (p : Packet) (s : State) : Reply :=
  if p.params.length ≠ 2 then .refuse 0x0111 []
  else match slotAt s (leAt p.params 0 2) with
    | none => .refuse 0x0112 []
    | some sl => .ok (slotRecord sl) s

/-! ### Admission (02 R45 to R48; 14 R446 to R449) -/

/-- Ranks of actions that share a due time (02 R35). -/
def classRank : Nat → Nat
  | 0x05 => 2
  | 0x0B => 1
  | 0x01 | 0x02 | 0x03 => 3
  | 0x08 | 0x09 => 4
  | 0x0A => 5
  | 0x07 => 6
  | 0x04 => 7
  | _ => 0

/-- The order of 02 R45 and R48: scheduled due time, rank, slot number, as one key. -/
def orderKey (n : Nat) (sl : Slot) : Nat := (sl.now * 8 + classRank sl.cls) * 4096 + n

/-- An earlier action waits on the rail. -/
def overtakes (s : State) (rail n : Nat) (sl : Slot) : Bool :=
  s.fc.slots.any (fun e => e.1 != n && e.2.state == 3 && e.2.waitRail == rail && decide (orderKey e.1 e.2 < orderKey n sl))

/-- A charge of the slot may be admitted on the rail now. -/
def mayTake (s : State) (rail units n : Nat) (sl : Slot) : Bool := fits s rail units && !overtakes s rail n sl

def waitOn (n rail : Nat) (s : State) : State := modSlot n (fun x => { x with state := 3, waitRail := rail }) s

def handOver (n : Nat) (s : State) : State :=
  modSlot n (fun x => { x with state := 2, waitRail := 0, handed := s.clk.tb }) s

/-- The DDR4 burst class that a STEP_START still has to take. -/
def burstOf (s : State) (sl : Slot) : Option (Holder × Nat) :=
  match sl.use with
  | .stepStart j k => if sl.burst ≠ 0 ∧ !holds s (.burst j k) then some (.burst j k, sl.burst) else none
  | _ => none

/-- The VDD_CORE part of a STEP_START at its clusters' points, or at one slower point (14 R448). -/
def takeClusters (n : Nat) (sl : Slot) (pt : Nat → Nat) (s : State) : State :=
  let l := uncharged s sl.index
  let u := l.foldl (fun m c => m + increment s c (pt c)) 0
  if l.isEmpty then handOver n s
  else if mayTake s 1 u n sl then
    withMode (fun s => grantNow (handOver n (chargeClusters l pt (modSlot n (fun x => { x with charge := u, rail := 1 }) s)))) s
  else waitOn n 1 s

/-- A slot asks for its charges, and is handed to its target or waits in state 3. -/
def tryAdmit (n : Nat) (s : State) : State :=
  match slotAt s n with
  | none => s
  | some sl =>
    match sl.cls with
    | 0x04 =>
      match burstOf s sl with
      | some (h, u) =>
        if mayTake s 4 u n sl then takeClusters n sl (clusterPoint s) (hold 4 u h s) else waitOn n 4 s
      | none => takeClusters n sl (clusterPoint s) s
    | 0x05 => if mayTake s 3 1 n sl then handOver n (hold 3 1 (.outRelease n) s) else waitOn n 3 s
    | 0x07 =>
      let k := (sl.index - 1) % 0x10
      if domainAwake s sl.index || (decide (sl.index < 0x10) && dieChargeFree s k) then
        handOver n (modSlot n (fun x => { x with charge := 0, rail := 0 }) s)
      else
        let extra := if sramActive s k then 0 else sramUnits s - sramRetain s
        if !mayTake s 2 extra n sl then waitOn n 2 s
        else if 0x10 ≤ sl.index then
          handOver n (setSram k (sramUnits s) { s with pwr := { s.pwr with sramWaking := setNth s.pwr.sramWaking k true } })
        else if !mayTake s 1 120 n sl then waitOn n 1 s
        else
          let s := if sramActive s k then s else
            setSram k (sramUnits s) { s with pwr := { s.pwr with sramWaking := setNth s.pwr.sramWaking k true } }
          let s := { s with pwr := { s.pwr with shares := s.pwr.shares ++ [⟨80, .dieWake k, 8⟩, ⟨40, .dieWake k, 8⟩] } }
          grantNow (handOver n s)
    | _ => handOver n s

/-- The actions in state 3, in order, ask again. -/
def retryWaiting (s : State) : State :=
  let l := sortBy (fun e => orderKey e.1 e.2) (s.fc.slots.filter (fun e => e.2.state == 3))
  l.foldl (fun s e => tryAdmit e.1 s) s

/-- No other action that waits to be offered at the same due time comes first (02 R48). -/
def offersFirst (s : State) (n : Nat) (sl : Slot) : Bool :=
  !s.fc.slots.any (fun e => e.1 != n && e.2.state == 1 && e.2.now == sl.now && decide (orderKey e.1 e.2 < orderKey n sl))

/-- The pre-dispatch of an occurrence may take place (02 R39, R56). -/
def canPreDispatch (s : State) (n : Nat) : Bool :=
  match slotAt s n with
  | some sl => s.clk.tbValid && awake s && sl.state == 1 && decide (sl.preDispatch ≤ s.clk.tb) && offersFirst s n sl
  | none => false

/-- An action that waits on the ledger counts once (14 R462). -/
def countWait (n : Nat) (s : State) : State :=
  match slotAt s n with
  | some sl => if sl.state = 3 then { s with pwr := { s.pwr with ledgerWaits := inc32 s.pwr.ledgerWaits 1 } } else s
  | none => s

/-- The target units of an action, as kind and number (02 R39). -/
def targetUnits (s : State) (sl : Slot) : List (Nat × Nat) :=
  match sl.cls with
  | 0x01 | 0x02 | 0x03 => [(1, sl.index)]
  | 0x05 | 0x0B => [(2, sl.index)]
  | 0x04 => (bitsOf 16 sl.index).map (fun c => (3, c))
  | 0x07 => [(4, sl.index)]
  | 0x08 => [(5, tallyHome s sl.arg0)]
  | 0x09 => [(6, sl.index)]
  | _ => [(7, 0)]

/-- 128 actions of the same due time, or 8 of them with a target unit of this one, have been offered before (02 R39). -/
def isCrowded (s : State) (n : Nat) (sl : Slot) : Bool :=
  let l := s.fc.slots.filter (fun e => e.1 != n && (e.2.state == 2 || e.2.state == 3) && e.2.now == sl.now)
  decide (128 ≤ l.length)
    || (targetUnits s sl).any (fun u => decide (8 ≤ (l.filter (fun e => (targetUnits s e.2).contains u)).length))

/-- The offer to the ledger at the pre-dispatch point. -/
def offer (n : Nat) (s : State) : State :=
  let s := modSlot n (fun x => { withCharge s x with asked := s.clk.tb, crowded := isCrowded s n x }) s
  countWait n (tryAdmit n s)

/-! ### Launch (02 R39 to R44) -/

/-- TB at which the occurrence in progress starts in its target. -/
def Slot.launchAt (sl : Slot) : Nat :=
  if sl.now < sl.admitted + 256 then sl.admitted + 256
  else if sl.now < sl.handed then sl.handed + 256
  else sl.now

/-- A dispatched action of the class whose launch has come. -/
def launchable (s : State) (cls n : Nat) : Option Slot :=
  match slotAt s n with
  | some sl =>
    if s.clk.tbValid && awake s && sl.state == 2 && sl.cls == cls && decide (sl.launchAt ≤ s.clk.tb) then some sl else none
  | none => none

/-- The launch at TB `t` is late: more than 24 ns after its due time (02 R42), due sooner than 256 ns after its admission (02 R40),
or beyond the limits of the same-due guarantee (02 R39). -/
def Slot.isLate (sl : Slot) (t : Nat) : Bool := decide (sl.now + 24 < t) || decide (sl.now < sl.admitted + 256) || sl.crowded

/-- Occurrences still to launch after this one (02 R43). -/
def Slot.left (sl : Slot) : Nat :=
  if sl.period = 0 then 0 else if sl.count = 0xFFFF then 0xFFFF else sl.count - (sl.k + 1)

/-- This occurrence frees the slot (02 R44). -/
def Slot.frees (sl : Slot) : Bool := sl.period == 0 || sl.last || sl.left == 0

/-- The completion message (02 R43). -/
def completion (n : Nat) (sl : Slot) (late : Bool) (launch : Nat) (timeout won : Bool) (arrival : Nat) : Bytes :=
  pack [(1, 1), (1, sl.cls), (2, n), (1, b2n late + 2 * b2n sl.frees + 4 * b2n timeout + 8 * b2n won),
        (1, sl.owner), (2, sl.left), (8, sl.now), (8, launch), (2, sl.index), (2, 0), (4, sl.arg0), (4, sl.arg1), (8, arrival)]
  ++ zeros 20

/-- A late launch is counted (02 R42). -/
def countLate (s : State) : State :=
  { s with fc := { s.fc with lateLaunches := inc32 s.fc.lateLaunches 1, lateRc := sat 0xFFFF (s.fc.lateRc + 1) } }

/-- A launch at TB `t`, started or evaluated at `at_`, is recorded: lateness, completion message, and the next occurrence or the
end of the slot. -/
def finishAt (t at_ n : Nat) (sl : Slot) (timeout won : Bool) (arrival : Nat) (s : State) : State :=
  let late := sl.isLate t
  let s := if late then countLate s else s
  let s := if sl.notify then post (ownerChannel sl.owner) 0x16 false (completion n sl late at_ timeout won arrival) s else s
  if sl.frees then (if sl.cls = 0x0B then refreshPorts (freeSlot n s) else freeSlot n s)
  else modSlot n (fun x => { x with
    state := 1, k := x.k + 1, arrival := none, handed := 0, crowded := false
    late := if late then sat 0xFF (ceilDiv (t - sl.now) 1000) else 0 }) s

/-- A launch now. -/
def finishLaunch (n : Nat) (sl : Slot) (timeout won : Bool) (arrival : Nat) (s : State) : State :=
  finishAt s.clk.tb s.clk.tb n sl timeout won arrival s

/-- A launch whose effect is given. -/
def launch (cls n : Nat) (f : Slot → State → State) (s : State) : State :=
  match launchable s cls n with
  | some sl => finishLaunch n sl false false 0 (f sl s)
  | none => s

/-- A pulse on a pin to its active level, for a width (02 R35; 17 R539). -/
def pulsePin (p width : Nat) (level : Bool) (s : State) : State :=
  let s := drive p level s
  { s with pins := { s.pins with pulses := s.pins.pulses.filter (fun q => q.pin != p) ++ [⟨p, s.clk.tb + width, !level⟩] } }

/-! ### Meanings -/

/-- PRE_DISPATCH of actions other than a STEP_START (whose batch closes are in the preparation's file). -/
def preDispatchPlain (n : Nat) (s : State) : State := if canPreDispatch s n then offer n s else s

/-- SHARE_GRANT (14 R449): shares that wait are granted as far as the microsecond allows. -/
def execShareGrant (dt : Nat) (s : State) : Host.Outcome State Fault Refusal :=
  let s := advance dt s
  .next (if awake s then grantNow s else s)

/-- SHARE_RETURN (14 R449): shares that are given back ramp down, and the freed budget admits waiting actions. -/
def execShareReturn (dt : Nat) (s : State) : Host.Outcome State Fault Refusal :=
  let s := advance dt s
  .next (if awake s then withMode retryWaiting (pumpReturns 512 s) else s)

/-- STROBE (02 R35; 03 R74). -/
def execStrobe (dt n : Nat) (s : State) : Host.Outcome State Fault Refusal :=
  .next (launch 0x01 n (fun sl => pulsePin sl.index sl.arg0 (bit sl.arg1 0)) (advance dt s))

/-- LINE_TRIG (02 R35; 03 R74). -/
def execLineTrig (dt n : Nat) (s : State) : Host.Outcome State Fault Refusal :=
  .next (launch 0x02 n (fun sl => pulsePin sl.index sl.arg0 (bit sl.arg1 0)) (advance dt s))

/-- PIN_SET (02 R35). -/
def execPinSet (dt n : Nat) (s : State) : Host.Outcome State Fault Refusal :=
  .next (launch 0x03 n (fun sl => drive sl.index (bit sl.arg0 0)) (advance dt s))

/-- TALLY_SIGNAL as an action (02 R35; 05 R149). -/
def execTallySignalAction (dt n : Nat) (s : State) : Host.Outcome State Fault Refusal :=
  .next (launch 0x08 n (fun sl => signalTally sl.arg0 sl.arg1) (advance dt s))

/-- DOORBELL (13 R420, R425): the ACL is checked again at launch. -/
def execDoorbell (dt n : Nat) (s : State) : Host.Outcome State Fault Refusal :=
  .next (launch 0x09 n (fun sl s =>
    if allowed s sl.index sl.owner then ringAndWake sl.index sl.arg0 s
    else
      let s := countDenied sl.index s
      if sl.index = par s 0x0A000012 then s else cmdEvent 4 sl.index sl.owner 0 0 0 s) (advance dt s))

/-- QUIET_POINT (13 R411): the window opens, event 2 is sent. -/
def execQuietPoint (dt n : Nat) (s : State) : Host.Outcome State Fault Refusal :=
  .next (launch 0x0A n (fun sl s =>
    match s.cmd.quiet with
    | some q =>
      cmdEvent 2 0xFF 0 sl.arg0 0 0
        { s with cmd := { s.cmd with quiet := some { q with state := 2, openedAt := s.clk.tb } } }
    | none => s) (advance dt s))

/-- TB_MARK (12 R375): the mark waits at its port for the packet boundary. -/
def execTbMark (dt n : Nat) (s : State) : Host.Outcome State Fault Refusal :=
  .next (launch 0x0B n (fun sl s =>
    let m : Mark := ⟨sl.arg0, n, sl.now, s.clk.tb⟩
    let ports := modNth s.out.ports sl.index (fun p => { p with marks := p.marks ++ [m] })
    { s with out := { s.out with ports := ports } }) (advance dt s))

/-- WATCH (02 R36): the launch; what the supervisor finds expired is a command of its own. -/
def execWatch (dt n : Nat) (s : State) : Host.Outcome State Fault Refusal :=
  .next (launch 0x0C n (fun _ s => s) (advance dt s))

/-- WAKE (14 R434, R435, R465): the wake of the domain begins, its cause recorded; a Doze entry in its first phase is
cancelled. -/
def execWake (dt n : Nat) (s : State) : Host.Outcome State Fault Refusal :=
  .next (launch 0x07 n (fun sl s =>
    let cause := match sl.use with | .wakeDie c => c | _ => 0x03
    if 0x10 ≤ sl.index then
      if nth s.pwr.sramWaking (sl.index - 0x11) false then recordWake 3 cause sl.index s else s
    else
      match stackAt s (sl.index - 1) with
      | .doze => setStack (sl.index - 1) .waking (recordWake 3 cause sl.index s)
      | .off => setStack (sl.index - 1) .waking (recordWake 3 cause sl.index s)
      | .entering _ => setStack (sl.index - 1) .awake s
      | _ => s) (advance dt s))

/-- DOWNSHIFT (14 R448): an action that has waited DOWNSHIFT_WAIT on VDD_CORE is offered at one slower point. -/
def downshiftPoint (s : State) (l : List Nat) : Option Nat :=
  ((List.range 7).drop 1).find? (fun k =>
    decide (k ≤ par s 0x0B000009) && l.all (fun c => decide (clusterPoint s c ≤ k) && !bit (ageAt s c).retired k)
      && fits s 1 (l.foldl (fun m c => m + increment s c k) 0))

def execDownshift (dt n : Nat) (s : State) : Host.Outcome State Fault Refusal :=
  let s := advance dt s
  .next (match slotAt s n with
    | some sl =>
      let w := par s 0x0B000008
      if awake s && sl.state == 3 && sl.waitRail == 1 && sl.cls == 0x04 && w != 0 && decide (sl.asked + w ≤ s.clk.tb) then
        match downshiftPoint s (uncharged s sl.index) with
        | some k => takeClusters n sl (fun _ => k) s
        | none => s
      else s
    | none => s)

/-- LEDGER_WAIT_REPORT (14 R463): an action has waited on the ledger for more than 1 ms. -/
def execLedgerWaitReport (dt n : Nat) (s : State) : Host.Outcome State Fault Refusal :=
  let s := advance dt s
  .next (match slotAt s n with
    | some sl =>
      if awake s && sl.state == 3 && !sl.reported && decide (sl.asked + 1000000 < s.clk.tb) then
        pwrEvent 4 sl.waitRail n [] (modSlot n (fun x => { x with reported := true }) s)
      else s
    | none => s)

end Sys2Proof.Machine
end

