-- ==== Sys2Proof/Machine/Ring.lean ====
section
/-! DEFINITION. The output ring: occupancy, its high state, entries (12 R376 to R379, R385). -/
namespace Sys2Proof.Machine

/-- The bytes of the output ring in use (12 R376). -/
def occupancy (s : State) : Nat := s.out.ring.foldl (fun n e => n + e.bytes) 0

/-- Output events (12 R385): 1, 2 and 5 always. -/
def outEvent (ev port sheet record : Nat) (s : State) : State :=
  report 0x15 false 0x09F00006 0x09F00007 (ev == 1 || ev == 2 || ev == 5) ev
    (pack [(1, ev), (1, port), (2, 0), (4, sheet), (8, stamp s), (8, occupancy s), (4, record)] ++ zeros 36) s

/-- The ring turns high at HIGH_MARK and low again below LOW_MARK (R379). -/
def refreshHigh (s : State) : State :=
  let o := occupancy s
  if !s.out.high && decide (par s 0x09F00003 ≤ o) then outEvent 1 0xFF 0 0 { s with out := { s.out with high := true } }
  else if s.out.high && decide (o < par s 0x09F00004) then outEvent 2 0xFF 0 0 { s with out := { s.out with high := false } }
  else s

/-- Entries are written. -/
def putEntries (l : List RingEntry) (s : State) : State := refreshHigh { s with out := { s.out with ring := s.out.ring ++ l } }

/-- Entries that have been transmitted and are not retained are freed (R377). -/
def freeEntries (s : State) : State :=
  refreshHigh { s with out := { s.out with ring := s.out.ring.filter (fun e => !e.sent || e.retained) } }

def modEntries (p : EntryKind → Bool) (f : RingEntry → RingEntry) (s : State) : State :=
  { s with out := { s.out with ring := s.out.ring.map (fun e => if p e.kind then f e else e) } }

end Sys2Proof.Machine
end

