-- ==== Sys2Proof/Machine/Command.lean ====
section
/-! DEFINITION. The command interface: receiving, executing and answering packets (13 R392 to R402), and the mirror of
executed commands to the twin (15 R486). -/
namespace Sys2Proof.Machine

/-! ### Twin items (15 R485, R486) -/

/-- The port and virtual channel that twin items leave on (15 R485). -/
def twinPort (s : State) : Nat := if s.variant.half then 0 else 1
def twinTxVc (s : State) : Nat := par s 0x0C000014

/-- An item: header, body, CRC of the body. -/
def itemBytes (kind mseq acked st : Nat) (body : Bytes) : Bytes :=
  let h := pack [(1, kind), (1, 1), (2, 0), (4, body.length), (4, mseq), (4, acked), (8, st), (4, 0)]
  h ++ le 4 (crc32c h) ++ body ++ le 4 (crc32c body)

/-- The newest items whose bodies fit the room, in order. -/
def keepItems (room : Nat) (l : List MirrorItem) : List MirrorItem :=
  l.foldr (fun i r => if (i :: r).foldl (fun n x => n + x.body.length) 0 ≤ room then i :: r else r) []

/-- An item joins the twin port's records; on KD96-2 it takes room in the output ring (12 R376). -/
def sendItem (i : MirrorItem) (s : State) : State :=
  let b := itemBytes i.kind i.mseq s.twin.received i.stamp i.body
  let r : OutRecord :=
    { no := 0, kind := 0, sheet := 0, stream := 0, port := twinPort s, vc := twinTxVc s, commit := i.stamp, bytes := b,
      launched := true, queued := true, sentBytes := 0, frame := 0, mirrored := i.mseq }
  let s := { s with
    twin := { s.twin with lastSend := stamp s }
    out := { s.out with records := s.out.records ++ [r] } }
  if s.variant.half then putEntries [⟨.twin i.mseq, b.length, false, false⟩] s else s

/-- An item is sent: it takes the next MSEQ and is kept until acknowledged, within TWIN_RETAIN (15 R487). -/
def mirror (kind : Nat) (body : Bytes) (s : State) : State :=
  if s.twin.state = 0 then s
  else
    let i : MirrorItem := ⟨kind, s.twin.mseq + 1, body, stamp s⟩
    let kept := keepItems (par s 0x0C000018 * 2 ^ 20) (s.twin.sentItems ++ [i])
    sendItem i { s with twin := { s.twin with mseq := i.mseq, sentItems := kept } }

/-- The part is the pair's primary. -/
def isPrimary (s : State) : Bool := s.twin.state == 1 || s.twin.state == 2
def isStandby (s : State) : Bool := s.twin.state == 3 || s.twin.state == 4

/-- The opcodes of COMMAND items (15 R486; 16 R518). -/
def mirrored (opcode : Nat) : Bool :=
  [0x0A02, 0x0A03, 0x0A04, 0x0A06, 0x0201, 0x0202, 0x0203, 0x0204, 0x0303, 0x0411, 0x0803, 0x0804, 0x0805, 0x0608, 0x0A14,
   0x0D03, 0x0D04, 0x0D05, 0x0D06].contains opcode

/-- The opcodes that a standby refuses from its own host (15 R494; 16 R522). -/
def standbyRefuses (opcode : Nat) : Bool :=
  [0x0A02, 0x0A03, 0x0A04, 0x0201, 0x0202, 0x0D05, 0x0D07, 0x0D08, 0x0D09].contains opcode

/-! ### Packets and replies (13 R393, R398) -/

/-- A packet's 16 header bytes. -/
def packetHeader (p : Packet) : Bytes :=
  let h := pack [(2, p.opcode), (2, p.tag), (4, p.params.length), (4, p.epoch)]
  h ++ le 4 (crc32c h)

/-- The whole packet. -/
def packetBytes (p : Packet) : Bytes := packetHeader p ++ p.params ++ le 4 (crc32c p.params)

/-- A whole reply. -/
def replyBytes (opcode tag status epoch exec : Nat) (data : Bytes) : Bytes :=
  let h := pack [(2, opcode), (2, tag), (4, data.length), (2, status), (2, 0), (4, epoch), (8, exec), (4, 0)]
  h ++ le 4 (crc32c h) ++ data ++ le 4 (crc32c data)

/-- The latest posted epoch; 0 before the first. -/
def latestEpoch (s : State) : Nat :=
  match s.cmd.epochs with
  | e :: _ => e.epoch
  | [] => 0

/-- The most bytes of data that an opcode's reply can hold, with these parameters (13 R399). -/
def replyMax (opcode : Nat) (p : Bytes) : Nat :=
  match opcode with
  | 0x0801 => 4 + 4 * (leAt p 2 2 + 64)
  | 0x0802 => 4 + 64 * leAt p 0 2
  | 0x0A05 => 388
  | 0x0A11 => 4 + 80 * leAt p 4 1
  | 0x0A13 => 128
  | 0x0C01 => 516
  | 0x0C06 => leAt p 8 4 + 4
  | 0x0D01 => 7347
  | 0x0D02 => 5139
  | _ => 68

def replyTotal (s : State) : Nat := s.cmd.replies.foldl (fun n r => n + r.length) 0

/-- The reply queue can hold the largest reply of the packet. -/
def replyRoom (s : State) (p : Packet) : Bool :=
  s.cmd.replies.isEmpty || decide (replyTotal s + 36 + replyMax p.opcode p.params ≤ 65536)

/-- A reply joins the queue; the first raises MDB 0x01. A reply to firmware is kept apart (log 5). -/
def queueReply (sender : Nat) (r : Bytes) (s : State) : State :=
  if sender = 0x01 then
    let s := if s.cmd.replies.isEmpty then raiseIbi 0x01 0 0 s else s
    { s with cmd := { s.cmd with replies := s.cmd.replies ++ [r] } }
  else { s with cmd := { s.cmd with fwReply := r } }

/-- The reply to a packet, and the counts of 13 R428 and R431. -/
def reply (p : Packet) (status epoch exec : Nat) (data : Bytes) (s : State) : State :=
  let s := { s with cmd := { s.cmd with
    packetsCount := inc32 s.cmd.packetsCount 1
    refusedCount := if status = 0 then s.cmd.refusedCount else inc32 s.cmd.refusedCount 1
    badPacketsRc := if p.framing.isSome then sat 0xFF (s.cmd.badPacketsRc + 1) else s.cmd.badPacketsRc } }
  queueReply p.sender (replyBytes p.opcode p.tag status epoch exec data) s

/-! ### Execution (13 R395 to R397) -/

/-- Opcodes accepted while the boot ROM stays in control (16 R511), by their parameters. -/
def recoveryAccepts (p : Packet) : Bool :=
  p.opcode == 0x0D01 || p.opcode == 0x0D07
    || ((p.opcode == 0x0D03 || p.opcode == 0x0D04) && byteAt p.params 0 == 1)

/-- The opcodes of 13 R402 and of the blocks' own tables. -/
def opcodeKnown (o : Nat) : Bool :=
  let n := o % 0x100
  match o / 0x100 with
  | 0x01 => decide (1 ≤ n) && decide (n ≤ 4)
  | 0x02 => decide (1 ≤ n) && decide (n ≤ 5)
  | 0x03 => decide (1 ≤ n) && decide (n ≤ 4)
  | 0x04 => (decide (1 ≤ n) && decide (n ≤ 5)) || n == 0x10 || n == 0x11
  | 0x06 => decide (1 ≤ n) && decide (n ≤ 0x0B)
  | 0x07 => decide (1 ≤ n) && decide (n ≤ 4)
  | 0x08 => decide (1 ≤ n) && decide (n ≤ 6)
  | 0x09 => n == 1
  | 0x0A => (decide (1 ≤ n) && decide (n ≤ 7)) || (decide (0x10 ≤ n) && decide (n ≤ 0x16))
  | 0x0B => decide (1 ≤ n) && decide (n ≤ 4)
  | 0x0C => decide (1 ≤ n) && decide (n ≤ 6)
  | 0x0D => decide (1 ≤ n) && decide (n ≤ 9)
  | 0x0E => n == 1 || n == 2
  | _ => false

/-- An opcode's own checks and effect. -/
abbrev Body := Packet → State → Reply

/-- The checks that come before an opcode's own: freeze, recovery, unknown opcode, EPOCH. -/
def refusedFirst (p : Packet) (s : State) : Option Nat :=
  if s.flt.frozen then (if p.opcode = 0x0C06 then none else some (if opcodeKnown p.opcode then 0x04C1 else 0x01A3))
  else if !opcodeKnown p.opcode then some 0x01A3
  else if s.boot.stage = 7 ∧ !recoveryAccepts p then some 0x04D1
  else if p.epoch ≠ 0 ∧ p.epoch ≠ latestEpoch s + 1 then some 0x04A0
  else none

/-- A standby's own host is refused after the checks of lower classes (15 R494; 13 R395). -/
def standbyCheck (p : Packet) (s : State) (r : Reply) : Reply :=
  if p.sender = 0x01 ∧ isStandby s ∧ standbyRefuses p.opcode then
    match r with
    | .refuse st d => if [1, 2, 3, 5].contains (st / 0x100) then .refuse st d else .refuse 0x04C3 []
    | _ => .refuse 0x04C3 []
  else r

/-- What an executed command leaves for the twin (15 R486): the packet as executed, then its EXEC. -/
def mirrorCommand (p : Packet) (s : State) : State :=
  if isPrimary s ∧ mirrored p.opcode ∧ p.sender ≠ 0x02 then mirror 3 (packetBytes p ++ le 8 (stamp s)) s else s

/-- One packet executes and is answered. -/
def runPacket (body : Body) (p : Packet) (s : State) : State :=
  let exec := if s.flt.frozen then s.flt.frostTb else stamp s
  match p.framing with
  | some st => reply p st p.epoch 0 [] s
  | none =>
    match refusedFirst p s with
    | some st => reply p st (latestEpoch s) exec [] s
    | none =>
      match standbyCheck p s (body p s) with
      | .ok data t => reply p 0 (latestEpoch t) exec data (mirrorCommand p t)
      | .refuse st data => reply p st (latestEpoch s) exec data s
      | .refuseWith st data t => reply p st (latestEpoch s) exec data t

/-! ### Receiving (13 R390, R396; 16 R510) -/

/-- The target ACKs a command packet: not in Sleep, nor on the way out of it. -/
def hears (s : State) : Bool := s.pwr.mode != .sleep && s.pwr.waking.isNone

/-- A further packet can be held: 32 packets, 64 KiB of them and 32 MiB of staging. -/
def packetRoom (s : State) (n : Nat) : Bool :=
  let used := s.cmd.packets.foldl (fun m p => m + p.params.length + 20) 0
  decide (s.cmd.packets.length < 32) && (s.cmd.packets.isEmpty || decide (used + n + 20 ≤ 65536 + 33554432))

/-- The stack whose SRAM a command touches: a tally home, or the home of a quantisation point (R396; 14 R436). -/
def touches (s : State) (p : Packet) : Option Nat :=
  let n := leAt p.params 0 2
  if 0x0402 ≤ p.opcode ∧ p.opcode ≤ 0x0405 ∧ n < 16384 then some (stackOf (tallyHome s n))
  else if (p.opcode = 0x0410 ∨ p.opcode = 0x0411) ∧ n < 1024 then some (stackOf (if s.variant.half then n / 128 else n / 64))
  else none
/-- A powered-down domain that a command touches stalls it. -/
def stalls (s : State) (p : Packet) : Bool :=
  !s.flt.frozen && (match touches s p with | some k => !sramReady s k | none => false)
/-- A packet cannot execute yet: before the ready stamp, for want of room in the reply queue, or stalled. -/
def cannotRun (p : Packet) (s : State) : Bool :=
  (!s.boot.ready && s.boot.stage != 7 && !s.flt.frozen) || !replyRoom s p || stalls s p
/-- Packets execute at once, or wait: also behind others. -/
def mustWait (p : Packet) (s : State) : Bool := !s.cmd.packets.isEmpty || cannotRun p s
/-- The front packet's access starts the wake that it stalls on. -/
def touchFront (s : State) : State :=
  match s.cmd.packets with
  | p :: _ => if s.boot.ready && stalls s p then (match touches s p with | some k => touchSram k s | none => s) else s
  | [] => s

/-- A packet arrives whole. Firmware's commands are not packets on the bus: they execute at once. -/
def receive (body : Body) (p : Packet) (s : State) : State :=
  if p.sender ≠ 0x01 then runPacket body p s
  else if !hears s then s
  else if mustWait p s then
    if packetRoom s p.params.length then touchFront { s with cmd := { s.cmd with packets := s.cmd.packets ++ [p] } } else s
  else runPacket body p s

/-- The packet of a row. -/
def packetOf (opcode : Nat) (h : Hdr) (params : Bytes) (s : State) : Packet :=
  ⟨h.sender.toNat, opcode, h.tag.toNat, h.epoch.toNat, params, stamp s, none⟩

/-- The row of an opcode. -/
def hostRow (opcode : Nat) (body : Body) (dt : Nat) (h : Hdr) (params : Bytes) (s : State) : Host.Outcome State Fault Refusal :=
  let s := advance dt s
  .next (receive body (packetOf opcode h params s) s)

/-! ### Framing (13 R392, R395) -/

/-- The framing check that a packet fails, with the opcode and TAG of its reply. -/
def framingFailure (header params : Bytes) (crc : Nat) (extra : Bool) : Option (Nat × Nat × Nat) :=
  let op := leAt header 0 2
  let tag := leAt header 2 2
  if leAt header 12 4 ≠ crc32c (header.take 12) then some (0x01A0, 0, 0)
  else if 16777216 < leAt header 4 4 then some (0x01A2, op, tag)
  else if extra then some (0x01A2, op, tag)
  else if crc ≠ crc32c params then some (0x01A1, op, tag)
  else none

/-- A framing refusal is answered in its turn. -/
def refuseFraming (status op tag : Nat) (s : State) : State :=
  receive (fun _ _ => .refuse status []) ⟨0x01, op, tag, latestEpoch s, [], stamp s, some status⟩ s

/-- FRAMING_REFUSAL (13 R395): the packet of the row fails one of steps 1 to 4. -/
def execFramingRefusal (dt : Nat) (k : BadPacket) (s : State) : Host.Outcome State Fault Refusal :=
  let s := advance dt s
  .next (match framingFailure k.header k.params k.crc.toNat k.extra with
    | some (st, op, tag) => refuseFraming st op tag s
    | none => s)

/-- PACKET_GAP (13 R392): OPCODE and TAG come from a header that arrived whole with a good CRC. -/
def execPacketGap (dt : Nat) (header : Option Bytes) (s : State) : Host.Outcome State Fault Refusal :=
  let s := advance dt s
  .next (match header with
    | some h =>
      if h.length = 16 ∧ leAt h 12 4 = crc32c (h.take 12) then refuseFraming 0x01A2 (leAt h 0 2) (leAt h 2 2) s
      else refuseFraming 0x01A2 0 0 s
    | none => refuseFraming 0x01A2 0 0 s)

/-- OPCODE_UNKNOWN (13 R395, R402). -/
def execOpcodeUnknown (dt : Nat) (h : Hdr) (opcode : Nat) (params : Bytes) (s : State) : Host.Outcome State Fault Refusal :=
  let s := advance dt s
  .next (if opcodeKnown opcode then s else receive (fun _ _ => .refuse 0x01A3 []) (packetOf opcode h params s) s)

/-! ### TIME commands (02 R52) -/

/-- TIME_READ. -/
def execTimeRead : Nat → Hdr → Bytes → State → Host.Outcome State Fault Refusal := hostRow 0x0101 timeReadBody
/-- SLOT_POST. -/
def execSlotPost : Nat → Hdr → Bytes → State → Host.Outcome State Fault Refusal := hostRow 0x0102 slotPostBody
/-- SLOT_CANCEL. -/
def execSlotCancel : Nat → Hdr → Bytes → State → Host.Outcome State Fault Refusal := hostRow 0x0103 slotCancelBody
/-- SLOT_QUERY. -/
def execSlotQuery : Nat → Hdr → Bytes → State → Host.Outcome State Fault Refusal := hostRow 0x0104 slotQueryBody

end Sys2Proof.Machine
end

