-- ==== Sys2Proof/Machine/ParamWrite.lean ====
section
/-! DEFINITION. PARAM_WRITE: the checks of each entry, what it stages and what it applies at once (13 R403 to R406, with the
tables of the blocks). -/
namespace Sys2Proof.Machine

/-! ### The values that a check uses (13 R404, R406) -/

/-- The value of an ID where one has been given: in the packet, else staged, else posted. -/
def given (s : State) (new : Tab Nat) (id : Nat) : Option Nat :=
  match Tab.find new id with
  | some v => some v
  | none =>
    match Tab.find s.cmd.staged id with
    | some v => some v
    | none => Tab.find s.cmd.posted id

/-- The value that an ID will hold once the packet is applied. -/
def future (s : State) (new : Tab Nat) (id : Nat) : Nat := (given s new id).getD (paramDefault s id)

/-! ### Consistency of a stream (03 R63, R75; 04 R112, R115, R121, R128) -/

/-- The strobes that a stream has, as numbers. -/
def strobesOf (f : Nat → Nat) (b : Nat) : List Nat := (List.range 4).filter (fun j => f (b + 0x200 + j * 0x10) != 0xFF)

/-- The width of a stream as its parameters give it, or the width in force. -/
def futureWidth (s : State) (f : Nat → Nat) (k : Nat) : Nat :=
  let p := f (0x02000006 + k * 0x10000)
  if p = 0 then (streamAt s k).pixels else p

/-- The edge window agrees with the width (03 R63). -/
def windowOk (s : State) (new : Tab Nat) (k : Nat) : Bool :=
  let b := 0x02000000 + k * 0x10000
  let w := futureWidth s (future s new) k
  let x0 := future s new (b + 0x31)
  match given s new (b + 0x32) with
  | some x1 => decide (x0 + 63 ≤ x1) && (w == 0 || decide (x1 < w))
  | none => w == 0 || decide (x0 + 63 < w)

/-- The stream's INTK parameters agree with one another, and with what its KIND allows preparation (03 R63, R75; 04 R128). -/
def streamConsistent (s : State) (new : Tab Nat) (k : Nat) : Bool :=
  let f := future s new
  let b := 0x02000000 + k * 0x10000
  let pr := 0x03000000 + k * 0x10000
  let dt := f (b + 0x03)
  let ch := f (b + 0x04)
  let period := f (b + 0x10)
  let kind := f b
  (if dt = 0x24 then ch == 3 && f (b + 0x05) == 0 && (List.range 3).all (fun c => f (b + 0x100 + c * 0x10) == 0)
   else f (b + 0x05) != 0 || ch == 1)
    && (f (b + 0x30) == 4 || decide (f (b + 0x30) < ch))
    && decide ((given s new (b + 0x22)).getD (f (b + 0x21)) ≤ f (b + 0x21))
    && (f (b + 0x20) != 2 || f (b + 0x23) != 0xFF)
    && (strobesOf f b).all (fun j =>
      period != 0 && decide (f (b + 0x201 + j * 0x10) + 100 ≤ period)
        && decide (f (b + 0x201 + j * 0x10) + f (b + 0x202 + j * 0x10) + f (b + 0x15) ≤ period))
    && decide (f (b + 0x40) + 1024 ≤ f (b + 0x41))
    && windowOk s new k
    && (kind == 1 || (f (pr + 0x10) != 3 && f (pr + 0x20) == 0))
    && (kind != 0 || !bit (f (pr + 0x30)) 0)

/-- A written PREP value agrees with R112, R115, R121 and with the width (04 R128). -/
def prepConsistent (s : State) (new : Tab Nat) (k n v : Nat) : Bool :=
  let f := future s new
  let pr := 0x03000000 + k * 0x10000
  let kind := f (0x02000000 + k * 0x10000)
  let w := futureWidth s f k
  match n with
  | 0x02 => w == 0 || decide (v + 64 ≤ w)
  | 0x03 => w == 0 || decide (v + f (pr + 0x02) ≤ w)
  | 0x10 => (v != 3 || kind == 1) && (v == 0 || f (pr + 0x20) == 0)
  | 0x20 => v == 0 || (kind == 1 && f (pr + 0x10) == 0)
  | 0x30 => !bit v 0 || kind != 0
  | _ => true

/-! ### Other blocks -/

/-- Two ranges of numbers meet. -/
def meet (a n b m : Nat) : Bool := n != 0 && m != 0 && decide (a < b + m) && decide (b < a + n)

/-- Host and reference-count tally ranges, as they will be (05 R180; 09 R279; 13 R414). -/
def talliesOk (f : Nat → Nat) : Bool :=
  decide (f 0x04000002 + f 0x04000003 ≤ 16384) && decide (f 0x06000005 + f 0x06000006 ≤ 16384)
    && !meet (f 0x04000002) (f 0x04000003) (f 0x06000005) (f 0x06000006)

/-- The marks of the output ring, as they will be (12 R383). -/
def marksOk (s : State) (new : Tab Nat) : Bool :=
  let f := future s new
  let ring := f 0x09F00002
  let high := (given s new 0x09F00003).getD (ring / 2)
  let low := (given s new 0x09F00004).getD (ring / 4)
  decide (high + f 0x09F00005 + 2 ^ 26 ≤ ring) && decide (low + 2 ^ 25 ≤ high)

/-- The roles that the output parameters give to a virtual channel of a port (12 R358): image of a stream, records, marks. -/
def vcRoles (s : State) (f : Nat → Nat) (p vc : Nat) : List Nat :=
  let o := fun k n => f (0x09000000 + k * 0x10000 + n)
  let img := (List.range 12).filter (fun k => o k 0x02 == p && o k 0x03 == vc)
  let rec_ := if (List.range 12).any (fun k => o k 0x00 == p && o k 0x01 == vc) then [100] else []
  let mark := if f (0x09E00005 + p * 0x100) = vc then [101] else []
  let tw := if par s 0x0C000010 = 1 ∧ p = twinPort s ∧ (f 0x0C000014 = vc ∨ !s.variant.half) then [102] else []
  img ++ rec_ ++ mark ++ tw

def rolesOk (s : State) (f : Nat → Nat) : Bool :=
  (List.range s.variant.txPorts).all (fun p => (List.range 16).all (fun vc => decide ((vcRoles s f p vc).length ≤ 1)))

/-- A write names what twin mirroring holds (12 R358). -/
def namesTwin (s : State) (f : Nat → Nat) (k : Nat) : Bool :=
  par s 0x0C000010 == 1 &&
    [(0x00, 0x01), (0x02, 0x03)].any (fun e =>
      f (0x09000000 + k * 0x10000 + e.1) == twinPort s
        && (!s.variant.half || f (0x09000000 + k * 0x10000 + e.2) == f 0x0C000014))

/-- DDR4 ranges that the model knows the place of (13 R415): slab pool, slab table, output ring, firmware, image copy, and
the DMA windows of jobs. -/
def ddrRegions (s : State) (f : Nat → Nat) : List (Nat × Nat) :=
  let slot := (s.image.map Image.slotBytes).getD 1
  [(f 0x06000001, f 0x06000002), (f 0x06000003, 32 * (f 0x06000002 / (if slot = 0 then 1 else slot))), (f 0x09F00001, f 0x09F00002),
   Config.ddrFirmware, Config.ddrImage]
  ++ ((s.image.map (fun i => i.jobs.flatMap (fun j => j.2.windows))).getD [])

/-- The region at a position meets another one. -/
def regionMeets (l : List (Nat × Nat)) (i : Nat) : Bool :=
  let a := nth l i (0, 0)
  (List.range l.length).any (fun j => j != i && meet a.1 a.2 (nth l j (0, 0)).1 (nth l j (0, 0)).2)

/-- Streams that name a receive port, or a transmit port, and are open. -/
def rxPortOpen (s : State) (p : Nat) : Bool := (openStreams s).any (fun k => ipar s k 0x01 == p)
def txPortOpen (s : State) (p : Nat) : Bool := (openStreams s).any (fun k => opar s k 0x00 == p || opar s k 0x02 == p)

/-- The bytes that resident grammars and class tables occupy (11 R337, R352). -/
def grammarBytes (s : State) : Nat :=
  s.text.grammars.foldl (fun n e => n + e.2.length) 0 + s.text.classTables.foldl (fun n e => n + e.2.length) 0

/-- Bytes of commons that band slots of open streams take in a cluster, and where the image area ends (13 R416). A band slot
holds its header and the pyramid of one band (04 R105). -/
def bandBytes (w levels : Nat) : Nat :=
  32 + (List.range levels).foldl (fun n l => n + (w / 2 ^ l) * (32 / 2 ^ l) * 3) 0

def bandsIn (s : State) (c : Nat) : Nat :=
  (openStreams s).foldl (fun n k =>
    if bit (ppar s k 0x07) c then n + ppar s k 0x06 * bandBytes (widthOf s k) (ppar s k 0x05) else n) 0

/-- Image area, band slots, grammar area and slab area fit in every cluster's commons (13 R416). -/
def commonsFit (s : State) (f : Nat → Nat) : Bool :=
  (List.range s.variant.clusters).all (fun c =>
    decide ((s.image.map Image.commonsBytes).getD 0 + bandsIn s c + (f 0x08000001 + f 0x06000007) * 1024 ≤ 4194304))

/-- A decode line is open: 1 waiting, 2 normal, 3 slow (10 R309). -/
def lineOpen (l : Line) : Bool := decide (1 ≤ l.state) && decide (l.state ≤ 3)

/-- The owner of a pin that intake holds. -/
def pinHeld (s : State) (p : Nat) : Bool := nth s.pins.owners p .free != .free

/-- A pin loses its function while that function still needs it (17 R543). -/
def pinBusy (s : State) (p v : Nat) : Bool :=
  (pinFunc s p == 1 && v != 1 &&
    s.fc.slots.any (fun e => (e.2.cls == 0x01 || e.2.cls == 0x03) && e.2.index == p && e.2.pool == .host))
  || (pinFunc s p == 4 && v != 4 && par s 0x0C000010 == 1)

/-- Why twin operation may not be enabled (15 R485). -/
def twinDenied (s : State) (f : Nat → Nat) : Option Nat :=
  let p := twinPort s
  let vc := f 0x0C000014
  let o := fun k n => f (0x09000000 + k * 0x10000 + n)
  if (openStreams s).any (fun k => ipar s k 0x01 == f 0x0C000012 && ipar s k 0x02 == f 0x0C000013) then some 0x0221
  else if s.variant.half then
    if (List.range 12).any (fun k => (o k 0 == p && o k 1 == vc) || (o k 2 == p && o k 3 == vc)) || f (0x09E00005 + p * 0x100) == vc
    then some 0x0290 else none
  else if (List.range 12).any (fun k => o k 0 == p || o k 2 == p) || s.fc.slots.any (fun e => e.2.cls == 0x0B && e.2.index == p)
    then some 0x0291
  else none

/-! ### The check of one entry, in ascending class (13 R395) -/

/-- A value tied to other parameters, or to what the resource holds: class 0x01. -/
def tiedOk (s : State) (new : Tab Nat) (id v : Nat) : Bool :=
  let low := id % 0x1000000
  let hi := low / 0x10000
  let mid := low / 0x100 % 0x100
  match id / 0x1000000 with
  | 0x02 => hi = 0xF0 || streamConsistent s new hi
  | 0x03 => hi ≥ 12 || prepConsistent s new hi (low % 0x100) v
  | 0x04 => !(low == 2 || low == 3) || talliesOk (future s new)
  | 0x06 => !(low == 5 || low == 6) || talliesOk (future s new)
  | 0x07 => (low != 5 || v % 2 == 1) && (hi != 0x10 || mid < 16)
  | 0x09 => hi != 0xF0 || !(decide (2 ≤ low % 0x100) && decide (low % 0x100 ≤ 5)) || marksOk s new
  | _ => true

/-- What refuses an entry whose value is in range: classes 0x02, 0x03 and 0x04, in order. -/
def stateRefusal (s : State) (new : Tab Nat) (id v : Nat) (ch : Change) : Option Nat :=
  let f := future s new
  let low := id % 0x1000000
  let hi := low / 0x10000
  let mid := low / 0x100 % 0x100
  let n := low % 0x100
  match id / 0x1000000 with
  | 0x01 => if low = 0x10 ∧ poolSize s .host < poolUsed s .host + (v - par s 0x01000010) then some 0x0310 else none
  | 0x02 =>
    if ch != .c then none
    else if hi = 0xF0 then (if rxPortOpen s mid then some 0x0420 else none)
    else if (streamAt s hi).state ≠ 0 then some 0x0420 else none
  | 0x03 =>
    if hi < 12 ∧ n = 0x20 ∧ v = 1 ∧ 2 ≤ ((List.range 12).filter (fun k => k != hi && f (0x03000020 + k * 0x10000) == 1)).length
    then some 0x0230
    else if ch = .c ∧ (streamAt s hi).state ≠ 0 then some 0x0420 else none
  | 0x06 =>
    if (low = 1 ∨ low = 2) ∧ (regionMeets (ddrRegions s f) 0 ∨ 2 ^ 40 < f 0x06000001 + f 0x06000002) then some 0x02A0
    else if (low = 2 ∨ low = 3) ∧ regionMeets (ddrRegions s f) 1 then some 0x02A0
    else if low = 7 ∧ !commonsFit s f then some 0x03A3
    else if ch = .z ∧ (!s.slab.seqs.isEmpty ∨ !s.slab.prefixes.isEmpty) then some 0x0460
    else none
  | 0x08 =>
    if s.serv.lines.any lineOpen then some 0x0482
    else if v * 1024 < grammarBytes s ∨ !commonsFit s f then some 0x0380
    else none
  | 0x09 =>
    if hi < 12 then
      if n ≤ 3 ∧ namesTwin s f hi then some 0x0291
      else if n ≤ 3 ∧ !rolesOk s f then some 0x0290
      else if ch = .c ∧ (streamAt s hi).state ≠ 0 then some 0x0490 else none
    else if hi = 0xE0 then
      if n = 5 ∧ !rolesOk s f then some 0x0290
      else if ch = .c ∧ txPortOpen s mid then some 0x0490 else none
    else if (n = 1 ∨ n = 2) ∧ regionMeets (ddrRegions s f) 2 then some 0x02A0
    else if ch = .z ∧ (!(openStreams s).isEmpty ∨ !s.out.ring.isEmpty) then some 0x0491
    else none
  | 0x0C =>
    if ch != .t ∨ (low = 0x10 ∧ v = 0) then none
    else
      match (if low = 0x10 then twinDenied s f else none) with
      | some st => some st
      | none => if par s 0x0C000010 = 1 ∨ !(openStreams s).isEmpty then some 0x04C4 else none
  | 0x0E =>
    if ch != .p then none
    else if pinHeld s mid then some 0x0220
    else if n = 0 ∧ pinBusy s mid v then some 0x04E0 else none
  | _ => none

/-- Why an entry is refused, if it is. `raw` is its 8-byte value, `res` says that its reserved bytes are 0. -/
def entryRefusal (s : State) (new : Tab Nat) (id raw : Nat) (res : Bool) : Option Nat :=
  match paramInfo s id with
  | .unknown => some 0x01A4
  | .absent st => some st
  | .known i =>
    if i.change = .ro then some 0x01A5
    else if !res then some 0x01A8
    else if i.width = 4 ∧ 2 ^ 32 ≤ raw then some 0x01A8
    else if !i.range.ok raw ∨ !tiedOk s new id raw then some i.status
    else stateRefusal s new id raw i.change

def stagedCode : Change → Bool
  | .s | .b | .e => true
  | _ => false

/-- The entry is staged rather than applied. -/
def isStaged (s : State) (id : Nat) : Bool :=
  match paramInfo s id with
  | .known i => stagedCode i.change
  | _ => false

/-! ### Applying a value at EXEC (13 R405; 17 R541 to R543; 15 R495) -/

/-- What a value that takes effect at once brings about beside itself. -/
def applied (id v : Nat) (s : State) : State :=
  let low := id % 0x1000000
  match id / 0x1000000 with
  | 0x0E =>
    let p := low / 0x100 % 0x100
    let fn := pinFunc s p
    if fn = 0 ∨ fn = 2 ∨ fn = 3 then releasePin p s
    else if fn = 1 then drive p (pinLow s p) s
    else funcPins s
  | 0x0C =>
    if low = 0x10 then
      if v = 1 then
        refreshPorts (hold 4 1 .twin
          { s with twin := { Twin.reset with listening := some (stamp s + 3 * par s 0x0C000015), snapshot := false } })
      else refreshPorts (giveBack .twin { s with twin := Twin.reset, out := { s.out with
        records := s.out.records.filter (fun r => r.kind != 0) } })
    else s
  | _ => s

/-- A value takes effect at once: it is the posted value and the value in force. -/
def applyNow (id v : Nat) (s : State) : State :=
  applied id v { s with cmd := { s.cmd with posted := Tab.set s.cmd.posted id v, inForce := Tab.set s.cmd.inForce id v } }

/-- A value is staged. -/
def stageValue (id v : Nat) (s : State) : State := { s with cmd := { s.cmd with staged := Tab.set s.cmd.staged id v } }

/-- AUTO_OPEN becomes 0 and discovery stops (16 R515). -/
def endDiscovery (s : State) : State :=
  { s with
    cmd := { s.cmd with posted := Tab.set s.cmd.posted 0x0D000005 0, inForce := Tab.set s.cmd.inForce 0x0D000005 0 }
    boot := { s.boot with hostTookIntake := true } }

/-- The entries of a packet: ID, value, and whether the reserved bytes are 0. -/
def writeEntries (p : Bytes) : List (Nat × Nat × Bool) :=
  (List.range (leAt p 0 2)).map (fun i => (leAt p (4 + 16 * i) 4, leAt p (12 + 16 * i) 8, resZero p (8 + 16 * i) 4))

/-- The last entry of each ID. -/
def lastEntries (l : List (Nat × Nat × Bool)) : Tab Nat := l.foldl (fun t e => Tab.set t e.1 e.2.1) []

/-- The first entry that fails: index and status. STAGE_FULL counts what the packet would have staged up to there. -/
def firstRefusal (s : State) (new : Tab Nat) : Nat → Tab Nat → List (Nat × Nat × Bool) → Option (Nat × Nat)
  | _, _, [] => none
  | i, st, e :: r =>
    match entryRefusal s new e.1 e.2.1 e.2.2 with
    | some x => some (i, x)
    | none =>
      let st' := if isStaged s e.1 then Tab.set st e.1 e.2.1 else st
      if 512 < st'.length then some (i, 0x03A0) else firstRefusal s new (i + 1) st' r

/-- Every entry of a packet that has passed its checks is applied or staged, in the order of IDs. -/
def applyEntries (new : Tab Nat) (s : State) : State :=
  new.foldl (fun s e => if isStaged s e.1 then stageValue e.1 e.2 s else applyNow e.1 e.2 s) s

/-- PARAM_WRITE (13 R404, R406; 16 R515). -/
def paramWriteBody (p : Packet) (s : State) : Reply :=
  let n := leAt p.params 0 2
  if p.params.length ≠ 4 + 16 * n ∨ n = 0 ∨ 64 < n ∨ !resZero p.params 2 2 then .refuse 0x01A8 []
  else
    let es := writeEntries p.params
    let new := lastEntries es
    match firstRefusal s new 0 s.cmd.staged es with
    | some (i, st) => .refuse st (le 2 i)
    | none =>
      let t := applyEntries new s
      let ends := new.any (fun e => e.1 == 0x0D000005) || (p.sender == 0x01 && new.any (fun e => e.1 / 0x1000000 == 0x02))
      .ok [] (if ends ∧ p.sender = 0x01 then endDiscovery t else t)

/-- PARAM_WRITE. -/
def execParamWrite : Nat → Hdr → Bytes → State → Host.Outcome State Fault Refusal := hostRow 0x0A02 paramWriteBody

end Sys2Proof.Machine
end

