-- ==== Sys2Proof/Machine/ParamRead.lean ====
section
/-! DEFINITION. PARAM_READ, and the value of every read-only parameter (13 R404, R428; 02 R53; 03 R63; 04 R128; 05 R180;
09 R279; 10 R322; 11 R352; 12 R383; 14 R462; 15 R499; 16 R523; 17 R558). -/
namespace Sys2Proof.Machine

/-- VOCAB and MAXLEN of the loaded dictionary; 0 without one (11 R327, R352). -/
def vocab (s : State) : Nat := if s.text.dict = [] then 0 else 0x110 + leAt s.text.dict 4 4
def maxLen (s : State) : Nat := if s.text.dict = [] then 0 else byteAt s.text.dict 2

/-- The median of a bucket (10 R310): of the lines seen, or BUDGET_MIN ÷ BUDGET_MULT rounded up. -/
def medianOf (s : State) (j b : Nat) : Nat :=
  let w := nth (nth s.serv.jobs j Job.reset).windows b []
  if w = [] then ceilDiv (jpar s j 0x07000004) (jpar s j 0x07000003)
  else nth (sortBy (fun x => x) w) ((w.length - 1) / 2) 0

/-- Lines of a job in a state (10 R309). -/
def linesIn (s : State) (j st : Nat) : Nat := (s.serv.lines.filter (fun l => l.job == j && l.state == st)).length

/-- The valid directory copy with the higher GENERATION (16 R504). -/
def directory (s : State) : Option Directory :=
  if !s.flash.usable then none
  else s.flash.copies.foldl (fun m c =>
    match m, c with
    | none, c => c
    | some d, some e => if d.generation < e.generation then some e else some d
    | some d, none => some d) none

/-- Bands released that wait for a slot (04 R128). -/
def bandsWaiting (s : State) : Nat :=
  s.prep.sheets.foldl (fun n h => if h.waitingSince.isSome then n + (h.released.length - h.prepared) else n) 0

/-- Busy cores of a cluster, as a mask: neither idle nor powered down (05 R180). -/
def coresBusy (s : State) (c : Nat) : Nat := maskOf ((List.range 8).filter (fun i => decide (1 < (coreAt s (8 * c + i)).state)))

def streamRo (s : State) (k n : Nat) : Nat :=
  let t := streamAt s k
  match n with
  | 0x80 => t.state
  | 0x81 => t.linesRx
  | 0x82 => t.linesSubst
  | 0x83 => t.accepted
  | 0x84 => t.refused
  | _ => t.discarded

def prepRo (s : State) (k n : Nat) : Nat :=
  let c := nth s.prep.counts k ⟨0, 0, 0, 0, 0, 0, 0⟩
  nth [c.prepared, c.cut, c.corrupt, c.stale, c.adopted, c.withdrawn, c.fallbacks] (n - 0x80) 0

def classRo (s : State) (c n : Nat) : Nat :=
  let k := nth s.prep.classes c ⟨0, 0, 0⟩
  match s.image.bind (fun i => Tab.find i.classes c) with
  | none => 0
  | some d => if n < 0x10 then nth [0, d.bMax, d.hc, d.wc, d.channels, b2n d.aug] n 0 else nth [k.batches, k.fillers, k.corrupt] (n - 0x10) 0

def jobRo (s : State) (j n : Nat) : Nat :=
  match s.image.bind (fun i => Tab.find i.jobs j) with
  | none => 0
  | some d =>
    if n = 0x00 then d.kind else if n = 0x01 then d.clusters else if n = 0x14 then d.maxTokens
    else if n < 0x28 then medianOf s j (n - 0x20)
    else if n = 0x30 then (nth s.serv.jobs j Job.reset).stepLast
    else if n = 0x31 then linesIn s j 2 else linesIn s j 3

def clusterRo (s : State) (c n : Nat) : Nat :=
  match n with
  | 0x00 => (match nth s.pwr.points c none with | some k => nth (ageAt s c).mhz k 0 | none => 0)
  | 0x01 => coresBusy s c
  | 0x02 => (clusterAt s c).tilesRun
  | _ => Config.bankConflicts c (stamp s) % 2 ^ 32

def pwrClusterRo (s : State) (c n : Nat) : Nat :=
  if n = 0x01 then (nth s.pwr.points c none).getD 0xFF
  else if n < 0x20 then nth (ageAt s c).mhz (n - 0x10) 0
  else if n = 0x20 then 0 else nth (ageAt s c).mv (n - 0x20) 0

def portRo (s : State) (p n : Nat) : Nat :=
  let t := nth s.out.ports p TxPort.reset
  nth [t.bytesSent, t.framesSent, t.holdNs] (n - 0x80) 0

/-- The value of a read-only parameter now. -/
def roValue (s : State) (id : Nat) : Nat :=
  let low := id % 0x1000000
  let hi := low / 0x10000
  let mid := low / 0x100 % 0x100
  let n := low % 0x100
  match id / 0x1000000 with
  | 0x01 =>
    (match n with
    | 0x01 => stamp s
    | 0x11 => poolSize s .host
    | 0x12 => s.fc.slots.length
    | 0x13 => s.fc.lateLaunches
    | 0x20 => s.clk.pAon
    | 0x21 => s.clk.lastSleepTicks
    | _ => s.clk.lastSleepTb)
  | 0x02 => streamRo s hi n
  | 0x03 => if hi < 12 then prepRo s hi n else if hi = 0x40 then classRo s mid n else bandsWaiting s
  | 0x04 =>
    if hi = 0x10 then clusterRo s mid n
    else nth [s.ctxCounts.saves, s.ctxCounts.restores, s.ctxCounts.bytes, s.ctxCounts.completed] (n - 0x10) 0
  | 0x06 => if n = 0x0D then (s.image.map Image.slotBytes).getD 0 else nth s.slab.counts (n - 0x80) 0
  | 0x07 => if hi = 0x10 then jobRo s mid n else nth s.serv.counts (n - 0x80) 0
  | 0x08 =>
    (match n with
    | 0x10 => vocab s
    | 0x11 => maxLen s
    | 0x12 => s.text.grammars.length
    | 0x13 => par s 0x08000001 * 1024 - grammarBytes s
    | _ => nth s.text.counts (n - 0x80) 0)
  | 0x09 =>
    if hi = 0xE0 then portRo s mid n
    else nth [occupancy s, b2n s.out.high, s.out.sheets, s.out.amendments, s.out.notices, s.out.marksLate] (n - 0x80) 0
  | 0x0A =>
    (match n with
    | 0x01 => partId s.variant
    | 0x02 => s.cmd.staticAddr
    | 0x03 => s.cmd.dynAddr
    | 0x20 => latestEpoch s
    | _ => nth [s.cmd.packetsCount, s.cmd.refusedCount, s.cmd.ibiCount, s.cmd.deniedCount, s.cmd.lostCount] (n - 0x80) 0)
  | 0x0B =>
    if hi = 0x10 then pwrClusterRo s mid n
    else nth [deviceState s, s.pwr.poweredNs, s.pwr.wakes, s.pwr.ledgerWaits, twos 32 s.pwr.tjMax, Config.freeNat s.freeCtr % 2 ^ 32] (n - 0x80) 0
  | 0x0C => nth [s.flt.faults, s.flt.sidesDiscarded, s.flt.sramCe, s.flt.ddrCe, s.flt.ddrUeIdle, s.flt.takeovers] (n - 0x80) 0
  | 0x0D =>
    (match n with
    | 0x01 => ((directory s).map Directory.bootNumber).getD 0
    | 0x02 => s.boot.readyTb
    | 0x03 => s.boot.fwSvn
    | 0x04 => s.boot.imageSvn
    | _ => s.flash.bytes)
  | _ => if hi = 0xF0 then twos 32 s.pwr.tjMax else nth s.pins.edges mid 0

/-- The value that PARAM_READ returns under a view, and whether one is staged. -/
def readParam (s : State) (i : ParamInfo) (id view : Nat) : Nat × Bool :=
  if i.change = .ro then (roValue s id, false)
  else
    match Tab.find s.cmd.staged id with
    | some v => (if view = 1 then v else posted s id, true)
    | none => (posted s id, false)

/-- PARAM_READ (13 R404, R427). -/
def paramReadBody (p : Packet) (s : State) : Reply :=
  let q := p.params
  let id := leAt q 0 4
  if q.length ≠ 8 ∨ 1 < byteAt q 4 ∨ !resZero q 5 3 then .refuse 0x01A8 []
  else
    match paramInfo s id with
    | .unknown => .refuse 0x01A4 []
    | .absent st => .refuse st []
    | .known i =>
      let r := readParam s i id (byteAt q 4)
      .ok (pack [(4, id), (1, i.width), (1, b2n r.2), (2, 0), (8, r.1)]) (if id = 0x0B000085 then (draw s).2 else s)

/-- PARAM_READ. -/
def execParamRead : Nat → Hdr → Bytes → State → Host.Outcome State Fault Refusal := hostRow 0x0A01 paramReadBody

end Sys2Proof.Machine
end

