-- ==== Sys2Proof/Machine/Epoch.lean ====
section
/-! DEFINITION. Configuration epochs and quiet points (13 R405 to R411), and who owns a shared resource (R413, R414). -/
namespace Sys2Proof.Machine

/-! ### Adoption (13 R408) -/

/-- No unit adopts while a quiet epoch is scheduled or its window is open (13 R411). -/
def mayAdopt (s : State) : Bool := s.cmd.quiet.isNone

/-- The posted values of the IDs named come into force. -/
def adoptIds (p : Nat → Bool) (s : State) : State :=
  { s with cmd := { s.cmd with
      inForce := (s.cmd.posted.filter (fun e => p e.1)).foldl (fun t e => Tab.set t e.1 e.2) s.cmd.inForce } }

/-- The change code of an ID; RO where it names nothing. -/
def changeOf (s : State) (id : Nat) : Change :=
  match paramInfo s id with
  | .known i => i.change
  | _ => .ro

/-- The IDs of a stream's INTK, PREP and OUT parameters of code S. -/
def streamId (s : State) (k id : Nat) : Bool :=
  [0x0200 + k, 0x0300 + k, 0x0900 + k].contains (id / 0x10000) && changeOf s id == .s

/-- The IDs that blocks other than jobs adopt: code E, and the device-wide PREP value of code S (log 12). -/
def blockId (s : State) (id : Nat) : Bool :=
  (changeOf s id == .e && !(id / 0x10000 == 0x09E0 && id % 0x100 == 4)) || id == 0x03F00001

/-- A stream reaches a boundary (03 R82). -/
def adoptStream (k : Nat) (s : State) : State :=
  if mayAdopt s ∧ nth s.cmd.streamEpochs k 0 ≠ latestEpoch s then
    let e := latestEpoch s
    let s := adoptIds (streamId s k) s
    modStream k (fun t => { t with epoch := e })
      { s with cmd := { s.cmd with streamEpochs := setNth s.cmd.streamEpochs k e } }
  else s

/-- A batch class reaches a close (04 R117). -/
def adoptClass (c : Nat) (s : State) : State :=
  if mayAdopt s then
    let e := latestEpoch s
    let s := adoptIds (fun id => id / 0x100 == 0x034000 + c) s
    { s with cmd := { s.cmd with classEpochs := setNth s.cmd.classEpochs c e } }
  else s

/-- A job begins to build a step (10 R321). -/
def adoptJob (j : Nat) (s : State) : State :=
  if mayAdopt s then
    let v := s.cmd.posted.filter (fun e => e.1 / 0x1000000 == 0x07 || e.1 / 0x1000000 == 0x08)
    { s with cmd := { s.cmd with
        jobParams := setNth s.cmd.jobParams j v
        jobEpochs := setNth s.cmd.jobEpochs j (latestEpoch s) } }
  else s

/-- Every other block adopts. -/
def adoptBlocks (s : State) : State :=
  let e := latestEpoch s
  let s := adoptIds (blockId s) s
  { s with cmd := { s.cmd with deviceEpoch := e } }

/-- EPOCH_ADOPTION (13 R408). -/
def execEpochAdoption (dt : Nat) (s : State) : Host.Outcome State Fault Refusal :=
  let s := advance dt s
  .next (if awake s && mayAdopt s then adoptBlocks s else s)

/-! ### Posting (13 R406, R407, R409 to R411) -/

/-- The first staged value that no longer passes its checks. -/
def recheck (s : State) : List (Nat × Nat) → Option Nat
  | [] => none
  | e :: r =>
    match entryRefusal s [] e.1 e.2 true with
    | some st => some st
    | none => recheck s r

/-- The bit of CHANGED that a quiet item sets (log 12). -/
def itemBlock : QuietItem → Nat
  | .adapters _ _ => 0x0A
  | .image => 0x0D

/-- The binding in force for a (KIND, TAG). -/
def bindingOf (l : List ((Nat × Nat) × (Nat × Nat))) (k : Nat × Nat) : Option (Nat × Nat) :=
  (l.find? (fun e => e.1 == k)).map Prod.snd

/-- A staged binding or stop set differs from the posted one. -/
def textChanged (s : State) : Bool :=
  s.text.stagedBinds.any (fun e => (bindingOf s.text.bindings e.1).getD (0xFF, 0xFF) != e.2)
    || s.text.stagedStops.any (fun e => Tab.get s.text.stops e.1 [] != e.2)

/-- CHANGED of the epoch that a post would make (13 R409). -/
def changedMask (s : State) : Nat :=
  maskOf ((s.cmd.staged.filter (fun e => posted s e.1 != e.2)).map (fun e => e.1 / 0x1000000)
    ++ s.cmd.stagedItems.map itemBlock ++ (if textChanged s then [8] else []))

/-- A binding is put in its place; one to no grammar and no stop set is removed (11 R351). -/
def putBinding (l : List ((Nat × Nat) × (Nat × Nat))) (e : (Nat × Nat) × (Nat × Nat)) : List ((Nat × Nat) × (Nat × Nat)) :=
  let r := l.filter (fun x => x.1 != e.1)
  if e.2 = (0xFF, 0xFF) then r else r ++ [e]

/-- The staged bindings and stop sets take effect with the epoch (11 R351). -/
def postText (s : State) : State :=
  { s with text := { s.text with
      bindings := s.text.stagedBinds.foldl putBinding s.text.bindings
      stops := s.text.stagedStops.foldl (fun t e => Tab.set t e.1 e.2) s.text.stops
      stagedBinds := [], stagedStops := [] } }

/-- The rails' budgets as posted. -/
def postedBudgets (s : State) : List Nat := (List.range 4).map (fun i => posted s (0x0B000001 + i))

/-- The staged set becomes the next epoch. -/
def postEpoch (quietDue : Option Nat) (s : State) : State :=
  let n := latestEpoch s + 1
  let ch := changedMask s
  let staged := s.cmd.staged
  let q : Option Quiet := quietDue.map (fun d => ⟨n, d, s.cmd.stagedItems, 1, 0, 0⟩)
  let s := { s with cmd := { s.cmd with
    posted := staged.foldl (fun t e => Tab.set t e.1 e.2) s.cmd.posted
    staged := [], stagedItems := []
    epochs := (⟨n, ch, stamp s⟩ :: s.cmd.epochs).take 16
    quiet := q } }
  let s := if quietDue.isNone then postText s else s
  let s := if postedBudgets s ≠ s.pwr.budgets ∧ quietDue.isNone then
    { s with pwr := { s.pwr with budgetDue := some (stamp s) } } else s
  let s := match quietDue with
    | some d => addSlot (newSlot s d 0x0A 0 0x10 n 0 .housekeeping (.quiet n)) s
    | none => s
  cmdEvent 1 0xFF 0 n ch 0 s

/-- EPOCH_POST (13 R406, R407, R410). -/
def epochPostBody (p : Packet) (s : State) : Reply :=
  let q := p.params
  let flags := leAt q 0 4
  let due := leAt q 8 8
  let quiet := bit flags 0
  if q.length ≠ 16 ∨ 1 < flags ∨ !resZero q 4 4 ∨ (!quiet ∧ due ≠ 0) ∨ (quiet ∧ due < stamp s + 1000000) then .refuse 0x01A8 []
  else
    match recheck s s.cmd.staged with
    | some st => .refuse st []
    | none =>
      if quiet ∧ poolSize s .housekeeping ≤ poolUsed s .housekeeping then .refuse 0x0310 []
      else if !quiet ∧ s.cmd.stagedItems ≠ [] then .refuse 0x04A1 []
      else if s.cmd.quiet.isSome then .refuse 0x04A3 []
      else if s.cmd.staged = [] ∧ s.cmd.stagedItems = [] ∧ s.text.stagedBinds = [] ∧ s.text.stagedStops = [] then .refuse 0x04A4 []
      else
        let t := postEpoch (if quiet then some due else none) s
        .ok (pack [(4, latestEpoch t), (4, 0), (8, stamp s)]) t

/-- EPOCH_DISCARD (13 R407). -/
def epochDiscardBody (p : Packet) (s : State) : Reply :=
  if p.params ≠ [] then .refuse 0x01A8 []
  else .ok (le 4 s.cmd.staged.length)
    { s with cmd := { s.cmd with staged := [], stagedItems := [] }, text := { s.text with stagedBinds := [], stagedStops := [] } }

/-- EPOCH_STATUS (13 R409, R427). -/
def epochStatusBody (p : Packet) (s : State) : Reply :=
  if p.params ≠ [] then .refuse 0x01A8 []
  else
    let hist := (List.range 16).flatMap (fun i =>
      let e := nth s.cmd.epochs i ⟨0, 0, 0⟩
      pack [(4, e.epoch), (4, e.changed), (8, e.stamp)])
    let jobs := (List.range 16).flatMap (fun j =>
      le 4 (if (s.image.bind (fun i => Tab.find i.jobs j)).isSome then nth s.cmd.jobEpochs j 0 else 0))
    .ok (pack [(4, latestEpoch s), (4, s.cmd.staged.length), (1, (s.cmd.quiet.map Quiet.state).getD 0), (3, 0),
        (8, (s.cmd.quiet.map Quiet.due).getD 0)] ++ hist ++ s.cmd.streamEpochs.flatMap (le 4) ++ jobs) s

/-- ADAPTER_ACTIVATE (13 R410, R427): a learn job, and a job that reads (batch or decode). -/
def adapterActivateBody (p : Packet) (s : State) : Reply :=
  let q := p.params
  let kind := fun j => ((s.image.bind (fun i => Tab.find i.jobs j)).map JobDecl.kind).getD 0
  if q.length ≠ 4 ∨ !resZero q 2 2 ∨ 15 < byteAt q 0 ∨ 15 < byteAt q 1 then .refuse 0x01A8 []
  else if kind (byteAt q 0) ≠ 3 ∨ (kind (byteAt q 1) ≠ 1 ∧ kind (byteAt q 1) ≠ 2) then .refuse 0x0470 []
  else .ok [] { s with cmd := { s.cmd with stagedItems := s.cmd.stagedItems ++ [.adapters (byteAt q 0) (byteAt q 1)] } }

/-! ### Owners of shared resources (13 R413, R414, R427) -/

/-- OWNER_KIND and OWNER of a general pin. -/
def pinOwner (s : State) (p : Nat) : Nat × Nat :=
  let f := pinFunc s p
  if f = 1 ∨ f = 2 then (3, 0)
  else if f ≠ 0 then (5, f)
  else match nth s.pins.owners p .free with
    | .free => (0, 0)
    | .stream k => (1, k)
    | .sync g => (2, g)

/-- OWNER_KIND and OWNER of a receive pair. -/
def rxOwner (s : State) (p vc : Nat) : Nat × Nat :=
  if par s 0x0C000010 = 1 ∧ par s 0x0C000012 = p ∧ par s 0x0C000013 = vc then (4, 0)
  else match (openStreams s).find? (fun k => ipar s k 1 == p && ipar s k 2 == vc) with
    | some k => (1, k)
    | none => (0, 0)

/-- OWNER_KIND and OWNER of a transmit pair. -/
def txOwner (s : State) (p vc : Nat) : Nat × Nat :=
  match vcRoles s (par s) p vc with
  | [] => (0, 0)
  | r :: _ => if r < 12 then (1, r) else if r = 100 then (7, 0) else if r = 101 then (6, 0) else (4, 0)

/-- RESOURCE_QUERY. -/
def resourceQueryBody (p : Packet) (s : State) : Reply :=
  let q := p.params
  let a := byteAt q 1
  let b := byteAt q 2
  let answer := fun (o : Nat × Nat) => Reply.ok (pack [(1, o.1), (1, o.2), (2, 0)]) s
  if q.length ≠ 4 ∨ byteAt q 3 ≠ 0 then .refuse 0x01A8 []
  else
    match byteAt q 0 with
    | 1 => if a ≤ 15 ∧ b = 0 then answer (pinOwner s a) else .refuse 0x01A8 []
    | 2 => if a < s.variant.rxPorts ∧ b ≤ 15 then answer (rxOwner s a b) else .refuse 0x01A8 []
    | 3 => if a < s.variant.txPorts ∧ b ≤ 15 then answer (txOwner s a b) else .refuse 0x01A8 []
    | 4 =>
      if a ≤ 1 ∧ b = 0 then
        answer (match ((List.range 12).filter (fun k => ppar s k 0x20 == 1))[a]? with | some k => (1, k) | none => (0, 0))
      else .refuse 0x01A8 []
    | 5 => if a ≤ 31 ∧ b = 0 then answer (if (chanAt s a).receiver = 0 then (0, 0) else (8, (chanAt s a).receiver)) else .refuse 0x01A8 []
    | _ => .refuse 0x01A8 []

/-! ### Rows -/

/-- EPOCH_POST. -/
def execEpochPost : Nat → Hdr → Bytes → State → Host.Outcome State Fault Refusal := hostRow 0x0A03 epochPostBody
/-- EPOCH_DISCARD. -/
def execEpochDiscard : Nat → Hdr → Bytes → State → Host.Outcome State Fault Refusal := hostRow 0x0A04 epochDiscardBody
/-- EPOCH_STATUS. -/
def execEpochStatus : Nat → Hdr → Bytes → State → Host.Outcome State Fault Refusal := hostRow 0x0A05 epochStatusBody
/-- ADAPTER_ACTIVATE. -/
def execAdapterActivate : Nat → Hdr → Bytes → State → Host.Outcome State Fault Refusal := hostRow 0x0A06 adapterActivateBody
/-- RESOURCE_QUERY. -/
def execResourceQuery : Nat → Hdr → Bytes → State → Host.Outcome State Fault Refusal := hostRow 0x0A07 resourceQueryBody

end Sys2Proof.Machine
end

