-- ==== Sys2Proof/Machine/Sides.lean ====
section
/-! DEFINITION. Sheet sides as shared operations: edge records and events, the intake ring's claims, discards, the geometry of
the prepared image and the release of bands (03 R81, R88, R93; 04 R96 to R102, R116, R127, R131). -/
namespace Sys2Proof.Machine

/-! ### Edge records and events -/

/-- A skew field (03 R81). -/
def skewField (s : Option Int) : Nat := match s with | some v => twos 16 v | none => 0x8000
/-- A column field. -/
def colField (c : Option Nat) : Nat := c.getD 0xFFFF

def edgeFlags (e : EdgeRec) : Nat :=
  b2n e.skewFinal + 2 * b2n e.skewOver + 4 * b2n e.speedLow + 8 * b2n e.subst + 16 * b2n e.replay + 32 * b2n e.frameEndMissing

/-- The 48-byte edge record (03 R81). -/
def edgeBytes (e : EdgeRec) : Bytes :=
  pack [(4, e.sheet), (4, e.epoch), (8, e.t0), (8, e.trail), (2, skewField e.skewLead), (2, skewField e.skewTrail),
        (2, colField e.xMin), (2, colField e.xMax), (4, e.length), (2, edgeFlags e), (2, sat 0xFFFF e.substLines),
        (4, e.replayOf), (4, 0)]

/-- Intake events (03 R93), from the intake units: 4 and 5 always. -/
def intkEvent (k ev status line st : Nat) (edge : Bytes) (s : State) : State :=
  report 0x14 false (0x02000045 + k * 0x10000) (0x02000046 + k * 0x10000) (ev == 4 || ev == 5) ev
    (pack [(1, ev), (1, k), (2, status), (4, line), (8, st)] ++ fit 48 edge) s

/-- Preparation events (04 R131): 3 and 4 always. -/
def prepEvent (k ev status sheet region batch : Nat) (rec : Bytes) (s : State) : State :=
  report 0x14 false (0x03000041 + k * 0x10000) (0x03000042 + k * 0x10000) (ev == 3 || ev == 4) ev
    (pack [(1, ev), (1, k), (2, status), (4, sheet), (2, region), (2, 0), (4, batch), (8, stamp s)] ++ fit 32 rec ++ zeros 8) s

/-- A region record (04 R107). -/
def regionFlags (r : Region) : Nat := b2n r.last + 2 * b2n r.steered + 4 * b2n r.host
def regionBytes (r : Region) : Bytes :=
  pack [(4, r.sheet), (2, r.index), (1, r.kind), (1, r.target), (2, r.x), (2, r.y), (2, r.w), (2, r.h), (2, twos 16 r.angle),
        (1, r.score), (1, regionFlags r), (2, r.link), (2, r.parent), (4, r.tag), (4, 0)]

/-! ### Widths and channels of a stream -/

/-- Channels of a stream, and bits of a sample (03 R58, R63). -/
def channels (s : State) (k : Nat) : Nat := ipar s k 0x04
def sampleBits : Nat → Nat
  | 0x24 => 8
  | 0x2A => 8
  | 0x2B => 10
  | 0x2C => 12
  | 0x2D => 14
  | _ => 16

/-- LINE_PERIOD, or the period of the first 16 lines (03 R61). -/
def periodOf (s : State) (k : Nat) : Option Nat :=
  if ipar s k 0x10 ≠ 0 then some (ipar s k 0x10) else (streamAt s k).freePeriod

/-- Bytes of a ring entry (03 R90). -/
def ringStride (s : State) (k : Nat) : Nat :=
  64 + 64 * ceilDiv (widthOf s k * channels s k * (1 + ipar s k 0x42)) 64

/-- The I/O die of a stream's receive port (03 R69). -/
def dieOf (s : State) (k : Nat) : Nat := if s.variant.half then 0 else ipar s k 0x01 / 3

/-! ### What a side holds -/

/-- The side runs through the block: accepted and not discarded. -/
def Sheet.alive (h : Sheet) : Bool := h.dead.isNone && !h.refusedSide

/-- Nothing more is owed for the side's record (02 R32). -/
def Sheet.recorded (h : Sheet) : Bool := h.committed.isSome && h.linesPending.isEmpty && h.fieldsPending.isEmpty

/-- Bands of a closed side. -/
def Sheet.bands (h : Sheet) : Nat := ceilDiv h.edge.length 128

/-- Preparation still reads lines of the side. -/
def Sheet.reading (h : Sheet) : Bool := h.alive && (!h.closed || decide (h.prepared < h.bands))

/-- The per-sheet slot groups of a stream that are held (02 R31, R32). -/
def groupsHeld (s : State) (k : Nat) : Nat :=
  (s.prep.sheets.filter (fun h => h.stream == k && h.alive && !h.recorded)).length

/-! ### The ring (03 R90; 04 R99) -/

/-- The side's geometry's cosine, with 30 fraction bits. -/
def Sheet.cos (h : Sheet) : Int := (h.geo.map Geometry.cosT).getD (2 ^ 30)

/-- The ring entry is claimed by the side: from the first line that its next band reads to the last that its last band reads. -/
def Sheet.claims (h : Sheet) (seq : Nat) : Bool :=
  h.reading && decide (((h.base : Int) + 128 * h.prepared * h.cos / 2 ^ 30) ≤ seq) &&
    (!h.closed || decide (seq < h.base + h.edge.length + (h.geo.map Geometry.m).getD 0))

/-- The entries that no side claims are free. -/
def pruneRing (k : Nat) (s : State) : State :=
  let l := s.prep.sheets.filter (fun h => h.stream == k)
  modStream k (fun t => { t with ring := t.ring.filter (fun e => l.any (fun h => h.claims e.seq)) }) s

/-! ### Discards (03 R88; 04 R116) -/

/-- The slots of a side. -/
def sideSlot (id : Nat) : SlotUse → Bool
  | .releaseCheck _ h => h == id
  | .secondDeadline _ h => h == id
  | _ => false

/-- The batch slots assigned to a side stay; its samples outside a batch end (04 R118, R119). -/
def discardSide (id status : Nat) (s : State) : State :=
  match sheetAt s id with
  | some h =>
    if !h.alive then s
    else
      let s := modSheet id (fun h => { h with dead := some status }) s
      let s := modStream h.stream (fun t => { t with
        discarded := inc32 t.discarded 1
        side := t.side.map (fun d => if d.edge.sheet = id then { d with accepted := false } else d) }) s
      let s := dropSlots (sideSlot id) s
      let s := if h.closed then s else dropSlots (fun u => u == .edgeTimeout h.stream) s
      let s := { s with prep := { s.prep with samples := s.prep.samples.filter (fun x => x.sheet != id) } }
      let s := { s with serv := { s.serv with
        lines := s.serv.lines.map (fun l => if l.sheet = id ∧ ¬ [4, 5].contains l.state then { l with state := 6 } else l) } }
      pruneRing h.stream s
  | none => s

/-- A discard by intake, with event 5. -/
def intakeDiscard (id status line st : Nat) (s : State) : State :=
  match sheetAt s id with
  | some h => if h.alive then intkEvent h.stream 5 status line st (edgeBytes h.edge) (discardSide id status s) else s
  | none => s

/-! ### A side's own parameters (04 R129) -/

/-- The value in force when the side began. -/
def Sheet.par (s : State) (h : Sheet) (id : Nat) : Nat :=
  match Tab.find h.pars id with
  | some v => v
  | none => paramDefault s id
def Sheet.ip (s : State) (h : Sheet) (n : Nat) : Nat := h.par s (0x02000000 + h.stream * 0x10000 + n)
def Sheet.pp (s : State) (h : Sheet) (n : Nat) : Nat := h.par s (0x03000000 + h.stream * 0x10000 + n)
def Sheet.op (s : State) (h : Sheet) (n : Nat) : Nat := h.par s (0x09000000 + h.stream * 0x10000 + n)

/-- What a side keeps of its stream's parameters; defaults that follow the width are kept as values. -/
def keepPars (s : State) (k : Nat) : Tab Nat :=
  [0x02000032 + k * 0x10000, 0x03000003 + k * 0x10000].foldl (fun t id => Tab.set t id (par s id))
    (s.cmd.inForce.filter (fun e => [0x0200 + k, 0x0300 + k, 0x0900 + k].contains (e.1 / 0x10000)))

/-- Output-image bits of a side: rows go to the output path (04 R106; 12 R378). -/
def imageOut (s : State) (h : Sheet) : Nat := h.pp s 0x08
def retains (s : State) (h : Sheet) : Bool := bit (h.op s 0x04) 9

/-! ### Geometry (04 R96, R100 to R102) -/

/-- The side is prepared without rotation whatever its skew. -/
def neverRotated (s : State) (h : Sheet) : Bool :=
  h.pp s 0x00 == 0 || h.ip s 0x00 == 1 || bit (h.pp s 0x30) 0

/-- The deskew angle; none without rotation (R100). -/
def deskewAngle (s : State) (h : Sheet) : Option Int :=
  if neverRotated s h || h.edge.skewOver then none else h.edge.skewLead

/-- A side without rotation over columns x0 to x1. -/
def flatGeometry (x0 x1 : Nat) : Geometry := ⟨none, x1 + 1 - x0, none, 0, x0 * 2 ^ 30, 0, 2 ^ 30⟩

/-- M = ⌈W × tan|θ|⌉ + 1. -/
def marginOf (w : Nat) (sn cs : Int) : Nat := ((w * sn.natAbs + cs.toNat - 1) / cs.toNat) + 1

/-- The crop of a rotated side by its leading edge (R101), or by its window (log 30). -/
def rotatedGeometry (t : Int) (window : Option (Nat × Nat)) (f xl xr : Nat) : Geometry :=
  let sn := sin30 t
  let cs := cos30 t
  let lean : Int := f * sn.natAbs
  let w := match window with
    | some (_, cw) => cw
    | none => (roundDivI (((xr : Int) + 1 - xl) * 2 ^ 30 - lean) cs).toNat
  let xa : Int := match window with
    | some (x, cw) => if 0 ≤ t then x * 2 ^ 30 else (x + cw - 1) * 2 ^ 30
    | none => if 0 ≤ t then xl * 2 ^ 30 + lean else xr * 2 ^ 30 - lean
  ⟨some t, Nat.max w 1, none, marginOf (Nat.max w 1) sn cs, xa, sn, cs⟩

/-- The geometry of a side, once it can be known. PREPARED takes the frame as it is, without a crop (R121). -/
def geometry (s : State) (h : Sheet) : Option Geometry :=
  let never := neverRotated s h
  let known := h.finalAt.isSome
  let px := h.width
  let edge := flatGeometry (h.ip s 0x31) (h.ip s 0x32)
  let windowed := h.pp s 0x01 == 1
  let x := h.pp s 0x02
  let cw := h.pp s 0x03
  if bit (h.pp s 0x30) 0 then some (flatGeometry 0 (px - 1))
  else if never && windowed then some (flatGeometry x (x + cw - 1))
  else if !never && !known then none
  else
    match deskewAngle s h with
    | some t =>
      (match h.xl, h.xr with
       | some a, some b => some (rotatedGeometry t (if windowed then some (x, cw) else none) (h.finalAt.getD 0) a b)
       | _, _ => some edge)
    | none =>
      if windowed then some (flatGeometry x (x + cw - 1))
      else if h.ip s 0x00 ≠ 1 ∧ known ∧ (h.edge.skewLead.isNone ∨ h.edge.skewOver) then some edge
      else if !h.closed then none
      else
        match h.edge.xMin, h.edge.xMax with
        | some a, some b => some (flatGeometry a b)
        | _, _ => some edge

/-! ### Charges of preparation (04 R127) -/

/-- Units for the band reads of a stream with a margin. -/
def bandUnits (s : State) (k m : Nat) : Nat :=
  match periodOf s k with
  | some p => ceilDiv ((128 + Nat.max m 32) * ringStride s k) (32 * p)
  | none => 0

/-- The difference that a side with M > 32 needs before its band 0. -/
def extraUnits (s : State) (k m : Nat) : Nat := bandUnits s k m - bandUnits s k 32

/-- One charge of a holder is given back. -/
def dropCharge (rail units : Nat) (h : Holder) (s : State) : State :=
  { s with pwr := { s.pwr with charges := s.pwr.charges.erase ⟨rail, units, h⟩ } }

/-! ### Release of bands (04 R97 to R99, R116) -/

/-- The lines of the next band have all been written, or Frame End (or the stream's close) stands in for those that have not. -/
def bandReady (s : State) (h : Sheet) (m : Nat) : Bool :=
  let j := h.released.length
  if h.closed then
    let need := if j + 1 = h.bands then h.edge.length + m else 128 * j + 128 + m
    decide (j < h.bands) &&
      (decide (need ≤ h.linesIn) || h.ip s 0x00 != 0 || (streamAt s h.stream).state == 0)
  else decide (128 * j + 128 + Nat.max m 1 ≤ h.linesIn)

/-- The age check of an express side (04 R116): stale at TB `t`. -/
def staleAt (s : State) (h : Sheet) (t : Nat) : Bool :=
  h.pp s 0x20 == 1 && decide (h.pp s 0x21 + h.edge.t0 < t)

/-- A stale side is discarded whole, with event 3. -/
def discardStale (id : Nat) (s : State) : State :=
  match sheetAt s id with
  | some h =>
    let s := { s with prep := { s.prep with
      counts := modNth s.prep.counts h.stream (fun c => { c with stale := inc32 c.stale 1 }) } }
    prepEvent h.stream 3 0x0631 id 0xFFFF max32 [] (discardSide id 0x0631 s)
  | none => s

/-- Bands of a side are released as far as its lines allow. -/
def releaseBands : Nat → Nat → State → State
  | 0, _, s => s
  | n + 1, id, s =>
    match sheetAt s id with
    | none => s
    | some h =>
      if !h.alive then s
      else
        match (match h.geo with | some g => some g | none => geometry s h) with
        | none => s
        | some g =>
          let g := { g with h := if h.closed then some h.edge.length else none }
          let h := { h with geo := some g }
          let s := modSheet id (fun x => { x with geo := some g }) s
          if !bandReady s h g.m then s
          else if h.released.isEmpty && staleAt s h s.clk.tb then discardStale id s
          else
            let u := if h.released.isEmpty && h.extra == 0 then extraUnits s h.stream g.m else 0
            if u ≠ 0 ∧ !fits s 4 u then s
            else
              let s := hold 4 u (.prep h.stream) s
              releaseBands n id (modSheet id (fun x => { x with
                released := x.released ++ [s.clk.tb], extra := x.extra + u }) s)

/-- The sides of a stream, oldest first. -/
def streamSides (s : State) (k : Nat) : List Nat := (s.prep.sheets.filter (fun h => h.stream == k)).map Sheet.id

/-- Every side of a stream is offered the lines that the ring now holds. -/
def releaseAll (k : Nat) (s : State) : State := (streamSides s k).foldl (fun s id => releaseBands 600 id s) s

/-- A line is written to the ring, for the sides that claim it (03 R90). -/
def writeRing (k : Nat) (l : RingLine) (s : State) : State :=
  let seq := (streamAt s k).ringSeq
  let s := modStream k (fun t => { t with ring := t.ring ++ [{ l with seq := seq }], ringSeq := seq + 1 }) s
  let s := { s with prep := { s.prep with sheets := s.prep.sheets.map (fun h =>
    if h.stream = k ∧ h.reading ∧ h.base ≤ seq then { h with linesIn := h.linesIn + 1 } else h) } }
  releaseAll k (pruneRing k s)

end Sys2Proof.Machine
end

