-- ==== Sys2Proof/Machine/Scan.lean ====
section
/-! DEFINITION. A line of a stream from its samples to the ring: correction, colour alignment, classification, skew, edge
tracking and acceptance of sides (03 R65 to R91). -/
namespace Sys2Proof.Machine

/-! ### Correction (03 R67, R68) -/

/-- The flat-field table in use for a channel. -/
def flatInUse (s : State) (k c : Nat) : Option (List (Nat × Nat)) :=
  if ipar s k (0x103 + c * 0x10) = 0 then none
  else match Tab.find (streamAt s k).flats c with
    | some f => if f.used then some f.entries else none
    | none => none

/-- One corrected sample. -/
def correctSample (ofs : Int) (gain fgain dark x16 : Nat) : Nat :=
  (clampI 0 65535 (roundDivI (((x16 : Int) - dark - ofs) * gain * fgain) (2 ^ 26))).toNat

/-- One channel, corrected; the samples are left-justified to 16 bits. -/
def correctChannel (s : State) (k c : Nat) (xs : List Nat) : List Nat :=
  let ofs := sext 32 (ipar s k (0x101 + c * 0x10))
  let gain := ipar s k (0x102 + c * 0x10)
  match flatInUse s k c with
  | some f => List.zipWith (fun x (e : Nat × Nat) => correctSample ofs gain e.1 e.2 x) xs f
  | none => xs.map (correctSample ofs gain 16384 0)

def correctLine (s : State) (k : Nat) (raw : List (List Nat)) : List (List Nat) :=
  (List.range raw.length).map (fun c => correctChannel s k c (nth raw c []))

/-- The line that stands for a channel that has had none (R65). -/
def fillLine (s : State) (k : Nat) : List (List Nat) :=
  List.replicate (channels s k) (List.replicate (widthOf s k) (ppar s k 0x04 * 257))

/-! ### Feed speed and colour delay (03 R70 to R72) -/

/-- The feed speed at a stamp, as a fraction in µm/s. -/
def speedAt (s : State) (k st : Nat) : Nat × Nat :=
  let t := streamAt s k
  let nom := ipar s k 0x21
  match ipar s k 0x20 with
  | 1 => ((((t.speeds.filter (fun e => decide (e.1 ≤ st))).getLast?).map Prod.snd).getD nom, 1)
  | 2 =>
    match t.tach[0]?, t.tach[1]?, t.tach[8]? with
    | some a, some b, some e =>
      if a + 8 * (a - b) < st then (ipar s k 0x22, 1) else (ipar s k 0x24 * 8 * 10 ^ 9, Nat.max 1 (a - e))
    | _, _, _ => (nom, 1)
  | _ => (nom, 1)

/-- Lines of colour-delay storage of a channel (R72). -/
def storageLines (s : State) (k c : Nat) : Nat :=
  Nat.min 64 (ceilDiv (ipar s k (0x100 + c * 0x10) * ipar s k 0x21) (16 * ipar s k 0x22))

/-- The delay of a channel in sixteenths of a line, and whether it was clamped. -/
def delayOf (s : State) (k c : Nat) (v : Nat × Nat) : Nat × Bool :=
  let d := roundDiv (ipar s k (0x100 + c * 0x10) * ipar s k 0x21 * v.2) v.1
  let cap := 16 * nth (streamAt s k).storage c 0
  if cap < d then (cap, true) else (d, false)

/-- One aligned channel: `h` holds its stored lines, newest first (R71). -/
def alignChannel (d : Nat) (h : List (List Nat)) : List Nat :=
  let at_ := fun i => nth h (Nat.min i (h.length - 1)) []
  let w := d / 16
  let f := d % 16
  if f = 0 then at_ w else List.zipWith (fun a b => ((16 - f) * a + f * b + 8) / 16) (at_ w) (at_ (w + 1))

/-! ### Classification (03 R77) -/

/-- The columns x0 to x1. -/
def columns (l : List Nat) (x0 x1 : Nat) : List Nat := (l.drop x0).take (x1 + 1 - x0)

/-- The 8-bit edge values of the window. -/
def edgeValues (px : List (List Nat)) (ec x0 x1 : Nat) : List Nat :=
  let c := fun i => columns (nth px i []) x0 x1
  if ec = 4 ∧ 3 ≤ px.length then
    List.zipWith (fun r (gb : Nat × Nat) => (r + 2 * gb.1 + gb.2 + 2) / 1024) (c 0) (List.zip (c 1) (c 2))
  else (c (if ec = 4 then 0 else ec)).map (· / 256)

/-- The backing level: fixed, or the mean of the window over the last 16 lines classified not paper. -/
def backingLevel (back : Nat) (l : List (Nat × Nat)) : Nat :=
  if back ≠ 0 then back - 0x100
  else
    let n := l.foldl (fun m e => m + e.2) 0
    (l.foldl (fun m e => m + e.1) 0 + n / 2) / Nat.max n 1

/-- Which pixels of the window are paper. -/
def paperMarks (ys : List Nat) (b th : Nat) : List Bool := ys.map (fun y => decide (th < (y - b) + (b - y)))

/-- Bounds of the 64 bins in a window of `n` columns. -/
def binLo (n i : Nat) : Nat := i * n / 64
def binWidth (n i : Nat) : Nat := binLo n (i + 1) - binLo n i

/-- Paper pixels of each bin. -/
def binCounts (marks : List Bool) : List Nat :=
  (List.range 64).map (fun i => ((marks.drop (binLo marks.length i)).take (binWidth marks.length i)).countP id)

def firstTrue (l : List Bool) : Option Nat := l.findIdx? id
def lastTrue (l : List Bool) : Option Nat := (l.reverse.findIdx? id).map (fun i => l.length - 1 - i)

/-- What classification says of a line: paper, first and last paper column, bin counts, and the sum of the window. -/
structure Class where
  paper : Bool
  left : Option Nat
  right : Option Nat
  bins : List Nat
  sum : Nat × Nat
deriving DecidableEq, Repr

def classify (s : State) (k : Nat) (px : List (List Nat)) : Class :=
  let t := streamAt s k
  let x0 := ipar s k 0x31
  let ys := edgeValues px (ipar s k 0x30) x0 (ipar s k 0x32)
  let back := ipar s k 0x36
  let marks := if back = 0 ∧ t.trained < 16 then List.replicate ys.length false
    else paperMarks ys (backingLevel back t.backing) (ipar s k 0x33)
  { paper := decide (ipar s k 0x34 ≤ marks.countP id) && !(decide (back = 0) && decide (t.trained < 16))
    left := (firstTrue marks).map (x0 + ·), right := (lastTrue marks).map (x0 + ·)
    bins := binCounts marks, sum := (ys.foldl (· + ·) 0, ys.length) }

/-- Training and the backing follow a classified line. -/
def learnBacking (s : State) (k : Nat) (c : Class) : State :=
  let training := ipar s k 0x36 == 0 && decide ((streamAt s k).trained < 16)
  modStream k (fun t => { t with
    trained := if training then t.trained + 1 else t.trained
    state := if t.state = 2 ∧ (!training ∨ 15 ≤ t.trained) then 3 else t.state
    backing := if c.paper then t.backing else (c.sum :: t.backing).take 16 }) s

/-! ### Skew (03 R79, R80) -/

/-- A bin after a classified line: `gap` says that the line lies outside a side. -/
def stepBin (gap : Bool) (line width2 p : Nat) (b : Bin) : Bin :=
  let half := decide (width2 ≤ 2 * p)
  { prev := p
    lead := if half then (match b.lead with | some e => some e | none => some (line, b.prev, p))
      else if gap then none else b.lead
    last := if half then some line else b.last }

/-- The bins after a line; a substituted line changes none (log 31). -/
def stepBins (s : State) (k : Nat) (gap : Bool) (l : RingLine) : State :=
  if l.corrupt then s
  else
    let n := ipar s k 0x32 + 1 - ipar s k 0x31
    modStream k (fun t =>
      let bs := if t.bins.isEmpty then List.replicate 64 ⟨0, none, none⟩ else t.bins
      { t with bins := (List.range 64).map (fun i =>
          stepBin gap l.streamLine (binWidth n i) (nth l.bins i 0) (nth bs i ⟨0, none, none⟩)) }) s

/-- Where a bin's leading edge lies, in lines from line 0 (R79). -/
def leadAt (line0 width : Nat) (b : Bin) : Option Rat :=
  b.lead.map (fun (e, p0, p1) => (((e : Int) - line0 - 1 : Int) : Rat) + (((width : Int) - 2 * p0 : Int) : Rat) / ((2 * (p1 - p0) : Nat) : Rat))

def trailAt (line0 : Nat) (b : Bin) : Option Rat := b.last.map (fun e => (((e : Int) - line0 : Int) : Rat))

/-- Slope and offset of the least-squares line through points. -/
def fitLine (l : List (Rat × Rat)) : Option (Rat × Rat) :=
  let n : Rat := (l.length : Nat)
  let sx := l.foldl (fun a p => a + p.1) 0
  let sy := l.foldl (fun a p => a + p.2) 0
  let sxx := l.foldl (fun a p => a + p.1 * p.1) 0
  let sxy := l.foldl (fun a p => a + p.1 * p.2) 0
  let d := n * sxx - sx * sx
  if d = 0 then none else some ((n * sxy - sx * sy) / d, (sy - (n * sxy - sx * sy) / d * sx) / n)

/-- The fitted slope: one fit, residuals beyond 2 lines discarded, one refit; none with fewer than 16 bins. -/
def fitSlope (l : List (Rat × Rat)) : Option Rat :=
  if l.length < 16 then none
  else match fitLine l with
    | some (m, a) =>
      let r := l.filter (fun p => decide (p.2 - a - m * p.1 ≤ 2) && decide (-2 ≤ p.2 - a - m * p.1))
      if r.length < 16 then none else (fitLine r).map Prod.fst
    | none => none

/-- A skew in 0.001°, saturating, and whether it lies beyond ±15° (R80). -/
def skewOf (m : Rat) (v : Nat × Nat) (nom : Nat) : Int × Bool :=
  let t : Rat := m * ((v.1 : Nat) : Rat) / ((v.2 * nom : Nat) : Rat)
  let a := milliDegrees t.num t.den
  (clampI (-32767) 32767 (roundOpen (Config.skewUp t.num t.den) a), decide (15000 * fxOne < a) || decide (a < -15000 * fxOne))

/-- The bin that holds a column. -/
def binOf (x0 n x : Nat) : Option Nat :=
  (List.range 64).find? (fun i => decide (x0 + binLo n i ≤ x) && decide (x < x0 + binLo n (i + 1)))

/-- Bins strictly inside the sheet, by the extreme columns so far. -/
def insideBins (s : State) (k : Nat) (d : OpenSide) : List Nat :=
  let x0 := ipar s k 0x31
  let n := ipar s k 0x32 + 1 - x0
  match d.xl.bind (binOf x0 n), d.xr.bind (binOf x0 n) with
  | some a, some b => (List.range 64).filter (fun i => decide (a < i) && decide (i < b))
  | _, _ => []

/-- The bins that may be fitted: those that do not hold an outermost paper column, with their centre columns. -/
def fitPoints (s : State) (k : Nat) (d : OpenSide) (at_ : Nat → Bin → Option Rat) : List (Rat × Rat) :=
  let x0 := ipar s k 0x31
  let n := ipar s k 0x32 + 1 - x0
  let out := [d.xl.bind (binOf x0 n), d.xr.bind (binOf x0 n)]
  (List.range 64).filterMap (fun i =>
    if out.contains (some i) then none
    else (at_ (binWidth n i) (nth (streamAt s k).bins i ⟨0, none, none⟩)).map (fun y =>
      (((2 * x0 + binLo n i + binLo n (i + 1) - 1 : Nat) : Rat) / 2, y)))

def leadSkew (s : State) (k : Nat) (d : OpenSide) (v : Nat × Nat) : Option (Int × Bool) :=
  (fitSlope (fitPoints s k d (leadAt d.line0))).map (fun m => skewOf m v (ipar s k 0x21))
def trailSkew (s : State) (k : Nat) (d : OpenSide) (v : Nat × Nat) : Option (Int × Bool) :=
  (fitSlope (fitPoints s k d (fun _ => trailAt d.line0))).map (fun m => skewOf m v (ipar s k 0x21))

/-- L of R80 at the present line (log 32): the line at which the last of the inside bins reached half; none where one has not. -/
def lastReached (s : State) (k : Nat) (d : OpenSide) : Option Nat :=
  (insideBins s k d).foldl (fun acc i =>
    match acc, (nth (streamAt s k).bins i ⟨0, none, none⟩).lead with
    | some m, some (e, _, _) => some (Nat.max m (e - d.line0))
    | _, _ => none) (some 0)

/-! ### Sides in progress -/

/-- The open side of a stream is changed, and the sheet that it is with it. -/
def modSide (k : Nat) (f : OpenSide → OpenSide) (s : State) : State :=
  match (streamAt s k).side with
  | some d =>
    let d := f d
    let s := modStream k (fun t => { t with side := some d }) s
    modSheet d.edge.sheet (fun h => if h.closed || h.stream ≠ k then h else { h with edge := d.edge }) s
  | none => s

/-- The skew estimate is made; where it is final, event 2 tells so and bands may be released. -/
def estimateSkew (k : Nat) (final : Bool) (line st : Nat) (v : Nat × Nat) (s : State) : State :=
  match (streamAt s k).side with
  | some d =>
    let e := leadSkew s k d v
    let s := modSide k (fun d => { d with
      finalAt := if final then some line else none
      edge := { d.edge with
        skewLead := e.map Prod.fst, skewOver := (e.map Prod.snd).getD false, skewFinal := final } }) s
    if !final then s
    else
      let s := modSheet d.edge.sheet (fun h => if h.stream ≠ k then h else { h with finalAt := some line, xl := d.xl, xr := d.xr }) s
      if !d.accepted then s
      else
        let edge := (((streamAt s k).side).map OpenSide.edge).getD d.edge
        releaseBands 600 d.edge.sheet (intkEvent k 2 0 line st (edgeBytes edge) s)
  | none => s

/-- The estimate at a line of the side (R80). -/
def skewAtLine (k line st : Nat) (v : Nat × Nat) (s : State) : State :=
  match (streamAt s k).side with
  | some d =>
    if d.finalAt.isSome ∨ ipar s k 0x00 = 1 ∨ line < 95 then s
    else match lastReached s k d with
      | some l => if Nat.max 95 (l + 32) ≤ line then estimateSkew k true line st v s
        else if line = 95 then estimateSkew k false line st v s else s
      | none => if line = 95 then estimateSkew k false line st v s else s
  | none => s

/-! ### Boundaries (03 R82, R68) -/

/-- Flat-field tables loaded since the last boundary come into use, each in its predecessor's place. -/
def adoptFlats (k : Nat) (s : State) : State :=
  modStream k (fun t => { t with flats := t.flats.foldl (fun r (e : Nat × FlatTable) =>
    Tab.set r (e.1 % 8) { e.2 with used := true }) [] }) s

def boundary (k : Nat) (s : State) : State := adoptFlats k (adoptStream k s)

/-! ### Acceptance (03 R84 to R86; 01 R15; 13 R411; 15 R471) -/

/-- The free entries of a stream's ring. -/
def ringFree (s : State) (k : Nat) : Nat := ipar s k 0x41 - (streamAt s k).ring.length

/-- Why a confirmation stamped `conf` is refused, if it is. -/
def sideRefusal (s : State) (k conf : Nat) : Option Nat :=
  let fault := match s.flt.recovery with | some r => decide (r.at_ < conf) | none => false
  let quiet := match s.cmd.quiet with | some q => q.state == 2 && decide (q.openedAt ≤ conf) | none => false
  if fault then some 0x04C0
  else if quiet then some 0x04A2
  else if s.twin.handover then some 0x04C5
  else if 8 ≤ groupsHeld s k then some 0x0322
  else if s.out.high then some 0x0323
  else if ringFree s k < ipar s k 0x40 then some 0x0324
  else none

/-- A side refused in a quiet window counts for event 3 (13 R429). -/
def countQuiet (s : State) : State :=
  { s with cmd := { s.cmd with quiet := s.cmd.quiet.map (fun q => { q with refused := inc32 q.refused 1 }) } }

/-- WAKEs for dozing dies that hold a cluster of a reading job (14 R437). -/
def wakeReaders (s : State) : State :=
  let masks := ((s.image.map Image.jobs).getD []).filterMap (fun e => if e.2.kind = 3 then none else some e.2.clusters)
  (List.range s.variant.stackDies).foldl (fun s k =>
    if masks.any (fun m => (m / 16 ^ k) % 16 != 0) then
      (match stackAt s k with
       | .doze => postWake (1 + k) 0x03 s
       | .entering _ => postWake (1 + k) 0x03 s
       | _ => s)
    else s) s

/-- The mean interval of the last complete lines. -/
def meanInterval (l : List Nat) : Option Nat :=
  match l.head?, l.getLast? with
  | some a, some b => if l.length < 2 then none else some (roundDiv (a - b) (l.length - 1))
  | _, _ => none

/-- P of R86. -/
def linePeriod (s : State) (k : Nat) : Option Nat :=
  if ipar s k 0x10 ≠ 0 then some (ipar s k 0x10) else meanInterval (streamAt s k).stamps

/-- The sheet of a side as it begins. -/
def newSheet (s : State) (k : Nat) (e : EdgeRec) (dead : Option Nat) : Sheet where
  id := e.sheet
  stream := k
  edge := e
  width := widthOf s k
  pars := keepPars s k
  closed := false
  closedAt := 0
  finalAt := none
  xl := none
  xr := none
  base := (streamAt s k).ringSeq
  linesIn := 0
  geo := none
  released := []
  prepared := 0
  waitingSince := none
  advised := false
  extra := 0
  regions := []
  steer := if ppar s k 0x10 = 0 then [] else nth s.prep.steer k []
  adopted := []
  listDone := false
  hostWait := bit (ppar s k 0x30) 1
  offered := !bit (ppar s k 0x30) 1
  nextIndex := if [1, 2].contains (ppar s k 0x10) then (nth s.prep.steer k []).length else 0
  roi := ppar s k 0x10 == 3 && nth s.prep.steer k [] != [] && nth s.prep.frames k 0 % ppar s k 0x13 != 0
  asked := []
  cut := []
  rows := []
  rowSubst := []
  committed := none
  recordNo := 0
  amendNo := 1
  linesPending := []
  fieldsPending := []
  dead := dead
  noticed := false
  checkHit := none
  secondHit := none
  frame := 0
  rowsOut := 0
  epochs := []
  refusedSide := dead.isSome

/-- A side begins: its identifier, the checks, and what acceptance or refusal does. `line` is the confirming line's index. -/
def beginSide (k t0 conf line line0 : Nat) (replay : Option Nat) (s : State) : State :=
  let used := decide (0xFFFFFEFF < s.intk.nextSheet)
  let id := if used then max32 else s.intk.nextSheet
  let s := if used then s else { s with intk := { s.intk with nextSheet := s.intk.nextSheet + 1 } }
  let st := if used then some 0x0325 else sideRefusal s k conf
  let e : EdgeRec :=
    { sheet := id, epoch := (streamAt s k).epoch, t0 := t0, trail := 0, skewLead := none, skewTrail := none, xMin := none
      xMax := none, length := 0, skewFinal := false, skewOver := false, speedLow := false, subst := false
      replay := replay.isSome, frameEndMissing := false, substLines := 0, replayOf := replay.getD 0 }
  let s := { s with prep := { s.prep with
    frames := if st.isNone then modNth s.prep.frames k (· + 1) else s.prep.frames
    queueRead := if st.isNone then setNth s.prep.queueRead k 0 else s.prep.queueRead } }
  let d : OpenSide := ⟨e, st.isNone, 0, 0, false, none, none, none, false, conf, line0⟩
  let s := { s with prep := { s.prep with sheets := s.prep.sheets ++ [newSheet s k e st] } }
  let s := modStream k (fun t => { t with
    side := some d
    accepted := if st.isNone then inc32 t.accepted 1 else t.accepted
    refused := if st.isNone then t.refused else inc32 t.refused 1 }) s
  let s := wakeReaders (if st == some 0x04A2 then countQuiet s else s)
  match st with
  | some r => intkEvent k 4 r line conf (edgeBytes e) s
  | none =>
    let s := intkEvent k 1 0 line conf (edgeBytes e) s
    let s := noteEpoch id 0x03 0xFF e.epoch (noteEpoch id 0x02 0xFF e.epoch s)
    let s := match linePeriod s k with
      | some p => addSlot (newSlot s (t0 + ipar s k 0x40 * p) 0x06 3 0x14 id (Config.unitTally id % 1024) .intake (.edgeTimeout k)) s
      | none => s
    if isPrimary s then mirror 4 (pack [(4, id), (4, k), (4, e.replayOf), (4, 0), (8, t0)]) s else s

/-! ### Lines of a side (03 R65, R66, R78, R91) -/

/-- A gap line: written unless it is a substitute, which is dropped (R65). -/
def gapLine (k : Nat) (l : RingLine) (s : State) : State :=
  let s := stepBins s k true l
  if l.corrupt then s
  else writeRing k { l with sheet := 0, line := max32, leading := false, trailing := false } s

/-- The least, the greatest of what has been seen. -/
def optMin (a b : Option Nat) : Option Nat :=
  match a, b with | some x, some y => some (Nat.min x y) | some x, none => some x | none, y => y
def optMax (a b : Option Nat) : Option Nat :=
  match a, b with | some x, some y => some (Nat.max x y) | some x, none => some x | none, y => y

/-- What a line adds to the side. -/
def countLine (l : RingLine) (d : OpenSide) : OpenSide :=
  let xl := optMin d.xl l.xLeft
  let xr := optMax d.xr l.xRight
  let paper := d.paper || l.paper
  { d with
    lines := d.lines + 1, xl := xl, xr := xr, paper := paper, lastStamp := l.stamp
    run := if l.corrupt then d.run + 1 else 0
    runDamaged := l.corrupt && (d.runDamaged || l.damaged)
    edge := { d.edge with
      t0 := if d.lines = 0 ∧ d.edge.replay then l.stamp else d.edge.t0
      xMin := if paper then xl else none, xMax := if paper then xr else none
      speedLow := d.edge.speedLow || l.speedLow, subst := d.edge.subst || l.corrupt
      substLines := d.edge.substLines + b2n l.corrupt } }

/-- The status with which R66 discards the side now, if it does. -/
def corruptStatus (s : State) (k : Nat) (d : OpenSide) : Option Nat :=
  if ipar s k 0x43 < d.edge.substLines then some 0x0620
  else if ipar s k 0x44 ≤ d.run then some (if d.runDamaged then 0x0620 else 0x0622)
  else none

/-- A line of the side in progress. -/
def sideLine (k : Nat) (l : RingLine) (s : State) : State :=
  match (streamAt s k).side with
  | some d =>
    let n := d.lines
    let s := stepBins s k false l
    let s := modSide k (countLine l) s
    let s := if l.corrupt then modStream k (fun t => { t with linesSubst := inc32 t.linesSubst 1 }) s else s
    let s := if d.accepted then writeRing k { l with sheet := d.edge.sheet, line := n, leading := n == 0, trailing := false } s
      else if l.corrupt then s
      else writeRing k { l with sheet := 0, line := max32, leading := false, trailing := false } s
    match (streamAt s k).side with
    | some d =>
      match (if d.accepted && l.corrupt then corruptStatus s k d else none) with
      | some st => intakeDiscard d.edge.sheet st n l.stamp s
      | none => skewAtLine k n l.stamp (l.speed, 1) s
    | none => s
  | none => gapLine k l s

/-! ### The end of a side (03 R62, R78, R86; 01 R17) -/

/-- The edge timeout is cancelled, or finds the arrival (02 R50). -/
def settleTimeout (k st : Nat) (s : State) : State :=
  (slotsFor s (.edgeTimeout k)).foldl (fun s n =>
    match slotAt s n with
    | some sl => if handedOver s sl then modSlot n (fun x => { x with arrival := some st }) s else freeSlot n s
    | none => s) s

/-- The side closes: `conf` is the stamp that confirms it, `v` the speed, `t` the stamp that R17 counts from. -/
def endSide (k conf t : Nat) (v : Nat × Nat) (missingEnd : Bool) (s : State) : State :=
  match (streamAt s k).side with
  | some d =>
    let s := if d.finalAt.isSome ∨ ipar s k 0x00 = 1 then s else estimateSkew k true (d.lines - 1) d.lastStamp v s
    let tr := if ipar s k 0x00 = 1 then none else trailSkew s k (((streamAt s k).side).getD d) v
    let s := modSide k (fun d => { d with edge := { d.edge with
      trail := d.lastStamp, length := d.lines, skewTrail := tr.map Prod.fst, frameEndMissing := missingEnd } }) s
    let edge := (((streamAt s k).side).map OpenSide.edge).getD d.edge
    let acc := (((streamAt s k).side).map OpenSide.accepted).getD false
    let s := modStream k (fun x => { x with
      side := none, bins := []
      ring := x.ring.map (fun l => if acc ∧ l.sheet = d.edge.sheet ∧ l.line + 1 = d.lines then { l with trailing := true } else l) }) s
    let s := settleTimeout k conf s
    if !acc then modSheet d.edge.sheet (fun h => if h.stream = k then { h with closed := true, closedAt := conf } else h) s
    else
      let s := modSheet d.edge.sheet (fun h => { h with closed := true, closedAt := conf, edge := edge }) s
      let s := addSlot (newSlot s (t + 140000000) 0x06 3 0x14 d.edge.sheet (Config.unitTally d.edge.sheet % 1024) .intake
        (.releaseCheck k d.edge.sheet)) s
      let s := intkEvent k 3 0 (d.lines - 1) conf (edgeBytes edge) s
      releaseAll k (pruneRing k s)
  | none => s

/-! ### Edge tracking (03 R78) -/

def setEdge (k : Nat) (e : EdgeState) (cand : List RingLine) (s : State) : State :=
  modStream k (fun t => { t with edge := e, cand := cand }) s

/-- A line of a LINE stream. -/
def trackLine (k : Nat) (l : RingLine) (s : State) : State :=
  let t := streamAt s k
  let run := ipar s k 0x35
  match t.edge with
  | .gap =>
    if l.corrupt then gapLine k l s
    else if l.paper then setEdge k (.leadRun 1) [l] s
    else boundary k (gapLine k l s)
  | .leadRun j =>
    if l.corrupt then setEdge k (.leadRun j) (t.cand ++ [l]) s
    else if !l.paper then (t.cand ++ [l]).foldl (fun s c => gapLine k c s) (setEdge k .gap [] s)
    else if j + 1 < run then setEdge k (.leadRun (j + 1)) (t.cand ++ [l]) s
    else
      let c := t.cand ++ [l]
      let first := (c.head?).getD l
      c.foldl (fun s x => sideLine k x s)
        (setEdge k .sheet [] (beginSide k first.stamp l.stamp t.cand.length first.streamLine none s))
  | .sheet =>
    if l.corrupt || l.paper then sideLine k l s else setEdge k (.trailRun 1) [l] s
  | .trailRun j =>
    if l.corrupt then setEdge k (.trailRun j) (t.cand ++ [l]) s
    else if l.paper then (t.cand ++ [l]).foldl (fun s x => sideLine k x s) (setEdge k .sheet [] s)
    else if j + 1 < run then setEdge k (.trailRun (j + 1)) (t.cand ++ [l]) s
    else
      let last := ((t.side).map OpenSide.lastStamp).getD l.stamp
      (t.cand ++ [l]).foldl (fun s x => gapLine k x s) (endSide k l.stamp last (l.speed, 1) false (setEdge k .gap [] s))

/-! ### A line as a whole -/

/-- The stamp of a replacement (R65). -/
def substStamp (s : State) (k : Nat) : Nat :=
  let t := streamAt s k
  match t.lastStamp with
  | none => stamp s
  | some p =>
    if ipar s k 0x10 ≠ 0 then p + ipar s k 0x10
    else match meanInterval t.stamps with
      | some m => p + m
      | none => stamp s

/-- The line as it goes to the ring, from its corrected channels, and the state with the channels stored. -/
def alignLine (k st : Nat) (px : List (List Nat)) (corrupt damaged : Bool) (s : State) : RingLine × State :=
  let s := modStream k (fun t => { t with
    stored := (List.range 4).map (fun c => if c < px.length then (nth px c [] :: nth t.stored c []).take 66 else []) }) s
  let t := streamAt s k
  let v := speedAt s k st
  let ds := (List.range px.length).map (fun c => delayOf s k c v)
  let out := (List.range px.length).map (fun c => alignChannel (nth ds c (0, false)).1 (nth t.stored c []))
  let c := classify s k out
  let l : RingLine :=
    { stamp := st, sheet := 0, line := max32, streamLine := t.streamLine, seq := 0, paper := c.paper && !corrupt
      corrupt := corrupt, damaged := damaged, leading := false, trailing := false, speedLow := ds.any Prod.snd
      xLeft := if corrupt then none else c.left, xRight := if corrupt then none else c.right
      speed := roundDiv v.1 v.2, delays := fit4 (ds.map Prod.fst), epoch := t.epoch
      px := if ipar s k 0x42 = 1 then out else out.map (fun ch => ch.map (fun y => Nat.min 255 ((y + 128) / 256)))
      bins := c.bins }
  (l, if corrupt then s else learnBacking s k c)
where
  /-- Four delays. -/
  fit4 (l : List Nat) : List Nat := (l ++ [0, 0, 0, 0]).take 4

/-- A line of a stream that has started: complete (`raw` holds its channels), or corrupt or missing. -/
def takeLine (k : Nat) (raw : Option (List (List Nat))) (damaged : Bool) (s : State) : State :=
  let t := streamAt s k
  let st := match raw with | some _ => stamp s | none => substStamp s k
  let px := match raw with
    | some r => correctLine s k r
    | none => if t.raw.isEmpty then fillLine s k else correctLine s k t.raw
  let s := modStream k (fun t => { t with
    lastStamp := some st
    lastComplete := if raw.isSome then some st else t.lastComplete
    linesRx := if raw.isSome then inc32 t.linesRx 1 else t.linesRx
    stamps := if raw.isSome then (st :: t.stamps).take 16 else t.stamps
    first16 := if raw.isSome ∧ t.first16.length < 16 then t.first16 ++ [st] else t.first16
    raw := match raw with | some r => r | none => t.raw }) s
  let a := alignLine k st px raw.isNone damaged s
  let s := modStream k (fun t => { t with streamLine := (t.streamLine + 1) % 2 ^ 32 }) a.2
  if ipar s k 0x00 = 0 then trackLine k a.1 s
  else if (streamAt s k).frameOpen then sideLine k a.1 s
  else gapLine k a.1 s

end Sys2Proof.Machine
end

