-- ==== Sys2Proof/Machine/Intake.lean ====
section
/-! DEFINITION. Intake: CSI-2 packets and line assembly (03 R57 to R64), streams and their charges (R61, R69 to R76, R83, R87,
R89, R562), and the INTK commands (R92). -/
namespace Sys2Proof.Machine

/-! ### Packets (03 R58, R64) -/

/-- The open stream of a pair. -/
def streamOf (s : State) (port vc : Nat) : Option Nat :=
  (openStreams s).find? (fun k => ipar s k 0x01 == port && ipar s k 0x02 == vc)

/-- A packet that is discarded and counted (R58, R62, R83). -/
def countStray (s : State) : State := { s with intk := { s.intk with strays := inc32 s.intk.strays 1 } }

def modPort (p : Nat) (f : PortErr → PortErr) (s : State) : State :=
  { s with intk := { s.intk with ports := modNth s.intk.ports p f } }
def countFraming (p : Nat) (s : State) : State := modPort p (fun e => { e with wcFraming := sat 0xFF (e.wcFraming + 1) }) s
def countCrc (p : Nat) (s : State) : State := modPort p (fun e => { e with crcFail := sat 0xFF (e.crcFail + 1) }) s

def setAsm (k : Nat) (a : Option Assembly) (s : State) : State := modStream k (fun t => { t with asm := a }) s
def noAsm : Assembly := ⟨none, false, [], none, false⟩

/-- Samples of a payload, left-justified to 16 bits, channel by channel (R67; the packing is CSI-2's: log 33). -/
def unpackRaw10 : Bytes → List Nat
  | a :: b :: c :: d :: e :: r =>
    let lo := fun i => e.toNat / 4 ^ i % 4
    [(a.toNat * 4 + lo 0) * 64, (b.toNat * 4 + lo 1) * 64, (c.toNat * 4 + lo 2) * 64, (d.toNat * 4 + lo 3) * 64] ++ unpackRaw10 r
  | _ => []
def unpackRaw12 : Bytes → List Nat
  | a :: b :: c :: r => [(a.toNat * 16 + c.toNat % 16) * 16, (b.toNat * 16 + c.toNat / 16) * 16] ++ unpackRaw12 r
  | _ => []
def unpackRaw14 : Bytes → List Nat
  | a :: b :: c :: d :: e :: f :: g :: r =>
    let m := e.toNat + 256 * f.toNat + 65536 * g.toNat
    let lo := fun i => m / 64 ^ i % 64
    [(a.toNat * 64 + lo 0) * 4, (b.toNat * 64 + lo 1) * 4, (c.toNat * 64 + lo 2) * 4, (d.toNat * 64 + lo 3) * 4] ++ unpackRaw14 r
  | _ => []
def unpackRaw16 : Bytes → List Nat
  | a :: b :: r => (a.toNat * 256 + b.toNat) :: unpackRaw16 r
  | _ => []
/-- Blue, green, red for each pixel. -/
def unpackRgb (i : Nat) : Bytes → List Nat
  | b :: g :: r :: t => (match i with | 0 => r.toNat | 1 => g.toNat | _ => b.toNat) * 256 :: unpackRgb i t
  | _ => []

def unpack (dt : Nat) (p : Bytes) : List (List Nat) :=
  match dt with
  | 0x24 => [unpackRgb 0 p, unpackRgb 1 p, unpackRgb 2 p]
  | 0x2A => [p.map (fun b => b.toNat * 256)]
  | 0x2B => [unpackRaw10 p]
  | 0x2C => [unpackRaw12 p]
  | 0x2D => [unpackRaw14 p]
  | _ => [unpackRaw16 p]

/-- Bits of a pixel in a packet (R61). -/
def pixelBits (dt : Nat) : Nat := if dt = 0x24 then 24 else sampleBits dt

/-- Line counts are taken modulo M (R60). -/
def countModulus (mode : Nat) : Nat := if mode = 1 then 16384 else 65536

/-! ### Streams: rate, pool, charges (03 R61, R69, R72, R89, R127; 12 R382) -/

/-- The declared rate in bits per second, as a fraction. -/
def declaredRate (s : State) (k : Nat) : Nat × Nat :=
  let px := widthOf s k
  match periodOf s k with
  | some p => (px * pixelBits (ipar s k 0x03) * (if ipar s k 0x05 = 0 then 1 else channels s k) * 10 ^ 9, Nat.max p 1)
  | none => (0, 1)

/-- The declared rates of streams break 90% of what their port carries. -/
def portOver (s : State) (port : Nat) (l : List Nat) : Bool :=
  let r := l.foldl (fun (a : Nat × Nat) k => let b := declaredRate s k; (a.1 * b.2 + b.1 * a.2, a.2 * b.2)) (0, 1)
  let cap := par s (0x02F00001 + port * 0x100) * par s (0x02F00002 + port * 0x100) * 10 ^ 6
  decide (9 * cap * r.2 < 10 * r.1)

/-- Streams of a port. -/
def onPort (s : State) (port : Nat) : List Nat := (openStreams s).filter (fun k => ipar s k 0x01 == port)

/-- Bytes that a stream holds in its half of the line-buffer pool. -/
def poolBytes (s : State) (k : Nat) : Nat :=
  let t := streamAt s k
  t.storage.foldl (· + ·) 0 * widthOf s k * 2 + t.flats.foldl (fun n e => n + 4 * e.2.entries.length) 0

def poolUsedBy (s : State) (die : Nat) : Nat :=
  ((openStreams s).filter (fun k => dieOf s k == die)).foldl (fun n k => n + poolBytes s k) 0

/-- The storage lines of a stream's channels. -/
def storageOf (s : State) (k : Nat) : List Nat :=
  (List.range 4).map (fun c => if c < channels s k then storageLines s k c else 0)

/-- Units of a stream's output-ring traffic (12 R382). -/
def outUnits (s : State) (k p : Nat) : Nat :=
  let b := if ppar s k 0x08 = 1 then 3 else if ppar s k 0x08 = 2 ∨ bit (opar s k 0x04) 9 then 1 else 0
  if b = 0 then 1 else ceilDiv (2 * widthOf s k * b * 4) p

/-- The charges of an open stream, in the order asked: rail, units, holder. -/
def streamCharges (s : State) (k : Nat) : List (Nat × Nat × Holder) :=
  [(3, 6, .rxPort (ipar s k 0x01)), (3, 2, .stream k), (3, 6, .prepEngine (dieOf s k))] ++
    (match periodOf s k with
     | some p =>
       if widthOf s k = 0 then []
       else [(4, ceilDiv (4 * ringStride s k) p, .stream k), (4, bandUnits s k 32, .prep k), (4, outUnits s k p, .outImage k)]
     | none => [])

def holdsOn (s : State) (rail : Nat) (h : Holder) : Bool := s.pwr.charges.any (fun c => c.rail == rail && c.holder == h)

/-- No action that waits on the rail is overtaken (14 R448). -/
def railFree (s : State) (rail : Nat) : Bool := !s.fc.slots.any (fun e => e.2.state == 3 && e.2.waitRail == rail)

/-- The charges of a stream that can be admitted now are taken. -/
def takeStream (k : Nat) (s : State) : State :=
  (streamCharges s k).foldl (fun s c =>
    if !holdsOn s c.1 c.2.2 && fits s c.1 c.2.1 && railFree s c.1 then hold c.1 c.2.1 c.2.2 s else s) s

def streamCharged (s : State) (k : Nat) : Bool := (streamCharges s k).all (fun c => holdsOn s c.1 c.2.2)

/-! ### Pins and actions of a stream (03 R74 to R76) -/

/-- Streams that share a stream's line trigger: itself alone, or its group. -/
def groupOf (s : State) (k : Nat) : List Nat :=
  let g := ipar s k 0x13
  if g = 0 then [k] else (openStreams s).filter (fun j => ipar s j 0x13 == g)

/-- The strobes of a stream: number, pin, offset, width, level. -/
def strobes (s : State) (k : Nat) : List (Nat × Nat × Nat × Nat × Nat) :=
  (List.range 4).filterMap (fun j =>
    let p := ipar s k (0x200 + j * 0x10)
    if p = 0xFF then none
    else some (j, p, ipar s k (0x201 + j * 0x10), ipar s k (0x202 + j * 0x10), ipar s k (0x203 + j * 0x10)))

/-- The pins that a stream claims: pin and role (0 trigger, 1 enable, 2 strobe, 3 tachometer). -/
def claims (s : State) (k : Nat) : List (Nat × Nat) :=
  ([(ipar s k 0x11, 0), (ipar s k 0x14, 1), (if ipar s k 0x20 = 2 then ipar s k 0x23 else 0xFF, 3)].filter (fun e => e.1 != 0xFF))
    ++ (strobes s k).map (fun e => (e.2.1, 2))

/-- Two strobe windows [OFFSET, OFFSET + WIDTH + 100), taken modulo LINE_PERIOD, overlap. -/
def windowsOverlap (period : Nat) (a b : Nat × Nat) : Bool :=
  let la := a.2 + 100
  let lb := b.2 + 100
  if period ≤ la ∨ period ≤ lb then true
  else decide ((b.1 + period - a.1 % period) % period < la) || decide ((a.1 + period - b.1 % period) % period < lb)

/-- The owner that a stream's pins get. -/
def pinOwnerOf (s : State) (k : Nat) : PinOwner := if ipar s k 0x13 = 0 then .stream k else .sync (ipar s k 0x13)

/-- 0x0220 or 0x0222, where a pin cannot be claimed (R76; 17 R543). -/
def pinRefusal (s : State) (k : Nat) : Option Nat :=
  let mine := pinOwnerOf s k
  let others := (groupOf s k).filter (· != k)
  let held := others.flatMap (claims s)
  let own := claims s k
  let bad := own.any (fun e =>
    pinFunc s e.1 != 0 || !(nth s.pins.owners e.1 .free == .free || nth s.pins.owners e.1 .free == mine)
      || held.any (fun x => x.1 == e.1 && x.2 != e.2) || own.any (fun x => x.1 == e.1 && x.2 != e.2))
  let sts := strobes s k
  let all := others.flatMap (strobes s)
  let per := ipar s k 0x10
  let lap := sts.any (fun a =>
    all.any (fun b => b.2.1 == a.2.1 && windowsOverlap per (a.2.2.1, a.2.2.2.1) (b.2.2.1, b.2.2.2.1))
      || sts.any (fun b => b.1 != a.1 && b.2.1 == a.2.1 && windowsOverlap per (a.2.2.1, a.2.2.2.1) (b.2.2.1, b.2.2.2.1)))
  if bad then some 0x0220 else if lap then some 0x0222 else none

/-- The pins of a stream are claimed: outputs at their inactive level, a tachometer pin as an input (17 R541). -/
def claimPins (k : Nat) (s : State) : State :=
  (claims s k).foldl (fun s e =>
    let s := { s with pins := { s.pins with owners := setNth s.pins.owners e.1 (pinOwnerOf s k) } }
    if e.2 = 3 then releasePin e.1 s else drive e.1 (inactiveLevel s e.1) s) s

/-- The pins that no other open stream of the group uses are released. -/
def freePins (k : Nat) (s : State) : State :=
  let held := ((groupOf s k).filter (· != k)).flatMap (claims s)
  (claims s k).foldl (fun s e =>
    if held.any (fun x => x.1 == e.1) then s
    else releasePin e.1 { s with pins := { s.pins with owners := setNth s.pins.owners e.1 .free } }) s

/-- The active level of an output pin (17 R542). -/
def activeLevel (s : State) (p : Nat) : Nat := if pinLow s p then 0 else 1

/-- The started streams of a stream's group, itself aside. -/
def startedMates (s : State) (k : Nat) : List Nat :=
  (groupOf s k).filter (fun j => j != k && decide (2 ≤ (streamAt s j).state))

/-- Trigger, strobes, enable and line watch of a stream that starts (R74, R76; 02 R36). The first of a group sets the phase:
one pre-dispatch interval from the start (log 34). -/
def startActions (k : Nat) (s : State) : State :=
  let now := stamp s
  let mates := startedMates s k
  let phase := match mates with | j :: _ => (streamAt s j).phase | [] => now + 256
  let per := ipar s k 0x10
  let s := modStream k (fun t => { t with phase := phase }) s
  let en := ipar s k 0x14
  let s := if en = 0xFF ∨ mates.any (fun j => ipar s j 0x14 == en) then s
    else addSlot (newSlot s (now + 256) 0x03 en 0x14 (activeLevel s en) 0 .intake (.enable k)) s
  if per = 0 then s
  else
    let tp := ipar s k 0x11
    let rep := fun (sl : Slot) => { sl with period := per, count := 0xFFFF }
    let s := if tp = 0xFF ∨ !mates.isEmpty then s
      else addSlot (rep (newSlot s phase 0x02 tp 0x14 (ipar s k 0x12) (activeLevel s tp) .intake (.lineTrigger k))) s
    let s := (strobes s k).foldl (fun s e =>
      let due := phase + e.2.2.1 + per * ceilDiv (now + 256 - (phase + e.2.2.1)) per
      addSlot (rep (newSlot s due 0x01 e.2.1 0x14 e.2.2.2.1 e.2.2.2.2 .intake (.strobe k e.1))) s) s
    if ipar s k 0x05 = 0 then
      addSlot { newSlot s (now + per / 2) 0x0C 5 0x14 k 0 .intake (.lineWatch k) with period := per / 2, count := 0xFFFF } s
    else s

/-- The stream starts (R83, R77). -/
def startStream (k : Nat) (s : State) : State :=
  let s := modStream k (fun t => { t with state := if ipar s k 0x36 = 0 then 2 else 3 }) s
  intkEvent k 6 0 0 (stamp s) [] (startActions k s)

/-- The stream takes its charges, and starts once PIXELS is known and all are held. -/
def tryStart (k : Nat) (s : State) : State :=
  let s := takeStream k s
  if (streamAt s k).state = 1 ∧ widthOf s k ≠ 0 ∧ streamCharged s k then startStream k s else s

/-! ### Close (03 R87) -/

/-- A slot of a stream that a close cancels; the trigger of a group that goes on passes to another stream. -/
def closeSlots (k : Nat) (s : State) : State :=
  let mates := (groupOf s k).filter (· != k)
  let cancel := fun (s : State) (n : Nat) =>
    match slotAt s n with
    | some sl => if handedOver s sl then modSlot n (fun x => { x with last := true }) s else freeSlot n s
    | none => s
  let s := (slotsFor s (.lineTrigger k)).foldl (fun s n =>
    match mates with
    | j :: _ => modSlot n (fun x => { x with use := .lineTrigger j }) s
    | [] => cancel s n) s
  let s := (List.range 4).foldl (fun s j => (slotsFor s (.strobe k j)).foldl cancel s) s
  dropSlots (fun u => u == .lineWatch k || u == .edgeTimeout k || u == .enable k) s

/-- A stream closes, with the status that event 7 carries. -/
def closeStream (k status : Nat) (s : State) : State :=
  let t := streamAt s k
  let line := (t.side.map OpenSide.lines).getD 0
  let s := match t.side with
    | some d => if d.accepted then intakeDiscard d.edge.sheet 0x0422 line (stamp s) s else s
    | none => s
  let s := modSheet (((t.side.map OpenSide.edge).map EdgeRec.sheet).getD 0) (fun h => if h.stream = k then { h with closed := true } else h) s
  let s := closeSlots k s
  let en := ipar s k 0x14
  let mates := (groupOf s k).filter (· != k)
  let port := ipar s k 0x01
  let die := dieOf s k
  let lone := (onPort s port).length == 1
  let loneDie := ((openStreams s).filter (fun j => dieOf s j == die)).length == 1
  let off := en != 0xFF && decide (2 ≤ t.state) && !mates.any (fun j => ipar s j 0x14 == en)
  let s := if off then drive en (activeLevel s en == 0) s else s
  let s := freePins k s
  let s := giveBack (.outImage k) (giveBack (.prep k) (giveBack (.stream k) s))
  let s := if lone then giveBack (.rxPort port) s else s
  let s := if loneDie then giveBack (.prepEngine die) s else s
  let edge := (t.side.map (fun d => edgeBytes d.edge)).getD []
  let s := intkEvent k 7 status line (stamp s) edge s
  let s := modStream k (fun t => { Stream.reset with
    ring := t.ring, ringSeq := t.ringSeq, linesRx := t.linesRx, linesSubst := t.linesSubst
    accepted := t.accepted, refused := t.refused, discarded := t.discarded, epoch := t.epoch }) s
  releaseAll k (pruneRing k (refreshPorts (withMode retryWaiting s)))

/-! ### PIXELS 0 (03 R64, R562) -/

/-- The first valid long packet sets PIXELS, or closes the stream. -/
def sizeStream (k wc : Nat) (s : State) : State :=
  let bits := pixelBits (ipar s k 0x03)
  let px := wc * 8 / bits
  if wc * 8 % bits ≠ 0 ∨ px % 8 ≠ 0 ∨ px < 64 ∨ 16384 < px then closeStream k 0x0120 s
  else
    let t := modStream k (fun x => { x with pixels := px }) s
    if portOver t (ipar t k 0x01) (onPort t (ipar t k 0x01)) then closeStream k 0x0321 s
    else
      let u := modStream k (fun x => { x with storage := storageOf t k }) t
      if 6291456 < poolUsedBy u (dieOf u k) then closeStream k 0x0320 s else tryStart k u

/-! ### Line assembly (03 R60, R64) -/

/-- After 16 complete lines a free-running stream's period is known: it is checked, and its charges asked (R61). -/
def checkFreeRate (k : Nat) (s : State) : State :=
  let t := streamAt s k
  if ipar s k 0x10 = 0 ∧ t.freePeriod.isNone ∧ 16 ≤ t.first16.length ∧ 2 ≤ t.state then
    let p := roundDiv (nth t.first16 15 0 - nth t.first16 0 0) 15
    let u := modStream k (fun x => { x with freePeriod := some (Nat.max p 1) }) s
    if portOver u (ipar u k 0x01) (onPort u (ipar u k 0x01)) then closeStream k 0x0321 s else takeStream k u
  else s

/-- A line of the stream, in whatever state it is: before the start it is discarded and counted (R83). -/
def emitLine (k : Nat) (raw : Option (List (List Nat))) (damaged : Bool) (s : State) : State :=
  let st := (streamAt s k).state
  if st = 0 then s else if st = 1 then countStray s else checkFreeRate k (takeLine k raw damaged s)

/-- `n` missing lines, of which the first may have arrived damaged. -/
def emitMissing (k : Nat) : Nat → Bool → State → State
  | 0, _, s => s
  | n + 1, d, s => emitMissing k n false (emitLine k none d s)

/-- The assembled line ends: complete, or corrupt. -/
def finishAsm (k : Nat) (s : State) : State :=
  match (streamAt s k).asm with
  | some a =>
    let n := if ipar s k 0x05 = 0 then 1 else channels s k
    let whole := !a.corrupt && (List.range n).all (fun c => (a.chans.find? (fun e => e.1 == c)).isSome)
    let raw := if ipar s k 0x05 = 0 then (a.chans.find? (fun e => e.1 == 0)).map (fun e => splitPacked (ipar s k 0x03) e.2)
      else some ((List.range n).map (fun c => ((a.chans.find? (fun e => e.1 == c)).map Prod.snd).getD []))
    let s := modStream k (fun t => { t with
      asm := none, expected := match a.count with | some c => some ((c + 1) % countModulus (ipar s k 0x05)) | none => t.expected }) s
    emitLine k (if whole then raw else none) true s
  | none => s
where
  /-- The channels of a packed line, which was stored one after another. -/
  splitPacked (dt : Nat) (l : List Nat) : List (List Nat) :=
    if dt = 0x24 then [l.take (l.length / 3), (l.drop (l.length / 3)).take (l.length / 3), l.drop (2 * (l.length / 3))] else [l]

/-- A Line Start (R60, R64). -/
def lineStart (k data : Nat) (s : State) : State :=
  let mode := ipar s k 0x05
  let port := ipar s k 0x01
  let openLs := ((streamAt s k).asm.bind Assembly.openCh).isSome
  let s := if openLs then countFraming port (modStream k (fun t => { t with asm := t.asm.map (fun a => { a with corrupt := true }) }) s) else s
  if mode = 0 then
    let s := if (streamAt s k).asm.isSome then finishAsm k s else s
    if (streamAt s k).state = 0 then s else setAsm k (some { noAsm with openCh := some 0 }) s
  else
    let count := if mode = 1 then data / 4 else data
    let m := countModulus mode
    let t := streamAt s k
    let expected := match t.asm.bind Assembly.count with | some c => some c | none => t.expected
    let d := match expected with | some e => (count + m - e) % m | none => 0
    let back := decide (m / 2 ≤ d)
    let named := (t.asm.bind Assembly.count).isSome
    let s :=
      if d = 0 then s
      else if back then (if named then finishAsm k s else s)
      else if named then emitMissing k (d - 1) false (finishAsm k s)
      else emitMissing k d t.asm.isSome (setAsm k none s)
    if (streamAt s k).state = 0 then s
    else
      let a := ((streamAt s k).asm).getD noAsm
      let c := if mode = 1 then data % 4 else a.chans.length
      let dup := a.chans.any (fun e => e.1 == c) || decide (channels s k ≤ c)
      setAsm k (some { a with openCh := some c, gotLong := false, count := some count, corrupt := a.corrupt || back || dup }) s

/-- Whether a long packet carries its stream's line, what it counts as, and its samples. -/
def longOk (s : State) (k : Nat) (p : LongPkt) : Bool :=
  p.dataType == ipar s k 0x03 && p.crcOk && decide (p.wordCount * 8 = widthOf s k * pixelBits p.dataType) && p.payload.length == p.wordCount

/-- What a long packet's faults count on its port: its CRC, and its type or word count (R64, R95). -/
def countLong (k : Nat) (p : LongPkt) (s : State) : State :=
  let s := if p.crcOk then s else countCrc p.port s
  if p.dataType ≠ ipar s k 0x03 ∨ (p.wordCount * 8 ≠ widthOf s k * pixelBits p.dataType ∧ widthOf s k ≠ 0) then countFraming p.port s
  else s

/-- A long packet of a type of R58's table. -/
def longPacket (k : Nat) (p : LongPkt) (s : State) : State :=
  let s := countLong k p s
  let openCh := (streamAt s k).asm.bind Assembly.openCh
  match openCh with
  | none =>
    let s := countFraming p.port s
    if ipar s k 0x05 = 0 then setAsm k (some { noAsm with openCh := some 0, gotLong := true, corrupt := true }) s
    else setAsm k (some { ((streamAt s k).asm).getD noAsm with corrupt := true }) s
  | some c =>
    let a := ((streamAt s k).asm).getD noAsm
    if widthOf s k = 0 ∧ p.dataType = ipar s k 0x03 ∧ p.crcOk ∧ !a.corrupt then sizeStream k p.wordCount (setAsm k none s)
    else if longOk s k p ∧ !a.gotLong then
      setAsm k (some { a with gotLong := true, chans := a.chans ++ [(c, (unpack p.dataType p.payload).flatten)] }) s
    else setAsm k (some { a with gotLong := true, corrupt := true, chans := a.chans ++ [(c, [])] }) s

/-- A Line End (R64, R73). -/
def lineEnd (k : Nat) (s : State) : State :=
  match (streamAt s k).asm with
  | some a =>
    if a.openCh.isNone then countFraming (ipar s k 0x01) s
    else
      let a := { a with openCh := none, corrupt := a.corrupt || !a.gotLong }
      let n := if ipar s k 0x05 = 0 then 1 else channels s k
      let full := (List.range n).all (fun c => a.chans.any (fun e => e.1 == c)) || decide (n ≤ a.chans.length)
      let s := setAsm k (some a) s
      if ipar s k 0x05 = 0 ∨ full then finishAsm k s else s
  | none => countFraming (ipar s k 0x01) s

/-! ### Frames (03 R62) -/

/-- The capture stamp: the scheduled DUE of the last occurrence of strobe 0 at or before the Frame Start. -/
def captureStamp (s : State) (k : Nat) : Nat :=
  let now := stamp s
  match (slotsFor s (.strobe k 0)).head? with
  | some n =>
    match slotAt s n with
    | some sl => if sl.due ≤ now ∧ sl.period ≠ 0 then sl.due + (now - sl.due) / sl.period * sl.period else now
    | none => now
  | none => now

/-- The frame ends: a frame without a line is discarded with 0x0625. -/
def endFrame (k : Nat) (missingEnd : Bool) (s : State) : State :=
  let s := modStream k (fun t => { t with frameOpen := false }) s
  match (streamAt s k).side with
  | some d =>
    if d.lines = 0 then
      let s := modSide k (fun d => { d with edge := { d.edge with frameEndMissing := missingEnd } }) s
      let s := if d.accepted then intakeDiscard d.edge.sheet 0x0625 0 (stamp s) s else s
      settleTimeout k (stamp s) (modSheet d.edge.sheet (fun h => if h.stream = k then { h with closed := true } else h)
        (modStream k (fun t => { t with side := none, bins := [] }) s))
    else endSide k (stamp s) (stamp s) (speedAt s k (stamp s)) missingEnd s
  | none => s

def beginFrame (k : Nat) (s : State) : State :=
  let s := if (streamAt s k).frameOpen then endFrame k true s else s
  let s := boundary k s
  let t := streamAt s k
  let rep := if ipar s k 0x00 = 2 then some ((t.replayLo.getD 0) + 65536 * (t.replayHi.getD 0)) else none
  let t0 := if ipar s k 0x00 = 1 then captureStamp s k else stamp s
  let s := modStream k (fun t => { t with frameOpen := true, replayLo := none, replayHi := none, bins := [] }) s
  beginSide k t0 (stamp s) 0 t.streamLine rep s

/-! ### Rows of the receive ports -/

/-- A header whose single-bit error the ECC corrected is counted (R64, R95). -/
def countFix (fix : Bool) (p : Nat) (s : State) : State :=
  modPort p (fun e => { e with hdrCorr := if fix then sat 0xFF (e.hdrCorr + 1) else e.hdrCorr }) s

/-- A row on a mapped pair: a stream that has not started discards and counts, unless it still takes its PIXELS. -/
def onStream (dt : Nat) (fix : Bool) (port vc : Nat) (sizing : Bool) (f : Nat → State → State) (s : State) :
    Host.Outcome State Fault Refusal :=
  let s := advance dt s
  .next (if !awake s ∨ !s.boot.ready then s
    else
      let s := countFix fix port s
      match streamOf s port vc with
      | none => countStray s
      | some k =>
        if (streamAt s k).state = 1 ∧ ¬ (sizing ∧ widthOf s k = 0) then countStray s else f k s)

/-- FRAME_START. -/
def execFrameStart (dt : Nat) (fix : Bool) (port vc : Nat) (s : State) : Host.Outcome State Fault Refusal :=
  onStream dt fix port vc false (fun k s => if ipar s k 0x00 = 0 then s else beginFrame k s) s

/-- FRAME_END. -/
def execFrameEnd (dt : Nat) (fix : Bool) (port vc : Nat) (s : State) : Host.Outcome State Fault Refusal :=
  onStream dt fix port vc false (fun k s =>
    if ipar s k 0x00 = 0 then s else if (streamAt s k).frameOpen then endFrame k false s else countStray s) s

/-- LINE_START. -/
def execLineStart (dt : Nat) (fix : Bool) (port vc data : Nat) (s : State) : Host.Outcome State Fault Refusal :=
  onStream dt fix port vc true (fun k s => lineStart k (data % 65536) s) s

/-- LONG_PACKET: a type outside R58's table is discarded and counted. -/
def execLongPacket (dt : Nat) (p : LongPkt) (s : State) : Host.Outcome State Fault Refusal :=
  onStream dt p.fix p.port p.vc true (fun k s =>
    if [0x24, 0x2A, 0x2B, 0x2C, 0x2D, 0x2E].contains p.dataType then longPacket k p s else countStray s) s

/-- LINE_END. -/
def execLineEnd (dt : Nat) (fix : Bool) (port vc : Nat) (s : State) : Host.Outcome State Fault Refusal := onStream dt fix port vc true lineEnd s

/-- GENERIC_SHORT_PACKET (R62). -/
def execGenericShortPacket (dt : Nat) (fix : Bool) (port vc code data : Nat) (s : State) : Host.Outcome State Fault Refusal :=
  onStream dt fix port vc false (fun k s =>
    if code ≠ 0x08 ∧ code ≠ 0x09 then countStray s
    else if ipar s k 0x00 ≠ 2 then s
    else modStream k (fun t => if code = 0x08 then { t with replayLo := some (data % 65536) }
      else { t with replayHi := some (data % 65536) }) s) s

/-- UNCORRECTABLE_HEADER_ERROR (R64, R95): every line in progress on the port is corrupt. -/
def execUncorrectableHeaderError (dt port : Nat) (s : State) : Host.Outcome State Fault Refusal :=
  let s := advance dt s
  .next (if !awake s ∨ s.variant.rxPorts ≤ port then s
    else
      let s := modPort port (fun e => { e with hdrUncorr := sat 0xFF (e.hdrUncorr + 1) }) s
      (onPort s port).foldl (fun s k => modStream k (fun t => { t with asm := t.asm.map (fun a => { a with corrupt := true }) }) s) s)

/-- MISSING_LINE (R64; 02 R36): the stream's last stamp is more than 1.5 × LINE_PERIOD old. -/
def execMissingLine (dt k : Nat) (s : State) : Host.Outcome State Fault Refusal :=
  let s := advance dt s
  let t := streamAt s k
  let per := ipar s k 0x10
  .next (match t.lastStamp with
    | some l =>
      if awake s && decide (2 ≤ t.state) && per != 0 && ipar s k 0x05 == 0 && decide (3 * per < 2 * (s.clk.tb - l)) then
        emitLine k none t.asm.isSome s
      else s
    | none => s)

/-- TACH_EDGE (R70): a rising edge at a tachometer pin, stamped. -/
def execTachEdge (dt pin : Nat) (s : State) : Host.Outcome State Fault Refusal :=
  let s := advance dt s
  .next (if !awake s then s
    else (openStreams s).foldl (fun s k =>
      if ipar s k 0x20 = 2 ∧ ipar s k 0x23 = pin then
        modStream k (fun t => { t with tach := (stamp s :: t.tach).take 9 }) s
      else s) s)

/-- STREAM_START (R83): the charges that can be admitted now are taken. -/
def execStreamStart (dt k : Nat) (s : State) : Host.Outcome State Fault Refusal :=
  let s := advance dt s
  .next (if awake s ∧ (streamAt s k).state ≠ 0 then tryStart k s else s)

/-! ### Commands (03 R92) -/

/-- The parameters of a stream agree with one another (R63, R75, R121). -/
def streamRangeOk (s : State) (k : Nat) : Bool :=
  let per := ipar s k 0x10
  let rgb := ipar s k 0x03 == 0x24
  let sts := strobes s k
  (!rgb || (channels s k == 3 && ipar s k 0x05 == 0 && (List.range 3).all (fun c => ipar s k (0x100 + c * 0x10) == 0)))
    && (rgb || ipar s k 0x05 != 0 || channels s k == 1)
    && (ipar s k 0x30 == 4 || decide (ipar s k 0x30 < channels s k))
    && decide (ipar s k 0x22 ≤ ipar s k 0x21)
    && (ipar s k 0x20 != 2 || ipar s k 0x23 != 0xFF)
    && (sts.isEmpty || per != 0)
    && sts.all (fun e => decide (e.2.2.1 + 100 ≤ per) && decide (e.2.2.1 + e.2.2.2.1 + ipar s k 0x15 ≤ per))
    && decide (ipar s k 0x40 + 1024 ≤ ipar s k 0x41)
    && (widthOf s k == 0 || (decide (ipar s k 0x31 + 63 ≤ ipar s k 0x32) && decide (ipar s k 0x32 < widthOf s k)))

/-- A stream opened as it would be, for the checks that compare streams. -/
def asOpen (k : Nat) (s : State) : State :=
  modStream k (fun t => { Stream.reset with state := 1, ring := t.ring, ringSeq := t.ringSeq, epoch := t.epoch }) s

/-- The bytes of a stream's band slots (04 R105), each in one cluster, and what the clusters hold. -/
def bandSlotBytes (s : State) (k : Nat) : Nat :=
  let w := if ppar s k 0x01 = 1 then ppar s k 0x03 else widthOf s k
  32 + (List.range (ppar s k 0x05)).foldl (fun n l => n + channels s k * ceilDiv w (2 ^ l) * (128 / 2 ^ l)) 0

/-- The cluster of slot `i` of a stream: round robin over PREP_CLUSTERS. -/
def bandSlotCluster (s : State) (k i : Nat) : Nat :=
  let l := bitsOf 16 (ppar s k 0x07)
  if l.isEmpty then 0 else nth l (i % l.length) 0

/-- Band-slot bytes of the open streams in a cluster. -/
def bandBytesIn (s : State) (c : Nat) : Nat :=
  (openStreams s).foldl (fun n k =>
    n + bandSlotBytes s k * ((List.range (ppar s k 0x06)).filter (fun i => bandSlotCluster s k i == c)).length) 0

/-- Room below the grammar and slab areas, above the image's own (13 R416). -/
def bandRoom (s : State) : Nat :=
  4194304 - par s 0x06000007 * 1024 - par s 0x08000001 * 1024 - (s.image.map Image.commonsBytes).getD 0

def bandSlotsFit (s : State) : Bool := (List.range s.variant.clusters).all (fun c => decide (bandBytesIn s c ≤ bandRoom s))

/-- The checks of STREAM_OPEN, in order. -/
def openRefusal (s : State) (k : Nat) : Option Nat :=
  let port := ipar s k 0x01
  let t := asOpen k s
  let mates := (groupOf t k).filter (· != k)
  if !streamRangeOk s k then some 0x0120
  else if (streamOf s port (ipar s k 0x02)).isSome ∨
      (par s 0x0C000010 = 1 ∧ par s 0x0C000012 = port ∧ par s 0x0C000013 = ipar s k 0x02) then some 0x0221
  else if s.variant.half ∧ 4 ≤ (onPort s port).length then some 0x0224
  else if mates.any (fun j => ipar s j 0x10 != ipar s k 0x10 || ipar s j 0x11 != ipar s k 0x11 || ipar s j 0x14 != ipar s k 0x14) then
    some 0x0223
  else match pinRefusal t k with
    | some st => some st
    | none =>
      if portOver t port (onPort t port) then some 0x0321
      else if 6291456 < poolUsedBy (modStream k (fun x => { x with storage := storageOf s k }) t) (dieOf s k) then some 0x0320
      else if !bandSlotsFit t then some 0x0331
      else if poolSize t .host < poolUsed s .host then some 0x0310
      else none

/-- The stream field of a command, with its reserved bytes. -/
def streamField (p : Bytes) : Option Nat := if resZero p 1 3 ∧ byteAt p 0 ≤ 11 then some (byteAt p 0) else none

/-- STREAM_OPEN (R92; 16 R515). -/
def streamOpenBody (p : Packet) (s : State) : Reply :=
  if p.params.length ≠ 4 then .refuse 0x0120 []
  else match streamField p.params with
    | none => .refuse 0x0120 []
    | some k =>
      if (streamAt s k).state ≠ 0 then .refuse 0x0420 []
      else match openRefusal s k with
        | some st => .refuse st []
        | none =>
          let s := if p.sender = 0x01 then endDiscovery s else s
          let s := asOpen k s
          let s := modStream k (fun t => { t with storage := if widthOf s k = 0 then [0, 0, 0, 0] else storageOf s k, openedAt := stamp s }) s
          let s := { s with prep := { s.prep with
            frames := setNth s.prep.frames k 0, counts := setNth s.prep.counts k ⟨0, 0, 0, 0, 0, 0, 0⟩ } }
          .ok [] (tryStart k (refreshPorts (claimPins k s)))

/-- STREAM_CLOSE. -/
def streamCloseBody (p : Packet) (s : State) : Reply :=
  if p.params.length ≠ 4 then .refuse 0x0120 []
  else match streamField p.params with
    | none => .refuse 0x0120 []
    | some k => if (streamAt s k).state = 0 then .refuse 0x0421 [] else .ok [] (closeStream k 0 (if p.sender = 0x01 then endDiscovery s else s))

/-- The entries of a flat-field table: (FGAIN, DARK). -/
def flatEntries : Nat → Bytes → List (Nat × Nat)
  | 0, _ => []
  | n + 1, b => (leAt b 2 2, leAt b 0 2) :: flatEntries n (b.drop 4)

/-- FLAT_LOAD (R68). -/
def flatLoadBody (p : Packet) (s : State) : Reply :=
  let q := p.params
  let k := byteAt q 0
  let c := byteAt q 1
  if q.length < 4 ∨ 11 < k ∨ !resZero q 2 2 ∨ channels s k ≤ c then .refuse 0x0120 []
  else if (streamAt s k).state = 0 then .refuse 0x0421 []
  else if widthOf s k = 0 ∨ q.length ≠ 4 + 4 * widthOf s k then .refuse 0x0623 []
  else
    let t := modStream k (fun x => { x with flats := Tab.set x.flats (c + 8) ⟨flatEntries (widthOf s k) (q.drop 4), false⟩ }) s
    if 6291456 < poolUsedBy t (dieOf s k) then .refuse 0x0320 [] else .ok [] t

/-- SPEED_SET (R70, R92). -/
def speedSetBody (p : Packet) (s : State) : Reply :=
  let q := p.params
  let k := byteAt q 0
  let v := leAt q 4 4
  if q.length ≠ 16 ∨ 11 < k ∨ !resZero q 1 3 ∨ ipar s k 0x20 ≠ 1 ∨ v < 1000 ∨ 20000000 < v then .refuse 0x0120 []
  else if (streamAt s k).state = 0 then .refuse 0x0421 []
  else .ok [] (modStream k (fun t => { t with speeds := t.speeds ++ [(leAt q 8 8, v)] }) s)

/-- STREAM_STATUS. -/
def streamStatusBody (p : Packet) (s : State) : Reply :=
  if p.params.length ≠ 4 then .refuse 0x0120 []
  else match streamField p.params with
    | none => .refuse 0x0120 []
    | some k =>
      let t := streamAt s k
      if t.state = 0 then .refuse 0x0421 []
      else
        let e := if ipar s k 0x00 ≠ 0 then (if t.frameOpen then 2 else 0)
          else match t.edge with | .gap => 0 | .leadRun _ => 1 | .sheet => 2 | .trailRun _ => 3
        let id := (t.side.map (fun d => d.edge.sheet)).getD 0
        .ok (pack [(1, t.state), (1, e), (2, 0), (4, id), (4, t.linesRx), (4, t.ring.length)]) s

/-- STREAM_OPEN. -/
def execStreamOpen : Nat → Hdr → Bytes → State → Host.Outcome State Fault Refusal := hostRow 0x0201 streamOpenBody
/-- STREAM_CLOSE. -/
def execStreamClose : Nat → Hdr → Bytes → State → Host.Outcome State Fault Refusal := hostRow 0x0202 streamCloseBody
/-- FLAT_LOAD. -/
def execFlatLoad : Nat → Hdr → Bytes → State → Host.Outcome State Fault Refusal := hostRow 0x0203 flatLoadBody
/-- SPEED_SET. -/
def execSpeedSet : Nat → Hdr → Bytes → State → Host.Outcome State Fault Refusal := hostRow 0x0204 speedSetBody
/-- STREAM_STATUS. -/
def execStreamStatus : Nat → Hdr → Bytes → State → Host.Outcome State Fault Refusal := hostRow 0x0205 streamStatusBody

end Sys2Proof.Machine
end

