-- ==== Sys2Proof/Machine/OutOps.lean ====
section
/-! DEFINITION. The output ring and the hand-over of image rows (04 R103 to R106; 12 R357, R369, R376 to R380, R385). -/
namespace Sys2Proof.Machine

/-- Image and thumbnail writes may go on (R380). -/
def imageRoom (s : State) : Bool := decide (occupancy s + par s 0x09F00005 < par s 0x09F00002)

def modTx (p : Nat) (f : TxPort → TxPort) (s : State) : State :=
  { s with out := { s.out with ports := modNth s.out.ports p f } }

/-- The next frame number of a virtual channel: 1 to 65,535, then 1 again (R357). -/
def nextFrame (s : State) (p vc : Nat) : Nat :=
  let n := Tab.get (nth s.out.ports p TxPort.reset).numbers vc 0
  if 65535 ≤ n then 1 else n + 1

/-! ### The pyramid (04 R104) -/

/-- One level from the one above: rows of channel-interleaved pixels. -/
def pixelAt (rows : List (List Nat)) (ch x y c : Nat) : Nat := nth (nth rows y []) (x * ch + c) 0
def halveRows (ch w : Nat) (rows : List (List Nat)) : List (List Nat) :=
  let h := rows.length
  (List.range (ceilDiv h 2)).map (fun j => (List.range (ceilDiv w 2)).flatMap (fun i => (List.range ch).map (fun c =>
    let x1 := Nat.min (2 * i + 1) (w - 1)
    let y1 := Nat.min (2 * j + 1) (h - 1)
    (pixelAt rows ch (2 * i) (2 * j) c + pixelAt rows ch x1 (2 * j) c + pixelAt rows ch (2 * i) y1 c + pixelAt rows ch x1 y1 c + 2) / 4)))

/-- Level `l` of an image, and its width. -/
def pyramid (ch w : Nat) (rows : List (List Nat)) : Nat → List (List Nat)
  | 0 => rows
  | l + 1 => halveRows ch (ceilDiv w (2 ^ l)) (pyramid ch w rows l)

/-- 8-bit luma of a pixel (R369). -/
def luma8 (px : List Nat) : Nat :=
  if px.length < 3 then nth px 0 0 else (nth px 0 0 + 2 * nth px 1 0 + nth px 2 0 + 2) / 4

/-- The pixels of a row. -/
def pixels (ch : Nat) : Nat → List Nat → List (List Nat)
  | 0, _ => []
  | n + 1, r => r.take ch :: pixels ch n (r.drop ch)

def lumaRow (ch w : Nat) (r : List Nat) : Bytes := (pixels ch w r).map (fun p => BitVec.ofNat 8 (luma8 p))

/-- A row as RGB888: blue, green, red for each pixel (log 33); a stream of fewer channels repeats channel 0. -/
def rgbRow (ch w : Nat) (r : List Nat) : Bytes :=
  (pixels ch w r).flatMap (fun p =>
    let c := fun i => BitVec.ofNat 8 (if ch < 3 then nth p 0 0 else nth p i 0)
    [c 2, c 1, c 0])

/-! ### Handing bands over (04 R106; 12 R359, R376 to R378) -/

/-- The level of the side's thumbnail (R369). -/
def thumbLevel (s : State) (h : Sheet) : Nat := Nat.min (h.op s 0x05) (h.pp s 0x05 - 1)

/-- Width of the prepared image, and channels of its rows. -/
def Sheet.w (h : Sheet) : Nat := (h.geo.map Geometry.w).getD 0
def Sheet.ch (s : State) (h : Sheet) : Nat := h.ip s 0x04

/-- The rows of a side that the next hand-over takes: those of one band. -/
def nextBandRows (h : Sheet) : Nat := Nat.min 128 (h.rows.length - h.rowsOut)

/-- One band of a side is handed over: thumbnail rows, ring entries, and the rows in the port's queue. -/
def handBand (id : Nat) (s : State) : State :=
  match sheetAt s id with
  | none => s
  | some h =>
    let n := nextBandRows h
    let ch := h.ch s
    let w := h.w
    let rows := (h.rows.drop h.rowsOut).take n
    let l := thumbLevel s h
    let tb := ceilDiv n (2 ^ l) * ceilDiv w (2 ^ l)
    let s := if s.out.ring.any (fun e => e.kind == .thumb id) then
        refreshHigh (modEntries (fun k => k == .thumb id) (fun e => { e with bytes := e.bytes + tb }) s)
      else putEntries [⟨.thumb id, 8 + tb, false, true⟩] s
    let kind := imageOut s h
    let s := modSheet id (fun x => { x with rowsOut := h.rowsOut + n }) s
    if (kind = 0 ∧ !retains s h) ∨ h.roi then s
    else
      let fmt := if kind = 1 then 0x24 else 0x2A
      let data := rows.map (fun r => if kind = 1 then rgbRow ch w r else lumaRow ch w r)
      let entries := (List.range n).map (fun i =>
        (⟨.imageRow id (h.rowsOut + i), (nth data i []).length, kind == 0, retains s h⟩ : RingEntry))
      let s := putEntries entries s
      if kind = 0 then s
      else
        let port := h.op s 0x02
        let vc := h.op s 0x03
        let f := if h.frame = 0 then nextFrame s port vc else h.frame
        let total := if h.closed then h.edge.length else 0
        let outs := (List.range n).map (fun i =>
          (⟨id, h.stream, vc, h.rowsOut + i, fmt, nth data i [], h.closed && h.rowsOut + i + 1 == total, s.clk.tb⟩ : OutRow))
        let s := modSheet id (fun x => { x with frame := f }) s
        modTx port (fun p => { p with rows := p.rows ++ outs, numbers := if h.frame = 0 then Tab.set p.numbers vc f else p.numbers }) s

/-- Bands of a side are handed over while the ring takes them (R380). -/
def handRows : Nat → Nat → State → State
  | 0, _, s => s
  | n + 1, id, s =>
    match sheetAt s id with
    | some h => if h.alive && decide (h.rowsOut < h.rows.length) && imageRoom s then handRows n id (handBand id s) else s
    | none => s

/-- Every side that waits for room hands over what it can. -/
def handAll (s : State) : State := (s.prep.sheets.map Sheet.id).foldl (fun s id => handRows 600 id s) s

/-- A transmitted or released entry frees room for bands that wait. -/
def roomFreed (s : State) : State := handAll (freeEntries s)

end Sys2Proof.Machine
end

