-- ==== Sys2Proof/Machine/Prep.lean ====
section
/-! DEFINITION. Page preparation: bands, regions, steering, batches and augmentation (04). -/
namespace Sys2Proof.Machine

/-! ### Deskew (04 R103) -/

/-- The ring entry that holds line `y` of a side. -/
def lineOf (s : State) (h : Sheet) (y : Int) : Option RingLine :=
  if y < 0 then none else (streamAt s h.stream).ring.find? (fun e => e.seq == h.base + y.toNat)

/-- An input sample; a column outside the line, or a line that never came (log 36), reads as FILL. -/
def inputAt (l : Option RingLine) (px fill c : Nat) (x : Int) : Nat :=
  match l with
  | some e => if 0 ≤ x ∧ x < px then nth (nth e.px c []) x.toNat 0 else fill
  | none => fill

/-- The bilinear interpolation of R103, with fractions of 1/256. -/
def bilinear (p00 p01 p10 p11 fx fy : Nat) : Nat :=
  ((256 - fx) * (256 - fy) * p00 + fx * (256 - fy) * p01 + (256 - fx) * fy * p10 + fx * fy * p11 + 32768) / 65536

/-- The position of prepared pixel (u, r), in 1/256: x and y. -/
def sourceAt (g : Geometry) (u r : Nat) : Int × Int :=
  let u0 : Int := if g.sinT < 0 then g.w - 1 else 0
  let d : Int := u - u0
  ((g.xa + d * g.cosT - r * g.sinT) / 2 ^ 22, (r * g.cosT + d * g.sinT) / 2 ^ 22)

/-- One prepared row, channel-interleaved. -/
def prepareRow (s : State) (h : Sheet) (g : Geometry) (r : Nat) : List Nat :=
  let px := h.width
  let deep := h.ip s 0x42 == 1
  let fill := if deep then h.pp s 0x04 * 257 else h.pp s 0x04
  (List.range g.w).flatMap (fun u =>
    let p := sourceAt g u r
    let xi := p.1 / 256
    let yi := p.2 / 256
    let fx := (p.1 % 256).toNat
    let fy := (p.2 % 256).toNat
    let a := lineOf s h yi
    let b := lineOf s h (yi + 1)
    (List.range (h.ch s)).map (fun c =>
      let v := bilinear (inputAt a px fill c xi) (inputAt a px fill c (xi + 1)) (inputAt b px fill c xi) (inputAt b px fill c (xi + 1)) fx fy
      if deep then Nat.min 255 ((v + 128) / 256) else v))

/-- The substituted lines that a row reads, by index in the side. -/
def rowSubstOf (s : State) (h : Sheet) (g : Geometry) (r : Nat) : List Nat :=
  let lo := Nat.min (sourceAt g 0 r).2.toNat (sourceAt g (g.w - 1) r).2.toNat
  let hi := Nat.max (sourceAt g 0 r).2.toNat (sourceAt g (g.w - 1) r).2.toNat
  ((List.range ((hi + 255) / 256 + 1 - lo / 256)).map (lo / 256 + ·)).filter (fun y =>
    match lineOf s h y with | some e => e.corrupt | none => false)

/-! ### Regions and samples (04 R107 to R114) -/

/-- Prepared rows that a region's sample needs (R109). -/
def rowsNeeded (r : Region) : Nat :=
  if 100 < r.angle.natAbs then r.y + r.h + 1 + ((r.w * (sin30 (r.angle.natAbs * 10)).toNat + 2 ^ 30 - 1) / 2 ^ 30)
  else r.y + r.h + 1 + ceilDiv (175 * r.w) 10000

/-- All bands of the side have been prepared. -/
def Sheet.whole (h : Sheet) : Bool := h.closed && decide (h.bands ≤ h.prepared)

def regionReady (h : Sheet) (r : Region) : Bool := h.whole || decide (rowsNeeded r ≤ h.rows.length)

/-- A side that pre-cuts steering regions (R112, HOLD and AHEAD). -/
def preCuts (s : State) (h : Sheet) : Bool := h.pp s 0x10 == 1 || h.pp s 0x10 == 2

/-- The rectangle that a sample is cut from: a steering region's own for its index (R113). -/
def cropOf (s : State) (h : Sheet) (i : Nat) : Option Region :=
  if preCuts s h && decide (i < h.steer.length) then h.steer[i]? else h.regions.find? (fun r => r.index == i)

def express (s : State) (h : Sheet) : Bool := h.pp s 0x20 == 1

/-- The image declares the class. -/
def classDecl (s : State) (c : Nat) : Option BatchClass := s.image.bind (fun i => Tab.find i.classes c)

/-- The samples of a side that may be offered to batching, by index and class (R109, R112). -/
def samplesDue (s : State) (h : Sheet) : List (Nat × Nat) :=
  let mine := h.regions.filterMap (fun r => if r.target ≠ 0xFF then some (r.index, r.target) else none)
  let ahead := if h.pp s 0x10 = 2 then
    ((List.range h.steer.length).filterMap (fun i => (h.steer[i]?).bind (fun r => if r.target ≠ 0xFF then some (i, r.target) else none)))
    else []
  (mine ++ ahead.filter (fun e => !mine.contains e)).filter (fun e =>
    !h.asked.contains e.1 && (classDecl s e.2).isSome && (match cropOf s h e.1 with | some r => regionReady h r | none => false))

/-- Due samples wait for a batch. -/
def offerSamples (id : Nat) (s : State) : State :=
  match sheetAt s id with
  | some h =>
    if !h.alive then s
    else
      let due := samplesDue s h
      let l := due.map (fun e => (⟨id, e.1, e.2, h.stream, s.clk.tb, express s h, preCuts s h && decide (e.1 < h.steer.length), h.edge.t0⟩ : Sample))
      modSheet id (fun x => { x with asked := x.asked ++ due.map Prod.fst })
        { s with prep := { s.prep with samples := s.prep.samples ++ l } }
  | none => s

def modCount (k : Nat) (f : PrepCounts → PrepCounts) (s : State) : State :=
  { s with prep := { s.prep with counts := modNth s.prep.counts k f } }

/-- Intersection area of two rectangles. -/
def overlapArea (a b : Region) : Nat :=
  (Nat.min (a.x + a.w) (b.x + b.w) - Nat.max a.x b.x) * (Nat.min (a.y + a.h) (b.y + b.h) - Nat.max a.y b.y)

/-- The steering region that a detector region adopts (R113): area ratio against STEER_IOU ÷ 256. -/
def adopts (s : State) (h : Sheet) (d : Region) : Option Nat :=
  let cand := (List.range h.steer.length).filterMap (fun i =>
    match h.steer[i]? with
    | some q =>
      let a := overlapArea d q
      let u := d.w * d.h + q.w * q.h - a
      if !h.adopted.contains i && q.kind == d.kind && q.target == d.target && decide (0 < u) && decide (h.pp s 0x11 * u ≤ 256 * a) then
        some (i, a, u) else none
    | none => none)
  (cand.foldl (fun (m : Option (Nat × Nat × Nat)) e =>
    match m with
    | some b => if b.2.1 * e.2.2 < e.2.1 * b.2.2 then some e else some b
    | none => some e) none).map Prod.fst

/-- The list of a side completes: steering regions that nothing adopted are withdrawn, and the list steers the next side. -/
def completeList (id : Nat) (s : State) : State :=
  match sheetAt s id with
  | some h =>
    let gone := if preCuts s h then (List.range h.steer.length).filter (fun i => !h.adopted.contains i) else []
    let s := modSheet id (fun x => { x with listDone := true }) s
    let s := gone.foldl (fun s i =>
      prepEvent h.stream 5 0x0434 id i max32 (((h.steer[i]?).map regionBytes).getD [])
        (modCount h.stream (fun c => { c with withdrawn := inc32 c.withdrawn 1 })
          { s with prep := { s.prep with samples := s.prep.samples.filter (fun x => !(x.sheet == id && x.region == i)) } })) s
    let s := { s with prep := { s.prep with steer := setNth s.prep.steer h.stream (h.regions.take 1024) } }
    prepEvent h.stream 2 0 id 0xFFFF max32 [] s
  | none => s

/-- A region record reaches its side. -/
def takeRegion (r : Region) (s : State) : State :=
  match sheetAt s r.sheet with
  | none => s
  | some h =>
    if !h.alive || h.listDone then s
    else
      let id := h.id
      let s :=
        if 4096 ≤ h.regions.length then prepEvent h.stream 4 0x0330 id 0xFFFF max32 (regionBytes r) s
        else
          let ad := if preCuts s h && !r.host then adopts s h r else none
          let i := match ad with | some q => q | none => if r.index = 0xFFFF then h.nextIndex else r.index
          let r := { r with index := i, link := match ad with | some q => q | none => r.link, steered := r.steered || ad.isSome }
          let s := modSheet id (fun x => { x with
            regions := x.regions ++ [r]
            adopted := match ad with | some q => x.adopted ++ [q] | none => x.adopted
            nextIndex := if ad.isNone then Nat.max x.nextIndex (i + 1) else x.nextIndex }) s
          if ad.isSome then modCount h.stream (fun c => { c with adopted := inc32 c.adopted 1 }) s else s
      let s := if r.last then completeList id s else s
      offerSamples id s

/-! ### Cutting (04 R103, R110, R125) -/

/-- A pixel of a pyramid level; outside the image it reads as FILL. -/
def imageAt (rows : List (List Nat)) (ch w fill c : Nat) (x y : Int) : Nat :=
  if 0 ≤ x ∧ x < w ∧ 0 ≤ y ∧ y < rows.length then pixelAt rows ch x.toNat y.toNat c else fill

/-- What a cut needs: the level's rows, their width and number, the scaled width, SQUEEZED. -/
structure Cut where
  level : Nat
  rows : List (List Nat)
  w : Nat
  validW : Nat
  squeezed : Bool

/-- The level of R110: min(PYR_LEVELS − 1, ⌊log₂(H ÷ Hc)⌋). -/
def cutLevel (levels h hc : Nat) : Nat := Nat.min (levels - 1) (Nat.log2 (h / hc))

def cutOf (s : State) (h : Sheet) (c : BatchClass) (r : Region) : Cut :=
  let w := roundDiv (r.w * c.hc) r.h
  let l := if r.h < 2 * c.hc then 0 else cutLevel (h.pp s 0x05) r.h c.hc
  ⟨l, pyramid (h.ch s) h.w h.rows l, ceilDiv h.w (2 ^ l), Nat.min w c.wc, decide (c.wc < w)⟩

/-- The affine map of a sample pixel to the prepared image (log 37): scale, then the residual angle about the region's centre;
an augmentation's inverse first, about the sample's centre (R125). -/
def cutMap (c : BatchClass) (k : Cut) (r : Region) (aug : Option Aug) (i j : Nat) : Rat × Rat :=
  let vw : Rat := (k.validW : Nat)
  let hc : Rat := (c.hc : Nat)
  let px : Rat := (i : Nat) - vw / 2
  let py : Rat := (j : Nat) - hc / 2
  let (px, py) := match aug with
    | some a =>
      let x := (px - (a.shiftX : Rat) / 16) / ((a.scaleX : Nat) / 16384)
      let y := (py - (a.shiftY : Rat) / 16) / ((a.scaleY : Nat) / 16384)
      let x := x - y * (a.shear : Rat) / 1000
      let sn : Rat := (sin30 (a.rotate * 10) : Int)
      let cs : Rat := (cos30 (a.rotate * 10) : Int)
      ((x * cs + y * sn) / 2 ^ 30, (y * cs - x * sn) / 2 ^ 30)
    | none => (px, py)
  let dx := px * (r.w : Nat) / vw
  let dy := py * (r.h : Nat) / hc
  let sn : Rat := (sin30 (r.angle * 10) : Int)
  let cs : Rat := (cos30 (r.angle * 10) : Int)
  ((r.x : Nat) + (r.w : Nat) / 2 + (dx * cs - dy * sn) / 2 ^ 30, (r.y : Nat) + (r.h : Nat) / 2 + (dx * sn + dy * cs) / 2 ^ 30)

/-- One pixel of a cut. -/
def cutPixel (s : State) (h : Sheet) (c : BatchClass) (k : Cut) (r : Region) (aug : Option Aug) (i j ch : Nat) : Nat :=
  let p := cutMap c k r aug i j
  let sc : Rat := 2 ^ k.level
  let x := (p.1 * 256 / sc).floor
  let y := (p.2 * 256 / sc).floor
  let src := if ch < h.ch s then ch else 0
  let at_ := imageAt k.rows (h.ch s) k.w (h.pp s 0x04) src
  bilinear (at_ (x / 256) (y / 256)) (at_ (x / 256 + 1) (y / 256)) (at_ (x / 256) (y / 256 + 1)) (at_ (x / 256 + 1) (y / 256 + 1))
    (x % 256).toNat (y % 256).toNat

/-- A picture of `w` × `h` pixels of `ch` channels, row by row, as the stages of R125 change it. -/
abbrev Picture := List Nat

def pic (w ch : Nat) (p : Picture) (x y c : Nat) : Nat := nth p ((y * w + x) * ch + c) 0
def buildPic (w h ch : Nat) (f : Nat → Nat → Nat → Nat) : Picture :=
  (List.range h).flatMap (fun y => (List.range w).flatMap (fun x => (List.range ch).map (f x y)))

/-- BLUR: the box average of radius `n`, edges repeated, ties up. -/
def blur (w h ch n : Nat) (p : Picture) : Picture :=
  if n = 0 then p
  else
    let cl := fun (v : Int) (m : Nat) => (clampI 0 (m - 1 : Int) v).toNat
    let d := (List.range (2 * n + 1)).map (fun (i : Nat) => (i : Int) - n)
    buildPic w h ch (fun x y c =>
      roundDiv ((d.flatMap (fun dy => d.map (fun dx => pic w ch p (cl ((x : Int) + dx) w) (cl ((y : Int) + dy) h) c))).foldl (· + ·) 0)
        ((2 * n + 1) * (2 * n + 1)))

/-- The noise of R125: the generator and its effect, over every pixel and channel in order. -/
def noiseNext (x : Nat) : Nat :=
  let a := (x ^^^ (x <<< 13)) % 2 ^ 32
  let b := a ^^^ (a >>> 17)
  (b ^^^ (b <<< 5)) % 2 ^ 32
def noise (amp : Nat) : Nat → Picture → Picture
  | _, [] => []
  | x, v :: r =>
    let y := noiseNext x
    (clampI 0 255 ((v : Int) + (((y >>> 24 : Nat) : Int) - 128) * amp / 128)).toNat :: noise amp y r

/-- Contrast and brightness. -/
def contrast (a : Aug) (v : Nat) : Nat := (clampI 0 255 (roundDivI (((v : Int) - 128) * a.contrast) 16384 + 128 + a.bright)).toNat

/-- The stages of R125 after the interpolation. -/
def augment (a : Aug) (w h ch : Nat) (p : Picture) : Picture :=
  let p := (blur w h ch a.blur p).map (contrast a)
  let p := if bit a.flags 0 ∧ 3 ≤ ch then
      buildPic w h ch (fun x y _ => (pic w ch p x y 0 + 2 * pic w ch p x y 1 + pic w ch p x y 2 + 2) / 4)
    else p
  let p := if bit a.flags 2 then noise a.amp a.seed p else p
  if bit a.flags 1 then
    let e := fun i => nth a.erase i 0
    buildPic w h ch (fun x y c =>
      if e 0 ≤ x ∧ x < e 0 + e 2 ∧ e 1 ≤ y ∧ y < e 1 + e 3 then a.eraseValue else pic w ch p x y c)
  else p

/-- The pixels of a sample: the cut, left-aligned, and PAD (R110). -/
def cutSample (s : State) (h : Sheet) (c : BatchClass) (r : Region) (aug : Option Aug) : Picture × Nat × Bool :=
  let k := cutOf s h c r
  let p := buildPic k.validW c.hc c.channels (fun x y ch => cutPixel s h c k r aug x y ch)
  let p := match aug with | some a => augment a k.validW c.hc c.channels p | none => p
  (buildPic c.wc c.hc c.channels (fun x y ch => if x < k.validW then pic k.validW c.channels p x y ch else c.pad), k.validW, k.squeezed)

/-! ### Batches (04 R116 to R120) -/

def padSlot (c : BatchClass) : Picture := List.replicate (c.hc * c.wc * c.channels) c.pad

/-- The order of R117 among waiting samples, as one key. -/
def sampleKey (x : Sample) : Nat :=
  ((if x.express then 0 else 1) * 2 ^ 64 + x.ready) * 2 ^ 20 + x.stream * 2 ^ 16 + x.region

/-- An empty slot of a batch. -/
def emptySlot (x : Option Sample) : BatchSlot := ⟨x, 0, 0, 0, 0, 0, 0, []⟩

/-- Host regions that have not come by their time fall back to the detector (R122): `t` is the close stamp. -/
def fallbacks (t : Nat) (s : State) : State :=
  s.prep.sheets.foldl (fun s h =>
    let tt := if h.ip s 0x00 = 0 then h.edge.trail else h.closedAt
    if h.alive && h.hostWait && h.closed && !h.listDone && decide (tt + h.pp s 0x31 < t) then
      prepEvent h.stream 7 0 h.id 0xFFFF max32 []
        (modCount h.stream (fun c => { c with fallbacks := inc32 c.fallbacks 1 })
          (modSheet h.id (fun x => { x with hostWait := false, offered := decide (0 < x.prepared) }) s))
    else s) s

/-- A batch of a class closes (R117). -/
def closeBatch (c : Nat) (s : State) : State :=
  match classDecl s c with
  | none => s
  | some d =>
    let t := s.clk.tb
    let s := adoptClass c s
    let stale := (s.prep.sheets.filter (fun h => h.alive && staleAt s h t && s.prep.samples.any (fun x => x.sheet == h.id && x.cls == c))).map Sheet.id
    let s := stale.foldl (fun s id => discardStale id s) s
    let size := par s (0x03400000 + c * 0x100)
    let waiting := sortBy sampleKey (s.prep.samples.filter (fun x => x.cls == c && decide (x.ready ≤ t)))
    let take := waiting.take size
    let n := (nth s.prep.classes c ⟨0, 0, 0⟩).batches
    let b : Batch := ⟨n, c, t, nth s.cmd.classEpochs c 0, d.tally,
      take.map (fun x => emptySlot (some x)) ++ List.replicate (size - take.length) (emptySlot none), false⟩
    let s := { s with prep := { s.prep with
      samples := s.prep.samples.filter (fun x => !take.contains x)
      batches := s.prep.batches ++ [b]
      classes := modNth s.prep.classes c (fun k => { k with batches := inc32 k.batches 1, fillers := inc32 k.fillers (size - take.length) }) } }
    if (s.image.bind (fun i => i.detectorClass)) == some c then fallbacks t s else s

def waitingOf (s : State) (c : Nat) : Nat := (s.prep.samples.filter (fun x => x.cls == c)).length

/-- Classes with SIZE samples waiting close. -/
def closeFull : Nat → State → State
  | 0, s => s
  | n + 1, s =>
    match (List.range 16).find? (fun c => (classDecl s c).isSome && decide (par s (0x03400000 + c * 0x100) ≤ waitingOf s c)) with
    | some c => closeFull n (closeBatch c s)
    | none => s

/-- The status of a corrupt sample (R119). -/
def corruptSample (s : State) (h : Sheet) (r : Region) : Option Nat :=
  match h.dead with
  | some st => some st
  | none =>
    if h.w < r.x + r.w ∨ (h.closed ∧ h.edge.length < r.y + r.h) ∨ 1000 < r.angle.natAbs then some 0x0641
    else if r.w < 4 ∨ r.h < 4 then some 0x0642
    else
      let rows := (h.rowSubst.drop (r.y - 1)).take (rowsNeeded r - (r.y - 1))
      if h.pp s 0x40 < rows.flatten.eraseDups.length then some 0x0640 else none

/-- The sample's side reads substituted lines below the limit. -/
def readsSubst (h : Sheet) (r : Region) : Bool := ((h.rowSubst.drop (r.y - 1)).take (rowsNeeded r - (r.y - 1))).any (fun l => !l.isEmpty)

/-- Flags of a slot (R120). -/
def slotFlags (valid filler subst squeezed steered exp applied none_ host : Bool) : Nat :=
  b2n valid + 2 * b2n filler + 4 * b2n subst + 8 * b2n squeezed + 16 * b2n steered + 32 * b2n exp + 64 * b2n applied
    + 128 * b2n none_ + 256 * b2n host

/-- One slot is filled: its record, and the state with counts, events and augmentation records. -/
def fillSlot (c : BatchClass) (bid : Nat) (b : BatchSlot) (s : State) : BatchSlot × State :=
  match b.sample with
  | none => ({ b with flags := slotFlags false true false false false false false false false, px := padSlot c }, s)
  | some x =>
    match sheetAt s x.sheet with
    | none => ({ b with px := padSlot c, flags := 0 }, s)
    | some h =>
      let r := (cropOf s h x.region).getD ⟨h.id, x.region, 0, 0xFF, 0, 0, 0, 0, 0, 0, false, false, false, 0xFFFF, 0xFFFF, 0⟩
      let b := { b with epochIntk := h.edge.epoch, epochPrep := h.edge.epoch }
      let rec_ := s.prep.aug.find? (fun a => a.sheet == h.id && a.region == x.region)
      let s := modSheet h.id (fun y => { y with cut := y.cut ++ [x.region] }) s
      match corruptSample s h r with
      | some st =>
        let s := modCount x.stream (fun k => { k with corrupt := inc32 k.corrupt 1 }) s
        let s := { s with prep := { s.prep with classes := modNth s.prep.classes x.cls (fun k => { k with corrupt := inc32 k.corrupt 1 }) } }
        let s := if h.dead.isSome then s else
            let t := prepEvent x.stream 4 st h.id x.region bid (regionBytes r) s
            if r.kind = 1 then { t with serv := { t.serv with lines := t.serv.lines ++ [Line.corrupt h.id x.region c.job st] } } else t
        ({ b with status := st, px := padSlot c
                  flags := slotFlags false false false false x.steered x.express false false r.host }, s)
      | none =>
        let aug := if c.aug then rec_ else none
        let p := cutSample s h c r aug
        let s := modCount x.stream (fun k => { k with cut := inc32 k.cut 1 }) s
        let s := match rec_ with
          | some a => { s with prep := { s.prep with
              aug := s.prep.aug.erase a, augUnused := if c.aug then s.prep.augUnused else inc32 s.prep.augUnused 1 } }
          | none => s
        ({ b with validW := p.2.1, validH := c.hc, px := p.1
                  flags := slotFlags true false (readsSubst h r) p.2.2 x.steered x.express aug.isSome (c.aug && aug.isNone) r.host }, s)

def fillSlots (c : BatchClass) (bid : Nat) : List BatchSlot → State → List BatchSlot × State
  | [], s => ([], s)
  | b :: r, s =>
    let f := fillSlot c bid b s
    let g := fillSlots c bid r f.2
    (f.1 :: g.1, g.2)

/-- The descriptor of a filled batch (R120). -/
def batchBytes (b : Batch) : Bytes :=
  pack [(4, b.id), (1, b.cls), (1, b.slots.length), (1, (b.slots.filter (fun x => bit x.flags 0)).length), (1, 0), (8, b.close),
        (4, b.epoch), (2, b.tally)] ++ zeros 42 ++
  b.slots.flatMap (fun x =>
    pack [(4, (x.sample.map Sample.sheet).getD 0), (2, (x.sample.map Sample.region).getD 0xFFFF), (2, x.status), (2, x.validW), (2, x.validH),
          (2, x.flags), (2, 0), (8, (x.sample.map Sample.t0).getD 0), (4, x.epochIntk), (4, x.epochPrep)])

/-- A picture in the class's layout (07 R208, R210), filled to 64 bytes. -/
def layoutBytes (c : BatchClass) (p : Picture) : Bytes :=
  let b := if c.layout = 1 then 16 else 32
  let raw := if c.layout = 0 then p.map (BitVec.ofNat 8)
    else (List.range (ceilDiv c.channels b)).flatMap (fun g => (List.range c.hc).flatMap (fun y => (List.range c.wc).flatMap (fun x =>
      (List.range b).map (fun i => BitVec.ofNat 8 (if g * b + i < c.channels then pic c.wc c.channels p x y (g * b + i) else 0)))))
  fit (64 * ceilDiv raw.length 64) raw

def writeCommons (c off : Nat) (p : Bytes) (s : State) : State :=
  modCluster c (fun k => { k with commons := Memory.writeN k.commons off p }) s

/-- The clusters whose commons get a class's batches. -/
def batchClusters (s : State) (d : BatchClass) : List Nat :=
  bitsOf 16 (((s.image.bind (fun i => Tab.find i.jobs d.job)).map JobDecl.clusters).getD 0)

/-- A band slot without a detector is free once its output and the cuts that wait on it are done (R105, HOST_REGIONS). -/
def freeHostBands (s : State) : State :=
  { s with prep := { s.prep with bandSlots := s.prep.bandSlots.filter (fun b =>
      match sheetAt s b.sheet with
      | some h => !(b.owed == 0 && decide (128 * b.band + b.rows ≤ h.rowsOut) && !s.prep.samples.any (fun x => x.sheet == h.id))
      | none => b.owed != 0) } }

/-- BATCH_FILLED: the oldest closed batch of the class is filled, and its tally signalled. -/
def fillBatch (c : Nat) (s : State) : State :=
  match classDecl s c, s.prep.batches.find? (fun b => b.cls == c && !b.filled) with
  | some d, some b =>
    let f := fillSlots d b.id b.slots s
    let b' := { b with slots := f.1, filled := true }
    let s := { f.2 with prep := { f.2.prep with batches := f.2.prep.batches.map (fun x => if x = b then b' else x) } }
    let body := fit (64 * ceilDiv (64 + 32 * f.1.length) 64) (batchBytes b') ++ f.1.flatMap (fun x => layoutBytes d x.px)
    let s := (batchClusters s d).foldl (fun s k => writeCommons k (Config.batchAt c k) body s) s
    signalTally b.tally 1 (freeHostBands s)
  | _, _ => s

/-- BATCH_FILLED. -/
def execBatchFilled (dt c : Nat) (s : State) : Host.Outcome State Fault Refusal :=
  let s := advance dt s
  .next (if awake s && !recovering s then fillBatch c s else s)

/-! ### Bands (04 R99, R105, R112, R127) -/

/-- The side whose band a stream prepares next. -/
def nextSide (s : State) (k : Nat) : Option Sheet :=
  s.prep.sheets.find? (fun h => h.stream == k && h.alive && decide (h.prepared < h.released.length))

/-- The slots of a stream in use. -/
def slotsUsed (s : State) (k : Nat) : Nat := (s.prep.bandSlots.filter (fun b => b.stream == k)).length

/-- The band finds a free slot. -/
def slotFree (s : State) (k : Nat) : Bool := decide (slotsUsed s k < ppar s k 0x06)

/-- The stream's next band is the next of its die: by release stamp, ties to the lower stream, among those with a slot (R99). -/
def bandTurn (s : State) (k : Nat) : Bool :=
  let key := fun j => (nextSide s j).bind (fun h => (h.released[h.prepared]?).map (fun t => t * 16 + j))
  match key k with
  | some v => slotFree s k && (List.range 12).all (fun j =>
      !(dieOf s j == dieOf s k && slotFree s j) || (match key j with | some w => decide (v ≤ w) | none => true))
  | none => false

/-- A band meets a steering region widened by STEER_MARGIN (R112). -/
def meetsSteer (s : State) (h : Sheet) (r0 n : Nat) : Bool :=
  let m := h.pp s 0x12
  h.steer.any (fun q => decide (q.y < r0 + n + m) && decide (r0 < q.y + q.h + m) && decide (q.x < h.w + m))

/-- The free slot of lowest number. -/
def slotIndex (s : State) (k : Nat) : Nat :=
  ((List.range 8).find? (fun i => !s.prep.bandSlots.any (fun b => b.stream == k && b.index == i))).getD 0

/-- The band header (R105). -/
def bandHeader (b : BandSlot) : Bytes :=
  pack [(4, b.sheet), (2, b.band), (2, b.rows), (2, b.width), (1, b.levels), (1, b.flags), (2, b.tally), (2, 0), (8, b.t0), (4, b.epochIntk), (4, b.epochPrep)]

/-- A slot's bytes: the header, and every level as a CI map (07 R210). -/
def bandImage (s : State) (h : Sheet) (b : BandSlot) (rows : List (List Nat)) : Bytes :=
  bandHeader b ++ (List.range b.levels).flatMap (fun l => ((pyramid (h.ch s) b.width rows l).flatten).map (BitVec.ofNat 8))

/-- Bands that wait for a slot are noted, for SPLIT_ADVISE (R123). -/
def noteWaiting (k : Nat) (s : State) : State :=
  match nextSide s k with
  | some h => modSheet h.id (fun x => { x with waitingSince := if slotFree s k then none else if x.waitingSince.isSome then x.waitingSince else some s.clk.tb }) s
  | none => s

/-- The next band of a side is prepared into a slot. -/
def prepareBand (k : Nat) (h : Sheet) (g : Geometry) (s : State) : State :=
  let j := h.prepared
  let r0 := 128 * j
  let last := h.closed && decide (j + 1 = h.bands)
  let n := if last then h.edge.length - r0 else 128
  let skip := h.roi && !meetsSteer s h r0 n
  let rows := if skip then List.replicate n (List.replicate (g.w * h.ch s) (h.pp s 0x04)) else (List.range n).map (fun i => prepareRow s h g (r0 + i))
  let subs := if skip then List.replicate n [] else (List.range n).map (fun i => rowSubstOf s h g (r0 + i))
  let i := slotIndex s k
  let c := bandSlotCluster s k i
  let b : BandSlot :=
    { stream := k, index := i, cluster := c, sheet := h.id, band := j, rows := n, width := g.w, levels := h.pp s 0x05
      flags := b2n last + 2 * b2n g.theta.isNone + 4 * b2n (subs.any (fun l => !l.isEmpty)) + 8 * b2n skip
      tally := ((s.image.map Image.bandTally).getD 0 + 8 * k + i) % 16384
      owed := if h.hostWait then 0 else (s.image.map Image.bandConsumers).getD 0
      t0 := h.edge.t0, epochIntk := h.edge.epoch, epochPrep := h.edge.epoch }
  let s := writeCommons c (Config.bandSlotAt k i) (if skip then bandHeader b else bandImage s h b rows) s
  let s := if skip then s else { s with prep := { s.prep with bandSlots := s.prep.bandSlots ++ [b] } }
  let s := modSheet h.id (fun x => { x with
    prepared := j + 1, rows := x.rows ++ rows, rowSubst := x.rowSubst ++ subs, offered := x.offered || !h.hostWait
    waitingSince := none }) s
  let s := if last then
      prepEvent k 1 0 h.id 0xFFFF max32 []
        (dropCharge 4 h.extra (.prep k) (modCount k (fun q => { q with prepared := inc32 q.prepared 1 }) s))
    else s
  let s := handRows 600 h.id s
  let s := freeHostBands (offerSamples h.id (pruneRing k s))
  noteWaiting k (closeFull 64 (releaseAll k s))

/-- BAND_PREPARED: an empty last band cannot be; a band without a slot waits (R105). -/
def execBandPrepared (dt k : Nat) (s : State) : Host.Outcome State Fault Refusal :=
  let s := advance dt s
  .next (if !(awake s && !recovering s) then s
    else
      let s := noteWaiting k (releaseAll k s)
      match nextSide s k with
      | some h =>
        (match h.geo with
         | some g => if bandTurn s k then prepareBand k h g s else s
         | none => s)
      | none => s)

/-- SPLIT_ADVICE (R123): at most once for each side. -/
def execSplitAdvice (dt k : Nat) (s : State) : Host.Outcome State Fault Refusal :=
  let s := advance dt s
  .next (match nextSide s k with
    | some h =>
      let adv := par s 0x03F00001
      match h.waitingSince with
      | some t =>
        if awake s && adv != 0 && !h.advised && decide (t + adv < s.clk.tb) then
          prepEvent k 6 0 h.id 0xFFFF max32 [] (modSheet h.id (fun x => { x with advised := true }) s)
        else s
      | none => s
    | none => s)

/-! ### Pre-dispatch (02 R39; 04 R117) -/

/-- The classes that a job consumes close where a sample waits. -/
def closeFor (j : Nat) (s : State) : State :=
  (List.range 16).foldl (fun s c =>
    match classDecl s c with
    | some d => if d.job = j ∧ 0 < waitingOf s c then closeBatch c s else s
    | none => s) s

/-- PRE_DISPATCH: a STEP_START's batches close, and the occurrence is offered to the ledger. -/
def execPreDispatch (dt n : Nat) (s : State) : Host.Outcome State Fault Refusal :=
  let s := advance dt s
  .next (if canPreDispatch s n then
      offer n (match (slotAt s n).map Slot.use with | some (.stepStart j _) => closeFor j s | _ => s)
    else s)

/-! ### The region queue (04 R106; log 35) -/

/-- The region record that 32 bytes spell. -/
def regionOf (p : Bytes) : Region :=
  let fl := byteAt p 19
  { sheet := leAt p 0 4, index := leAt p 4 2, kind := byteAt p 6, target := byteAt p 7, x := leAt p 8 2, y := leAt p 10 2
    w := leAt p 12 2, h := leAt p 14 2, angle := sext 16 (leAt p 16 2), score := byteAt p 18, last := bit fl 0, steered := bit fl 1
    host := bit fl 2, link := leAt p 20 2, parent := leAt p 22 2, tag := leAt p 24 4 }

/-- Preparation reads `n` records of a stream's queue. -/
def readQueue (k cluster off : Nat) : Nat → State → State
  | 0, s => s
  | n + 1, s =>
    let i := nth s.prep.queueRead k 0
    let r := regionOf (Memory.readN (clusterAt s cluster).commons (off + 32 * (i % 4096)) 32)
    readQueue k cluster off n (takeRegion r { s with prep := { s.prep with queueRead := setNth s.prep.queueRead k (i + 1) } })

/-- A signal of a tally; where it is a region queue's, preparation takes as many records. -/
def signalAndTake (t n : Nat) (s : State) : State :=
  let s := signalTally t n s
  let qs := (s.image.map Image.regionQueues).getD []
  closeFull 64 ((List.range qs.length).foldl (fun s k =>
    match qs[k]? with
    | some (q, c, off) => if q = t then readQueue k c off (Nat.min n 4096) s else s
    | none => s) s)

/-! ### Commands (04 R130) -/

/-- The KIND values of R107. -/
def regionKindOk (k : Nat) : Bool := (decide (1 ≤ k) && decide (k ≤ 5)) || decide (0x80 ≤ k)

/-- A posted record is well formed. -/
def regionOk (s : State) (sheet : Nat) (p : Bytes) : Bool :=
  let r := regionOf p
  r.sheet == sheet && regionKindOk r.kind && (r.target == 0xFF || (classDecl s r.target).isSome) && decide (r.angle.natAbs ≤ 1000)
    && decide (byteAt p 19 < 8) && resZero p 28 4

/-- Records one after another. -/
def records (w : Nat) : Nat → Bytes → List Bytes
  | 0, _ => []
  | n + 1, p => p.take w :: records w n (p.drop w)

/-- The side takes host regions now (R122). -/
def awaitsHost (s : State) (h : Sheet) (rx : Nat) : Bool :=
  let tt := if h.ip s 0x00 = 0 then h.edge.trail else h.closedAt
  !h.listDone && (h.hostWait || (bit (h.pp s 0x30) 1 && !h.offered && decide (rx ≤ tt + h.pp s 0x31)))

/-- REGION_POST. -/
def regionPostBody (p : Packet) (s : State) : Reply :=
  let q := p.params
  let n := leAt q 4 2
  if q.length < 8 ∨ n = 0 ∨ 512 < n ∨ q.length ≠ 8 + 32 * n ∨ !resZero q 6 2 then .refuse 0x0132 []
  else match sheetAt s (leAt q 0 4) with
    | none => .refuse 0x0131 []
    | some h =>
      let l := records 32 n (q.drop 8)
      if !h.alive ∨ h.recorded then .refuse 0x0131 []
      else if !awaitsHost s h p.rx then .refuse 0x0432 []
      else if !l.all (regionOk s h.id) then .refuse 0x0132 []
      else .ok [] (closeFull 64 (l.foldl (fun s b => takeRegion { regionOf b with host := true } s) s))

/-- The record that 48 bytes spell (R124). -/
def augOf (now : Nat) (p : Bytes) : Aug :=
  { sheet := leAt p 0 4, region := leAt p 4 2, flags := leAt p 6 2, rotate := sext 16 (leAt p 8 2), shear := sext 16 (leAt p 10 2)
    scaleX := leAt p 12 2, scaleY := leAt p 14 2, shiftX := sext 16 (leAt p 16 2), shiftY := sext 16 (leAt p 18 2), contrast := leAt p 20 2
    bright := sext 16 (leAt p 22 2), seed := leAt p 24 4, amp := byteAt p 28, blur := byteAt p 29
    erase := [leAt p 32 2, leAt p 34 2, leAt p 36 2, leAt p 38 2], eraseValue := byteAt p 40, arrived := now }

def augOk (p : Bytes) : Bool :=
  let a := augOf 0 p
  decide (a.flags < 8) && decide (a.rotate.natAbs ≤ 1000) && decide (a.shear.natAbs ≤ 500)
    && decide (8192 ≤ a.scaleX) && decide (a.scaleX ≤ 32768) && decide (8192 ≤ a.scaleY) && decide (a.scaleY ≤ 32768)
    && decide (a.bright.natAbs ≤ 255) && decide (a.amp ≤ 127) && decide (a.blur ≤ 2) && (!bit a.flags 2 || a.seed != 0)
    && resZero p 30 2 && resZero p 41 7

/-- Augmentation records are applied in order up to the first refusal: its status, how many were taken, the state (R126). -/
def postAugs (now : Nat) : List Bytes → Nat → State → Option Nat × Nat × State
  | [], n, s => (none, n, s)
  | p :: r, n, s =>
    let a := augOf now p
    if !augOk p then (some 0x0133, n, s)
    else if 8192 ≤ s.prep.aug.length then (some 0x0332, n, s)
    else if ((sheetAt s a.sheet).map (fun h => h.cut.contains a.region)).getD false then (some 0x0433, n, s)
    else postAugs now r (n + 1) { s with prep := { s.prep with
      aug := s.prep.aug.filter (fun x => !(x.sheet == a.sheet && x.region == a.region)) ++ [a] } }

/-- AUG_POST. -/
def augPostBody (p : Packet) (s : State) : Reply :=
  let q := p.params
  let n := leAt q 0 2
  if q.length < 4 ∨ n = 0 ∨ 256 < n ∨ q.length ≠ 4 + 48 * n ∨ !resZero q 2 2 then .refuse 0x0133 []
  else
    let r := postAugs p.rx (records 48 n (q.drop 4)) 0 s
    match r.1 with
    | some st => .refuseWith st (le 2 r.2.1) r.2.2
    | none => .ok (le 2 r.2.1) r.2.2

/-- STEER_SET. -/
def steerSetBody (p : Packet) (s : State) : Reply :=
  let q := p.params
  let k := byteAt q 0
  let n := leAt q 2 2
  if q.length < 4 ∨ 11 < k ∨ byteAt q 1 ≠ 0 ∨ 1024 < n ∨ q.length ≠ 4 + 32 * n then .refuse 0x0130 []
  else
    let l := records 32 n (q.drop 4)
    if !l.all (regionOk s 0) then .refuse 0x0132 []
    else .ok [] { s with prep := { s.prep with steer := setNth s.prep.steer k (l.map regionOf) } }

/-- PREP_STATUS: the newest side of the stream that preparation still holds. -/
def prepStatusBody (p : Packet) (s : State) : Reply :=
  let q := p.params
  let k := byteAt q 0
  if q.length ≠ 4 ∨ 11 < k ∨ !resZero q 1 3 then .refuse 0x0130 []
  else
    let l := s.prep.sheets.filter (fun h => h.stream == k && h.alive)
    let cur := l.getLast?
    let wait := l.foldl (fun n h => if h.waitingSince.isSome then n + (h.released.length - h.prepared) else n) 0
    .ok (pack [(4, (cur.map Sheet.id).getD 0), (2, (cur.map Sheet.prepared).getD 0), (2, wait), (2, (nth s.prep.steer k []).length),
      (2, (s.prep.samples.filter (fun x => x.stream == k)).length), (4, s.prep.augUnused)]) s

/-- REGION_POST. -/
def execRegionPost : Nat → Hdr → Bytes → State → Host.Outcome State Fault Refusal := hostRow 0x0301 regionPostBody
/-- AUG_POST. -/
def execAugPost : Nat → Hdr → Bytes → State → Host.Outcome State Fault Refusal := hostRow 0x0302 augPostBody
/-- STEER_SET. -/
def execSteerSet : Nat → Hdr → Bytes → State → Host.Outcome State Fault Refusal := hostRow 0x0303 steerSetBody
/-- PREP_STATUS. -/
def execPrepStatus : Nat → Hdr → Bytes → State → Host.Outcome State Fault Refusal := hostRow 0x0304 prepStatusBody

end Sys2Proof.Machine
end

