-- ==== Sys2Proof/Machine/CoreOps.lean ====
section
/-! DEFINITION. What every core instruction shares: addresses, memory, registers, issue, loops (05 R142 to R146, R155 to
R162). -/
namespace Sys2Proof.Machine

/-- Why an instruction does not complete: a fault of class 0x07, a PARKED core map entry (R146), a base die in Doze. -/
inductive Bad where
  | fault (status : Nat)
  | parked
  | asleep (stack : Nat)
deriving DecidableEq, Repr

/-- How an instruction completes: the next one follows, or the one at an index; or it waits to be issued again. -/
inductive Done where
  | step (s : State)
  | jump (pc : Nat) (s : State)
  | stay (s : State)
deriving Repr

/-- The effect of an instruction: core, word, state. -/
abbrev Eff := Nat → Nat → State → Except Bad Done

def illegal {α : Type} : Except Bad α := .error (.fault 0x0740)
def badAddress {α : Type} : Except Bad α := .error (.fault 0x0741)

/-- The check holds, or the fault. -/
def need (b : Bool) (status : Nat) : Except Bad Unit := if b then .ok () else .error (.fault status)

/-! ### Registers (05 R155, R168) -/

def xOf (l : List Word) (i : Nat) : Nat := if i = 0 then 0 else (nth l i 0).toNat
def xr (s : State) (c i : Nat) : Nat := xOf (coreAt s c).r.x i
/-- A write of X; X0 ignores it. -/
def setX (c i v : Nat) (s : State) : State :=
  if i = 0 then s else modRegs c (fun r => { r with x := setNth r.x i (BitVec.ofNat 32 v) }) s
def vr (s : State) (c i : Nat) : List Word := nth (coreAt s c).r.v i []
def setV (c i : Nat) (v : List Word) (s : State) : State := modRegs c (fun r => { r with v := setNth r.v i v }) s
/-- A predicate; P0 reads as 1 and ignores writes. -/
def pr (s : State) (c i : Nat) : Bool := i == 0 || nth (coreAt s c).r.p i false
def setP (c i : Nat) (b : Bool) (s : State) : State :=
  if i = 0 then s else modRegs c (fun r => { r with p := setNth r.p i b }) s
def tileAt (s : State) (c t : Nat) : AccTile := Tab.get (coreAt s c).r.acc t AccTile.zero
def setTile (c t : Nat) (a : AccTile) (s : State) : State := modRegs c (fun r => { r with acc := Tab.set r.acc t a }) s
def cell (a : AccTile) (i j : Nat) : Word := nth a.cells (64 * i + j) 0

/-- An accumulator tile from its cells. -/
def tileOf (isFp : Bool) (f : Nat → Nat → Word) : AccTile := ⟨isFp, (List.range 1024).map (fun n => f (n / 64) (n % 64))⟩

/-- Numeric events of a core: clips, NaN events, saturations (06 R207). -/
def countEvents (c clips nans sats : Nat) (s : State) : State :=
  modCore c (fun k => { k with
    clipped := sat 0xFFFF (k.clipped + clips), nanOut := sat 0xFF (k.nanOut + nans), accSat := sat 0xFF (k.accSat + sats) }) s

/-! ### On-chip addresses (05 R142, R143, R146) -/

/-- Where an access goes. -/
inductive Loc where
  | scratch (core off : Nat)
  | commons (cluster off : Nat)
deriving DecidableEq, Repr

/-- The cluster whose base die holds a place. -/
def Loc.cluster : Loc → Nat
  | .scratch c _ => c / 8
  | .commons c _ => c

/-- `n` bytes at an address lie in one space: the place, whatever its power state. A PARKED entry answers none. -/
def locate (s : State) (job core a n : Nat) : Except Bad (Option Loc) :=
  match field a 31 30 with
  | 0 => if s.variant.scratchBytes < a + n then badAddress else .ok (some (.scratch core a))
  | 1 =>
    let l := field a 29 23
    let off := a % 2 ^ 23
    if s.variant.cores ≤ l ∨ s.variant.scratchBytes < off + n then badAddress
    else .ok ((nth (nth s.coreMaps job []) l none).map (fun c => .scratch c off))
  | 2 =>
    let k := field a 29 26
    let off := a % 2 ^ 22
    if s.variant.clusters ≤ k ∨ field a 25 22 ≠ 0 ∨ 4194304 < off + n then badAddress else .ok (some (.commons k off))
  | _ => badAddress

/-- The place of an access that is made now. -/
def reach (s : State) (c a n : Nat) : Except Bad Loc := do
  match ← locate s (coreAt s c).job c a n with
  | none => .error .parked
  | some l => if l == .scratch c a || sramReady s (stackOf l.cluster) then .ok l else .error (.asleep (stackOf l.cluster))

def readLoc (s : State) (l : Loc) (n : Nat) : Bytes :=
  match l with
  | .scratch c off => Memory.readN (coreAt s c).scratch off n
  | .commons c off => Memory.readN (clusterAt s c).commons off n

def writeLoc (l : Loc) (p : Bytes) (s : State) : State :=
  match l with
  | .scratch c off => modCore c (fun k => { k with scratch := Memory.writeN k.scratch off p }) s
  | .commons c off => writeCommons c off p s

/-- `n` bytes at `a` of the own scratchpad, aligned to `al`: otherwise CORE_ADDRESS. -/
def ownOk (s : State) (a n al : Nat) : Except Bad Unit :=
  need (decide (a % al = 0) && decide (a + n ≤ s.variant.scratchBytes)) 0x0741

def ownRead (s : State) (c a n : Nat) : Bytes := Memory.readN (coreAt s c).scratch a n
def ownByte (s : State) (c a : Nat) : Nat := (Memory.read (coreAt s c).scratch a).toNat
def ownLe (s : State) (c a w : Nat) : Nat := leNat (ownRead s c a w)
def ownWrite (c a : Nat) (p : Bytes) (s : State) : State := writeLoc (.scratch c a) p s

/-! ### Loops and the next instruction (05 R157, R162) -/

/-- The innermost open level: the one whose body starts last. -/
def innermost (l : List (Option LoopLevel)) : Option (Nat × LoopLevel) :=
  (List.range 4).foldl (fun m i =>
    match nth l i none, m with
    | some x, some (_, y) => if y.start < x.start then some (i, x) else m
    | some x, none => some (i, x)
    | none, _ => m) none

/-- The registers with issue at `pc`: the end of a body goes back or closes its level; none where a level inside is still
open. -/
def landAt : Nat → Nat → CoreRegs → Option CoreRegs
  | 0, pc, r => some { r with pc := pc }
  | n + 1, pc, r =>
    if r.loops.any (fun l => match l with | some x => x.stop == pc | none => false) then
      match innermost r.loops with
      | some (i, x) =>
        if x.stop ≠ pc then none
        else if 1 < x.left then some { r with pc := x.start, loops := setNth r.loops i (some { x with left := x.left - 1 }) }
        else landAt n pc { r with loops := setNth r.loops i none }
      | none => some { r with pc := pc }
    else some { r with pc := pc }

/-- The instruction has completed, and issue goes on at `pc`. -/
def goto (c pc : Nat) (s : State) : State :=
  match landAt 5 (pc % 2 ^ 32) (coreAt s c).r with
  | some r => modCore c (fun k => { k with r := r, stalled := none }) s
  | none => coreFault 0x0740 c s

/-! ### Issue (05 R155, R156, R162) -/

/-- The operations that the groups define (R157 to R161; 06 R191; 07 R217; 08 R231; 09 R261; 11 R343, R344). -/
def opDefined (g o : Nat) : Bool :=
  match g with
  | 0 => decide (o ≤ 0x0A) || [0x10, 0x18, 0x1A, 0x1B, 0x1C, 0x1F].contains o
  | 1 => decide (o ≤ 5)
  | 2 => o == 0
  | 3 => decide (o ≤ 5) || o == 0x10
  | 4 => decide (o ≤ 4) || [0x08, 0x09, 0x0A, 0x10, 0x11, 0x18].contains o
  | 5 => o == 0
  | 6 => decide (o ≤ 0x0C)
  | 7 => decide (o ≤ 6) || [0x08, 0x09, 0x0A].contains o
  | 8 => decide (o ≤ 5) || [0x10, 0x11, 0x12, 0x18].contains o
  | _ => false

/-- The core can issue: running (or asked to stop and not yet stopped), its clock on, and no other word stalled before it. -/
def issues (s : State) (c : Nat) (w : DWord) : Bool :=
  let k := coreAt s c
  awake s && decide (c < s.variant.cores) && (k.state == 2 || (k.state == 4 && k.r.wait.isNone)) && k.clocked
    && (match k.stalled with | some x => x == w | none => true)

/-- An instruction of a core: `group` and `op` are the row's, `none_` the bits that must be 0. A word of another instruction
has no effect; one that no group defines is a CORE_ILLEGAL fault. -/
def coreRow (group op none_ : Nat) (eff : Eff) (dt c : Nat) (w : DWord) (s : State) : Host.Outcome State Fault Refusal :=
  let s := advance dt s
  let n := w.toNat
  let g := field n 63 60
  let o := field n 59 54
  let next := (coreAt s c).r.pc + 1
  .next (
    if !issues s c w then s
    else if opDefined g o && (g != group || o != op) then s
    else if !pr s c (field n 53 51) then goto c next s
    else if !opDefined g o || (n &&& none_) != 0 then coreFault 0x0740 c s
    else
      match eff c n s with
      | .ok (.step t) => goto c next t
      | .ok (.jump pc t) => goto c pc t
      | .ok (.stay t) => t
      | .error (.fault st) => coreFault st c s
      | .error .parked => modCore c (fun k => { k with stalled := some w }) s
      | .error (.asleep k) => touchSram k (modCore c (fun x => { x with stalled := some w }) s))

/-- The bits `hi` to `lo` as a mask. -/
def bits (hi lo : Nat) : Nat := 2 ^ (hi + 1) - 2 ^ lo

end Sys2Proof.Machine
end

