-- ==== Sys2Proof/Machine/Slab.lean ====
section
/-! DEFINITION. KV slabs: sequences, directories, the slab table, references, pins, columns, and the SLAB commands (09). -/
namespace Sys2Proof.Machine

/-! ### Geometry and addresses (R251 to R256) -/

def jobDecl (s : State) (j : Nat) : Option JobDecl := s.image.bind (fun i => Tab.find i.jobs j)
def jobGeom (s : State) (j : Nat) : Option Geom := (jobDecl s j).bind JobDecl.geom

def Geom.es (g : Geom) : Nat := if g.bf16 then 2 else 1
def Geom.slabBytes (g : Geom) : Nat := 32768 * g.kvh * g.hdim * g.es

/-- The ranges of R251. -/
def Geom.ok (g : Geom) : Bool :=
  decide (1 ≤ g.layers) && decide (g.layers ≤ 128) && decide (1 ≤ g.groups) && decide (g.groups ≤ 64)
    && decide (1 ≤ g.kvh) && decide (g.kvh ≤ 4) && decide (1 ≤ g.hdim) && decide (g.hdim ≤ 4)
    && decide (1 ≤ g.maxIndex) && decide (g.maxIndex ≤ 256) && decide (g.slabBytes ≤ 524288)

def slotBytes (s : State) : Nat := (s.image.map Image.slotBytes).getD 0

/-- Slabs of the pool. -/
def poolSlots (s : State) : Nat :=
  if slotBytes s = 0 then 0 else Nat.min 4194304 (par s 0x06000002 / slotBytes s)

def slabHomeAddr (s : State) (n : Nat) : Nat := par s 0x06000001 + n * slotBytes s

/-- The home walker of a slab (R254). -/
def slabHome (s : State) (n : Nat) : Nat := n % s.variant.clusters

def freeSlabs (s : State) : Nat := poolSlots s - s.slab.slabs.length
def outstanding (s : State) : Nat := s.slab.reserved.foldl (fun n r => n + r.2.2) 0

def slabAt (s : State) (n : Nat) : Option Slab := Tab.find s.slab.slabs n

def modSlabs (f : SlabState → SlabState) (s : State) : State := { s with slab := f s.slab }

/-- Address of a directory entry. -/
def dirAddr (q : Seq) (g : Geom) (n l gr : Nat) : Nat := q.dir + 4 * ((n * g.layers + l) * g.groups + gr)

/-- STATE and SLAB of a directory entry. -/
def dirGet (s : State) (a : Nat) : Nat × Nat :=
  let w := leNat (Memory.readN s.ddr a 4)
  (w / 2 ^ 30, w % 2 ^ 22)

def dirSet (a st n : Nat) (s : State) : State := { s with ddr := Memory.writeN s.ddr a (le 4 (st * 2 ^ 30 + n)) }

/-- Every (layer, group) of a geometry. -/
def layerGroups (g : Geom) : List (Nat × Nat) :=
  (List.range g.layers).flatMap (fun l => (List.range g.groups).map (fun r => (l, r)))

/-- The directory entries of a column: address, state, slab. -/
def columnEntries (s : State) (q : Seq) (g : Geom) (n : Nat) : List (Nat × Nat × Nat) :=
  (layerGroups g).map (fun e => (dirAddr q g n e.1 e.2, dirGet s (dirAddr q g n e.1 e.2)))

/-! ### The slab table (R259) -/

/-- The 32-byte entry; 0 for a free slab. -/
def slabRecord (s : State) (n : Nat) : Bytes :=
  match slabAt s n with
  | none => zeros 32
  | some b =>
    pack [(4, b.seq), (2, b.layer), (2, b.group), (2, b.index), (1, b.state), (1, b2n b.promoted + 2 * b2n b.registered),
      (2, b.fill), (2, b.refTally), (2, sat 0xFFFF b.pins), (1, b.job), (1, 0), (4, b.commons), (8, b.lastUse)]

/-- A slab's entry changes, and is written through to DDR4. -/
def putSlab (n : Nat) (b : Option Slab) (s : State) : State :=
  let t := match b with
    | some x => modSlabs (fun k => { k with slabs := Tab.set k.slabs n x }) s
    | none => modSlabs (fun k => { k with slabs := Tab.erase k.slabs n }) s
  { t with ddr := Memory.writeN t.ddr (par t 0x06000003 + 32 * n) (slabRecord t n) }

def modSlab (n : Nat) (f : Slab → Slab) (s : State) : State :=
  match slabAt s n with
  | some b => putSlab n (some (f b)) s
  | none => s

/-- A walker event (R280), carried by the cluster agent of the slab's home. -/
def slabEvent (home ev job status seq index slab : Nat) (s : State) : State :=
  report (0x20 + home) true 0x0600000B 0x0600000C false ev
    (pack [(1, ev), (1, job), (2, status), (4, seq), (2, index), (2, 0), (4, slab), (8, stamp s)] ++ zeros 40) s

def slabCount (i : Nat) (s : State) : State :=
  modSlabs (fun k => { k with counts := modNth k.counts i (fun n => inc32 n 1) }) s

/-- A mapping changes: every walker drops what it held of it (R265). -/
def invalidate (p : (Nat × Nat × Nat × Nat) × Nat → Bool) (s : State) : State :=
  modSlabs (fun k => { k with walkers := k.walkers.map (fun w => { w with slb := w.slb.filter (fun e => !p e) }) }) s

/-! ### References, pins and frees (R260, R266) -/

/-- A slab's commons copy and promotion go, and its tally is returned: it leaves the shared state (R274). -/
def unshare (n : Nat) (b : Slab) (s : State) : State :=
  let s := if b.refTally = 0xFFFF then s else setTally b.refTally Tally.zero s
  giveBack (.maintenance n) (modSlabs (fun k => { k with promos := k.promos.filter (fun p => p.slab != n) }) s)

/-- A slab with neither reference is free, or draining while it is pinned. -/
def letGo (n : Nat) (s : State) : State :=
  match slabAt s n with
  | none => s
  | some b =>
    let s := invalidate (fun e => e.2 == n) s
    if b.pins = 0 then putSlab n none (unshare n b s)
    else putSlab n (some { b with state := 3 }) s

/-- The home drops one reference of a shared slab by TRY 1. -/
def dropRef (n : Nat) (s : State) : State :=
  match slabAt s n with
  | none => s
  | some b =>
    let t := tallyAt s b.refTally
    let s := setTally b.refTally { t with count := t.count - 1 } s
    if t.count ≤ 1 then letGo n s else s

/-- A promotion begins where a shared slab's references have reached PROMOTE_REFS and its home has room (R274). -/
def askPromotion (n : Nat) (s : State) : State :=
  match slabAt s n with
  | none => s
  | some b =>
    let size := slotBytes s
    let area := par s 0x06000007 * 1024
    let base := 4194304 - area
    let mine := fun m => slabHome s m == slabHome s n
    let taken := (s.slab.promos.filter (fun p => mine p.slab)).map Promo.offset
      ++ (s.slab.slabs.filter (fun e => e.2.promoted && mine e.1)).map (fun e => e.2.commons % 2 ^ 22)
    if par s 0x06000008 = 0 ∨ b.promoted ∨ s.slab.promos.any (fun p => p.slab == n)
        ∨ (tallyAt s b.refTally).count ≠ par s 0x06000009 then s
    else
      match ((List.range (if size = 0 then 0 else area / size)).map (fun i => base + i * size)).find? (fun o => !taken.contains o) with
      | none => s
      | some o =>
        let go := fits s 4 2
        let s := if go then hold 4 2 (.maintenance n) s else s
        modSlabs (fun k => { k with promos := k.promos ++ [⟨n, o, go⟩] }) s

/-- The home adds one reference of a shared slab by SIGNAL 1. -/
def addRef (n : Nat) (s : State) : State :=
  match slabAt s n with
  | none => s
  | some b => askPromotion n (signalTally b.refTally 1 s)

/-- A pin of (job, step, slab) is recorded once by a walker (R263). -/
def pin (w job step n : Nat) (s : State) : State :=
  if (nth s.slab.walkers w Walker.reset).pins.contains (job, step, n) then s
  else
    modSlab n (fun b => { b with pins := b.pins + 1 })
      (modSlabs (fun k => { k with walkers := modNth k.walkers w (fun x => { x with pins := x.pins ++ [(job, step, n)] }) }) s)

/-- One pin of a slab goes. -/
def unpin (n : Nat) (s : State) : State :=
  let s := modSlab n (fun b => { b with pins := b.pins - 1 }) s
  match slabAt s n with
  | some b => if b.state = 3 ∧ b.pins = 0 then letGo n s else s
  | none => s

/-- A commons copy's on-chip address (05 R142). -/
def commonsAddr (cluster off : Nat) : Nat := 0x80000000 + cluster * 0x4000000 + off

/-! ### Columns (R272, R273) -/

/-- A column that may be dropped: its sequence, its index. -/
structure Victim where
  seqIndex : Nat
  q : Seq
  n : Nat
deriving DecidableEq, Repr

/-- Every slab of the column is private, and none is pinned. -/
def columnFree (s : State) (q : Seq) (g : Geom) (n : Nat) : Bool :=
  (columnEntries s q g n).all (fun e => e.2.1 == 1 && (match slabAt s e.2.2 with | some b => b.pins == 0 | none => false))

def victims (s : State) : List Victim :=
  s.slab.seqs.flatMap (fun e =>
    let q := e.2
    match jobGeom s q.job with
    | some g =>
      if q.state = 1 ∧ q.entered = 0 ∧ !bit q.flags 1 then
        ((List.range g.maxIndex).filter (columnFree s q g)).map (fun n => ⟨e.1, q, n⟩)
      else []
    | none => [])

/-- Lowest PRIORITY, then oldest LAST_USE, then highest index, then lowest handle. -/
def Victim.key (v : Victim) : Nat := ((v.q.priority * 2 ^ 64 + v.q.lastUse) * 2 ^ 16 + (65535 - v.n)) * 2 ^ 32 + v.q.handle

def modSeq (i : Nat) (f : Seq → Seq) (s : State) : State :=
  modSlabs (fun k => { k with seqs := k.seqs.map (fun e => if e.1 = i then (i, f e.2) else e) }) s

/-- A column is dropped. -/
def dropColumn (v : Victim) (s : State) : State :=
  match jobGeom s v.q.job with
  | none => s
  | some g =>
    let es := columnEntries s v.q g v.n
    let s := es.foldl (fun s e => dirSet e.1 3 0 (letGo e.2.2 s)) s
    let s := modSeq v.seqIndex (fun q => { q with dropped := q.dropped ++ [v.n] }) s
    slabEvent (slabHome s (match es with | e :: _ => e.2.2 | [] => 0)) 2 v.q.job 0 v.q.handle v.n 0 (slabCount 2 s)

/-- Victim columns are dropped until `enough` holds; false where none remains. -/
def dropUntil (enough : State → Bool) : Nat → State → Bool × State
  | 0, s => (enough s, s)
  | f + 1, s =>
    if enough s then (true, s)
    else
      match sortBy Victim.key (victims s) with
      | [] => (false, s)
      | v :: _ => dropUntil enough f (dropColumn v s)

/-- A slab is allocated for a step: from its reservation, or beyond it (R271, R272). -/
def allocate (job step : Nat) (s : State) : Option Nat × State :=
  let next := fun s => (List.range (poolSlots s)).find? (fun n => (slabAt s n).isNone)
  if s.slab.reserved.any (fun r => r.1 == job && r.2.1 == step && decide (0 < r.2.2)) then
    let l := s.slab.reserved.map (fun r => if r.1 == job && r.2.1 == step then (r.1, r.2.1, r.2.2 - 1) else r)
    (next s, modSlabs (fun k => { k with reserved := l }) s)
  else
    let r := dropUntil (fun s => decide (outstanding s + par s 0x0600000A + 1 ≤ freeSlabs s)) (s.slab.slabs.length + 1) s
    if r.1 then (next r.2, r.2) else (none, r.2)

/-- A private slab for (sequence, layer, group, index). -/
def newSlab (q : Seq) (l g n : Nat) : Slab where
  seq := q.handle
  layer := l
  group := g
  index := n
  state := 1
  promoted := false
  registered := false
  fill := 0
  refTally := 0xFFFF
  pins := 0
  job := q.job
  commons := 0
  lastUse := 0

/-! ### Handles (R255) -/

/-- The entry that a handle names: its index and the entry. -/
def seqOf (s : State) (h : Nat) : Option (Nat × Seq) :=
  (Tab.find s.slab.seqs (h % 65536)).bind (fun q => if q.handle = h then some (h % 65536, q) else none)

/-- The 64-byte entry of a sequence. -/
def seqRecord (q : Seq) : Bytes :=
  pack [(4, q.handle), (1, q.job), (1, q.state), (1, q.priority), (1, q.flags), (2, q.prefixId), (2, q.dropped.length),
    (4, q.prefixLen), (4, q.firstPrivate), (4, q.committed), (8, q.dir), (8, q.src), (8, q.index), (2, q.entered)]
  ++ zeros 6 ++ le 8 q.lastUse

/-! ### Operations on sequences (R257, R258, R263, R268, R278) -/

/-- Firmware, or the twin acting for it, sends the command. -/
def notHost (p : Packet) : Bool := p.sender != 0x01

/-- A sequence is opened at a free index. -/
def openSeq (i job flags prefixId priority dir src index : Nat) (s : State) : Nat × State :=
  let gen := Tab.get s.slab.gens i 0 % 65535 + 1
  let h := gen * 65536 + i
  let pre := Tab.find s.slab.prefixes prefixId
  let len := (pre.map Prefix.len).getD 0
  let first := if bit flags 0 then ceilDiv len 256 * 256 else len
  let q : Seq :=
    { handle := h, job := job, state := 1, priority := priority, flags := flags, prefixId := prefixId, prefixLen := len
      firstPrivate := first, committed := first, dir := dir, src := if bit flags 1 then 0 else src
      index := if bit flags 2 then index else 0, entered := 0, lastUse := 0, dropped := [], steps := [] }
  let s := modSlabs (fun k => { k with seqs := Tab.set k.seqs i q, gens := Tab.set k.gens i gen }) s
  match jobGeom s job with
  | none => (h, s)
  | some g =>
    let cols := (List.range g.maxIndex).flatMap (fun n => (layerGroups g).map (fun e => dirAddr q g n e.1 e.2))
    let shared := (pre.map Prefix.slabs).getD []
    let s := cols.foldl (fun s a => dirSet a 0 0 s) s
    (h, shared.foldl (fun s n =>
      match slabAt s n with
      | some b => addRef n (dirSet (dirAddr q g b.index b.layer b.group) 2 n s)
      | none => s) s)

/-- SEQ_OPEN. -/
def seqOpenBody (p : Packet) (s : State) : Reply :=
  let q := p.params
  let pre := leAt q 2 2
  if q.length ≠ 32 ∨ 7 < byteAt q 1 ∨ 7 < byteAt q 4 ∨ !resZero q 5 3 ∨ (jobGeom s (byteAt q 0)).isNone then .refuse 0x0160 []
  else if pre != 0xFFFF && (match Tab.find s.slab.prefixes pre with | some x => x.job != byteAt q 0 | none => true) then .refuse 0x0162 []
  else
    if p.sender = 0x01 then .refuse 0x0560 []
    else match Tab.free s.slab.seqs (par s 0x06000004) with
      | none => .refuse 0x0360 []
      | some i =>
        let r := openSeq i (byteAt q 0) (byteAt q 1) pre (byteAt q 4) (leAt q 8 8) (leAt q 16 8) (leAt q 24 8) s
        .ok (le 4 r.1) r.2

/-- A close: references drop, private slabs go, and the entry is free once no step holds it (R268). -/
def closeSeq (i : Nat) (q : Seq) (s : State) : State :=
  let s := match jobGeom s q.job with
    | some g => (List.range g.maxIndex).foldl (fun s n =>
        (columnEntries s q g n).foldl (fun s e =>
          if e.2.1 = 2 then dropRef e.2.2 s else if e.2.1 = 1 then letGo e.2.2 s else s) s) s
    | none => s
  let s := invalidate (fun e => e.1.1 == q.handle) s
  if q.entered = 0 then modSlabs (fun k => { k with seqs := Tab.erase k.seqs i }) s
  else modSeq i (fun x => { x with state := 2 }) s

/-- SEQ_CLOSE. -/
def seqCloseBody (p : Packet) (s : State) : Reply :=
  if p.params.length ≠ 4 then .refuse 0x0160 []
  else match seqOf s (leAt p.params 0 4) with
    | none => .refuse 0x0161 []
    | some (i, q) =>
      if q.state ≠ 1 then .refuse 0x0161 []
      else if p.sender = 0x01 then .refuse 0x0560 [] else .ok [] (closeSeq i q s)

/-- SEQ_COMMIT. -/
def seqCommitBody (p : Packet) (s : State) : Reply :=
  let n := leAt p.params 4 4
  if p.params.length ≠ 8 then .refuse 0x0160 []
  else match seqOf s (leAt p.params 0 4) with
    | none => .refuse 0x0161 []
    | some (i, q) =>
      if 256 * ((jobGeom s q.job).map Geom.maxIndex).getD 0 < n then .refuse 0x0160 []
      else if p.sender = 0x01 then .refuse 0x0560 []
      else if n < q.committed then .refuse 0x0463 []
      else .ok [] (modSeq i (fun x => { x with committed := n }) s)

/-- The entries of a SEQ_ENTER: handle and RECOMPUTE. -/
def enterList (q : Bytes) : List (Nat × Bool) :=
  (List.range (leAt q 2 2)).map (fun k => (leAt q (8 + 8 * k) 4, bit (leAt q (12 + 8 * k) 4) 31))

/-- A sequence is entered in a step. -/
def enterSeq (step : Nat) (e : Nat × Bool) (s : State) : State :=
  modSeq (e.1 % 65536) (fun x => { x with entered := x.entered + 1, steps := x.steps ++ [(step, e.2)] }) s

/-- Why SEQ_ENTER refuses a list, if it does: the lowest class of status. -/
def enterRefusal (s : State) (l : List (Nat × Bool)) : Option Nat :=
  if l.any (fun e => match seqOf s e.1 with | some x => x.2.state != 1 | none => true) then some 0x0161
  else if l.any (fun e => !e.2 && (match seqOf s e.1 with | some x => !x.2.dropped.isEmpty | none => false)) then some 0x0461
  else none

/-- SEQ_ENTER. -/
def seqEnterBody (p : Packet) (s : State) : Reply :=
  let q := p.params
  let n := leAt q 2 2
  let l := enterList q
  if n = 0 ∨ 1024 < n ∨ q.length ≠ 8 + 8 * n ∨ 15 < byteAt q 0 ∨ !resZero q 1 1
      ∨ (List.range n).any (fun k => leAt q (12 + 8 * k) 4 % 2 ^ 31 != 0) then .refuse 0x0160 []
  else match enterRefusal s l with
    | some st => if st ≠ 0x0161 ∧ p.sender = 0x01 then .refuse 0x0560 [] else .refuse st []
    | none => if p.sender = 0x01 then .refuse 0x0560 [] else .ok [] (l.foldl (fun s e => enterSeq (leAt q 4 4) e s) s)

/-- The step leaves a sequence; a closing one that no step holds any more is free. -/
def leaveSeq (step : Nat) (e : Nat × Seq) : Option (Nat × Seq) :=
  let l := e.2.steps.filter (fun x => x.1 != step)
  let q : Seq := { e.2 with entered := e.2.entered - (e.2.steps.length - l.length), steps := l }
  if q.state = 2 ∧ q.entered = 0 then none else some (e.1, q)

/-- A step is retired: its pins, its reservation, its sequences (R263, R271, R278). -/
def retireStep (job step : Nat) (s : State) : State :=
  let mine := fun (x : Nat × Nat × Nat) => x.1 == job && x.2.1 == step
  let pins := s.slab.walkers.flatMap (fun w => (w.pins.filter mine).map (fun x => x.2.2))
  let seqs := s.slab.seqs.filterMap (fun e => if e.2.job = job then leaveSeq step e else some e)
  let s := modSlabs (fun k => { k with
    seqs := seqs
    reserved := k.reserved.filter (fun r => !(r.1 == job && r.2.1 == step))
    walkers := k.walkers.map (fun w => { w with pins := w.pins.filter (fun x => !mine x) }) }) s
  pins.foldl (fun s n => unpin n s) s

/-- STEP_RETIRE. -/
def stepRetireBody (p : Packet) (s : State) : Reply :=
  let q := p.params
  if q.length ≠ 8 ∨ 15 < byteAt q 0 ∨ !resZero q 1 3 then .refuse 0x0160 []
  else if p.sender = 0x01 then .refuse 0x0560 []
  else .ok [] (retireStep (byteAt q 0) (leAt q 4 4) s)

/-- One entry for each job and step. -/
def addReserved (job step n : Nat) (l : List (Nat × Nat × Nat)) : List (Nat × Nat × Nat) :=
  if l.any (fun r => r.1 == job && r.2.1 == step) then
    l.map (fun r => if r.1 == job && r.2.1 == step then (r.1, r.2.1, r.2.2 + n) else r)
  else l ++ [(job, step, n)]

/-- A reservation, with the drops that it needs: whether it is granted. -/
def reserveSlabs (job step n : Nat) (s : State) : Bool × State :=
  let r := dropUntil (fun s => decide (outstanding s + n ≤ freeSlabs s)) (s.slab.slabs.length + 1) s
  if r.1 then (true, modSlabs (fun k => { k with reserved := addReserved job step n k.reserved }) r.2)
  else (false, slabEvent 0 5 job 0x0362 0 0 n r.2)

/-- SLAB_RESERVE. A refused one leaves the drops behind, and its reply carries what could have been granted. -/
def slabReserveBody (p : Packet) (s : State) : Reply :=
  let q := p.params
  if q.length ≠ 12 ∨ 15 < byteAt q 0 ∨ !resZero q 1 3 then .refuse 0x0160 []
  else if p.sender = 0x01 then .refuse 0x0560 []
  else
    let r := reserveSlabs (byteAt q 0) (leAt q 4 4) (leAt q 8 4) s
    if r.1 then .ok (le 4 (leAt q 8 4)) r.2
    else .refuseWith 0x0362 (le 4 (freeSlabs r.2 - outstanding r.2)) r.2

/-- The private slabs of a sequence, in directory order. -/
def privateSlabs (s : State) (q : Seq) : List Nat :=
  match jobGeom s q.job with
  | none => []
  | some g => (List.range g.maxIndex).flatMap (fun n =>
      (columnEntries s q g n).filterMap (fun e => if e.2.1 = 1 then some e.2.2 else none))

/-- Free tallies of the reference range. -/
def freeRefTallies (s : State) : List Nat :=
  let base := par s 0x06000005
  ((List.range (par s 0x06000006)).map (base + ·)).filter (fun t => !s.slab.slabs.any (fun e => e.2.refTally == t))

/-- The shared slabs of a sequence, in directory order. -/
def sharedSlabs (s : State) (q : Seq) : List Nat :=
  match jobGeom s q.job with
  | none => []
  | some g => (List.range g.maxIndex).flatMap (fun n =>
      (columnEntries s q g n).filterMap (fun e => if e.2.1 = 2 then some e.2.2 else none))

/-- The private slabs become a registered prefix, and the sequence is closed: its references on others drop (R260, R268, R278). -/
def sharePrefix (id i : Nat) (q : Seq) (s : State) : State :=
  let l := privateSlabs s q
  let old := sharedSlabs s q
  let s := (l.zip (freeRefTallies s)).foldl (fun s e =>
    modSlab e.1 (fun b => { b with state := 2, seq := 0, refTally := e.2, registered := true })
      (setTally e.2 { Tally.zero with count := 1 } s)) s
  let s := invalidate (fun e => e.1.1 == q.handle) (old.foldl (fun s n => dropRef n s) s)
  modSlabs (fun k => { k with
    prefixes := Tab.set k.prefixes id ⟨q.job, q.committed, l⟩
    seqs := Tab.erase k.seqs i }) s

/-- The slab of a prefix in a BLOB item: layer, group, index, fill, and its bytes. -/
def blobSlab (s : State) (n : Nat) : Bytes :=
  match slabAt s n with
  | some b => pack [(2, b.layer), (2, b.group), (2, b.index), (2, b.fill)] ++ Memory.readN s.ddr (slabHomeAddr s n) (slotBytes s)
  | none => zeros (8 + slotBytes s)

/-- The BLOB item of a prefix share (15 R486; log 83): its job, ID, length, and its slabs in order. -/
def blobShare (s : State) (id : Nat) : Bytes :=
  match Tab.find s.slab.prefixes id with
  | some x => pack [(1, 1), (1, x.job), (2, id), (4, x.len), (4, x.slabs.length), (4, 0)] ++ x.slabs.flatMap (blobSlab s)
  | none => []

/-- A primary mirrors a prefix share. -/
def mirrorShare (id : Nat) (s : State) : State := if isPrimary s then mirror 7 (blobShare s id) s else s

/-- PREFIX_SHARE. -/
def prefixShareBody (p : Packet) (s : State) : Reply :=
  if p.params.length ≠ 4 then .refuse 0x0160 []
  else match seqOf s (leAt p.params 0 4) with
    | none => .refuse 0x0161 []
    | some (i, q) =>
      if q.state ≠ 1 then .refuse 0x0161 []
      else if p.sender = 0x01 then .refuse 0x0560 []
      else if (freeRefTallies s).length < (privateSlabs s q).length then .refuse 0x0363 []
      else if q.entered ≠ 0 then .refuse 0x0460 []
      else match Tab.free s.slab.prefixes 65535 with
        | none => .refuse 0x0363 []
        | some id => .ok (le 2 id) (mirrorShare id (sharePrefix id i q s))

/-- The registry's reference on each slab of a prefix is released. -/
def dropPrefix (id : Nat) (x : Prefix) (s : State) : State :=
  let s := modSlabs (fun k => { k with prefixes := Tab.erase k.prefixes id }) s
  x.slabs.foldl (fun s n => dropRef n (modSlab n (fun b => { b with registered := false }) s)) s

/-- PREFIX_DROP. -/
def prefixDropBody (p : Packet) (s : State) : Reply :=
  if p.params.length ≠ 4 ∨ !resZero p.params 2 2 then .refuse 0x0160 []
  else match Tab.find s.slab.prefixes (leAt p.params 0 2) with
    | none => .refuse 0x0162 []
    | some x => .ok [] (dropPrefix (leAt p.params 0 2) x s)

/-- SEQ_QUERY. -/
def seqQueryBody (p : Packet) (s : State) : Reply :=
  if p.params.length ≠ 4 then .refuse 0x0160 []
  else match seqOf s (leAt p.params 0 4) with
    | none => .refuse 0x0161 []
    | some (_, q) => .ok (seqRecord q) s

/-- SLAB_QUERY. -/
def slabQueryBody (p : Packet) (s : State) : Reply :=
  let n := leAt p.params 0 4
  if p.params.length ≠ 4 ∨ poolSlots s ≤ n then .refuse 0x0160 [] else .ok (slabRecord s n) s

/-- SLAB_STATUS. -/
def slabStatusBody (p : Packet) (s : State) : Reply :=
  if p.params ≠ [] then .refuse 0x0160 []
  else
    .ok (pack [(4, poolSlots s), (4, freeSlabs s), (4, outstanding s), (4, (s.slab.slabs.filter (fun e => e.2.state == 2)).length),
      (4, (s.slab.seqs.filter (fun e => e.2.state == 1)).length), (4, s.slab.seqs.foldl (fun n e => n + e.2.dropped.length) 0)]) s

/-! ### Promotion (R274) -/

/-- The copy of a promotion ends. -/
def promote (o : Promo) (s : State) : State :=
  match slabAt s o.slab with
  | none => s
  | some b =>
    if b.state ≠ 2 then giveBack (.maintenance o.slab) (modSlabs (fun k => { k with promos := k.promos.filter (fun p => p.slab != o.slab) }) s)
    else
    let c := slabHome s o.slab
    let bytes := Memory.readN s.ddr (slabHomeAddr s o.slab) (((jobGeom s b.job).map Geom.slabBytes).getD 0)
    let s := modCluster c (fun k => { k with commons := Memory.writeN k.commons o.offset bytes }) s
    let s := modSlab o.slab (fun x => { x with promoted := true, commons := commonsAddr c o.offset }) s
    let s := modSlabs (fun k => { k with promos := k.promos.filter (fun p => p.slab != o.slab) }) s
    slabEvent c 4 b.job 0 0 b.index o.slab (slabCount 4 (giveBack (.maintenance o.slab) s))

/-- PROMOTION: the copy that holds its charge completes; one that has waited for it starts. -/
def execPromotion (dt slab : Nat) (s : State) : Host.Outcome State Fault Refusal :=
  let s := advance dt s
  .next (match s.slab.promos.find? (fun p => p.slab == slab) with
    | none => s
    | some o =>
      if !awake s || !sramReady s (stackOf (slabHome s slab)) then s
      else if o.started then promote o s
      else if fits s 4 2 then
        hold 4 2 (.maintenance slab) (modSlabs (fun k => { k with
          promos := k.promos.map (fun p => if p.slab = slab then { p with started := true } else p) }) s)
      else s)

/-- SEQ_OPEN. -/
def execSeqOpen : Nat → Hdr → Bytes → State → Host.Outcome State Fault Refusal := hostRow 0x0601 seqOpenBody
/-- SEQ_CLOSE. -/
def execSeqClose : Nat → Hdr → Bytes → State → Host.Outcome State Fault Refusal := hostRow 0x0602 seqCloseBody
/-- SEQ_COMMIT. -/
def execSeqCommit : Nat → Hdr → Bytes → State → Host.Outcome State Fault Refusal := hostRow 0x0603 seqCommitBody
/-- SEQ_ENTER. -/
def execSeqEnter : Nat → Hdr → Bytes → State → Host.Outcome State Fault Refusal := hostRow 0x0604 seqEnterBody
/-- STEP_RETIRE. -/
def execStepRetire : Nat → Hdr → Bytes → State → Host.Outcome State Fault Refusal := hostRow 0x0605 stepRetireBody
/-- SLAB_RESERVE. -/
def execSlabReserve : Nat → Hdr → Bytes → State → Host.Outcome State Fault Refusal := hostRow 0x0606 slabReserveBody
/-- PREFIX_SHARE. -/
def execPrefixShare : Nat → Hdr → Bytes → State → Host.Outcome State Fault Refusal := hostRow 0x0607 prefixShareBody
/-- PREFIX_DROP. -/
def execPrefixDrop : Nat → Hdr → Bytes → State → Host.Outcome State Fault Refusal := hostRow 0x0608 prefixDropBody
/-- SEQ_QUERY. -/
def execSeqQuery : Nat → Hdr → Bytes → State → Host.Outcome State Fault Refusal := hostRow 0x0609 seqQueryBody
/-- SLAB_QUERY. -/
def execSlabQuery : Nat → Hdr → Bytes → State → Host.Outcome State Fault Refusal := hostRow 0x060A slabQueryBody
/-- SLAB_STATUS. -/
def execSlabStatus : Nat → Hdr → Bytes → State → Host.Outcome State Fault Refusal := hostRow 0x060B slabStatusBody

end Sys2Proof.Machine
end

