-- ==== Sys2Proof/Machine/Scalar.lean ====
section
/-! DEFINITION. The control and scalar group, the load/store group and the DMA group (05 R157, R158, R161, R164, R165; 06
R191). -/
namespace Sys2Proof.Machine

/-! ### Scalar ALU (05 R157) -/

/-- The second operand: an immediate, or XS2. -/
def operand2 (s : State) (c n : Nat) : Nat := if bit n 35 then field n 34 3 else xr s c (field n 40 36)

/-- A scalar operation on two words; none where the spec gives no result. -/
def aluOf (op a b : Nat) : Option Nat :=
  match op with
  | 0x00 => some (a + b)
  | 0x01 => some (a + 2 ^ 32 - b)
  | 0x02 => some (a * b)
  | 0x03 => some (a &&& b)
  | 0x04 => some (a ||| b)
  | 0x05 => some (a ^^^ b)
  | 0x06 => if b < 32 then some (a <<< b) else none
  | 0x07 => if b < 32 then some (a >>> b) else none
  | 0x08 => if b < 32 then some (twos 32 (sext 32 a / (2 ^ b : Int))) else none
  | 0x09 => some (if sext 32 a ≤ sext 32 b then a else b)
  | _ => some (if sext 32 a ≤ sext 32 b then b else a)

/-- A scalar operation: a shift by 32 or more leaves a free value (log 40). -/
def alu (op : Nat) : Eff := fun c n s =>
  let xd := field n 50 46
  match aluOf op (xr s c (field n 45 41)) (operand2 s c n) with
  | some v => .ok (.step (setX c xd v s))
  | none =>
    let (k, s) := draw s
    .ok (.step (setX c xd (Config.freeWord k).toNat s))

/-- COND of CMP and BR; none where it is undefined. -/
def condOf (cond a b : Nat) : Option Bool :=
  match cond with
  | 1 => some (a == b)
  | 2 => some (a != b)
  | 3 => some (decide (sext 32 a < sext 32 b))
  | 4 => some (decide (sext 32 b ≤ sext 32 a))
  | 5 => some (decide (a < b))
  | 6 => some (decide (b ≤ a))
  | _ => none

def cmpEff : Eff := fun c n s =>
  if field n 50 49 ≠ 0 then illegal
  else
    match condOf (field n 2 0) (xr s c (field n 45 41)) (operand2 s c n) with
    | some b => .ok (.step (setP c (field n 48 46) b s))
    | none => illegal

def brEff : Eff := fun c n s =>
  let cond := field n 40 38
  let pc := (coreAt s c).r.pc
  let dest := twos 32 ((pc : Int) + sext 20 (field n 35 16) + (if Config.brFromNext then 1 else 0))
  match if cond = 0 then some true else condOf cond (xr s c (field n 50 46)) (xr s c (field n 45 41)) with
  | some true => .ok (.jump dest s)
  | some false => .ok (.step s)
  | none => illegal

/-- LOOP opens its level over the body that follows; 0 iterations skip it. -/
def loopEff : Eff := fun c n s =>
  let len := field n 40 21
  let start := (coreAt s c).r.pc + 1
  let cnt := xr s c (field n 45 41)
  if len = 0 then illegal
  else if cnt = 0 then .ok (.jump (start + len) s)
  else .ok (.step (modRegs c (fun r => { r with loops := setNth r.loops (field n 50 49) (some ⟨cnt, start, start + len⟩) }) s))

/-- How far a core's reading of TB lags at most: 2P + 2 ns (02 R22). -/
def tbLag (s : State) (c : Nat) : Nat :=
  match nth s.pwr.points (c / 8) none with
  | some k => 2 + 2000 / nth (ageAt s (c / 8)).mhz k 400
  | none => 7

/-- TBRD: a free value within the bounds of 02 R22, never below the last reading. -/
def tbrdEff : Eff := fun c n s =>
  let xd := field n 50 46
  if 30 < xd then illegal
  else
    let (k, s) := draw s
    let lag := tbLag s c
    let v := Nat.max (coreAt s c).lastTb (s.clk.tb - lag + Config.freeNat k % (lag + 3))
    .ok (.step (setX c (xd + 1) (v / 2 ^ 32) (setX c xd v (modCore c (fun x => { x with lastTb := v }) s))))

/-- GSET (06 R191). -/
def gsetEff : Eff := fun c n s =>
  let v := xr s c (field n 45 41) + 2 ^ 32 * xr s c (field n 40 36)
  .ok (.step (modRegs c (fun r => { r with g := setNth r.g (field n 50 47) (BitVec.ofNat 64 v) }) s))

/-- Requests of a core that its walker still holds. -/
def asking (s : State) (c : Nat) : Nat := ((walkerQueue s (c / 8)).filter (fun q => q.core == c)).length
where walkerQueue (s : State) (k : Nat) : List WalkReq := (nth s.slab.walkers k Walker.reset).queue

/-- HALT (R169): every unit has finished, DONE is signalled, and the core is idle. -/
def haltEff : Eff := fun c n s =>
  let k := coreAt s c
  if n % 2 ^ 51 ≠ 0 || k.r.loops.any Option.isSome then illegal
  else if !k.r.dmaq.isEmpty || asking s c != 0 then .ok (.stay s)
  else
    let s := if k.state = 4 then { s with ctxCounts := { s.ctxCounts with completed := inc32 s.ctxCounts.completed 1 } } else s
    let s := modCluster (c / 8) (fun x => { x with tilesRun := inc32 x.tilesRun 1 })
      (modCore c (fun x => { x with state := 1, tile := none, stalled := none, heldRequest := false }) s)
    let s := match k.tile with
      | some d => if d.doneTally = 0xFFFF then s else signalAndTake d.doneTally d.doneCount s
      | none => s
    .ok (.stay (dispatchAll s))

def execAddI : Nat → Nat → DWord → State → Host.Outcome State Fault Refusal := coreRow 0 0x00 7 (alu 0x00)
def execSubI : Nat → Nat → DWord → State → Host.Outcome State Fault Refusal := coreRow 0 0x01 7 (alu 0x01)
def execMulI : Nat → Nat → DWord → State → Host.Outcome State Fault Refusal := coreRow 0 0x02 7 (alu 0x02)
def execAndI : Nat → Nat → DWord → State → Host.Outcome State Fault Refusal := coreRow 0 0x03 7 (alu 0x03)
def execOrI : Nat → Nat → DWord → State → Host.Outcome State Fault Refusal := coreRow 0 0x04 7 (alu 0x04)
def execXorI : Nat → Nat → DWord → State → Host.Outcome State Fault Refusal := coreRow 0 0x05 7 (alu 0x05)
def execShl : Nat → Nat → DWord → State → Host.Outcome State Fault Refusal := coreRow 0 0x06 7 (alu 0x06)
def execShr : Nat → Nat → DWord → State → Host.Outcome State Fault Refusal := coreRow 0 0x07 7 (alu 0x07)
def execSra : Nat → Nat → DWord → State → Host.Outcome State Fault Refusal := coreRow 0 0x08 7 (alu 0x08)
def execMinI : Nat → Nat → DWord → State → Host.Outcome State Fault Refusal := coreRow 0 0x09 7 (alu 0x09)
def execMaxI : Nat → Nat → DWord → State → Host.Outcome State Fault Refusal := coreRow 0 0x0A 7 (alu 0x0A)
def execCmp : Nat → Nat → DWord → State → Host.Outcome State Fault Refusal := coreRow 0 0x10 0 cmpEff
def execBr : Nat → Nat → DWord → State → Host.Outcome State Fault Refusal := coreRow 0 0x18 (bits 37 36 + bits 15 0) brEff
def execLoop : Nat → Nat → DWord → State → Host.Outcome State Fault Refusal := coreRow 0 0x1A (bits 48 46 + bits 20 0) loopEff
def execTbrd : Nat → Nat → DWord → State → Host.Outcome State Fault Refusal := coreRow 0 0x1B (bits 45 0) tbrdEff
def execGset : Nat → Nat → DWord → State → Host.Outcome State Fault Refusal := coreRow 0 0x1C (bits 46 46 + bits 35 0) gsetEff
def execHalt : Nat → Nat → DWord → State → Host.Outcome State Fault Refusal := coreRow 0 0x1F 0 haltEff

/-! ### Loads and stores (05 R158) -/

/-- The address X[XA] + OFF. -/
def memAddr (s : State) (c n : Nat) : Nat := twos 32 ((xr s c (field n 42 38) : Int) + sext 20 (field n 37 18))

/-- An access of `len` bytes aligned to `al`. -/
def access (s : State) (c a len al : Nat) : Except Bad Loc := do
  need (decide (a % al = 0)) 0x0741
  reach s c a len

def ldEff : Eff := fun c n s => do
  let size := field n 45 43
  need (decide (size ≤ 2)) 0x0740
  let l ← access s c (memAddr s c n) (2 ^ size) (2 ^ size)
  return .step (setX c (field n 50 46) (leNat (readLoc s l (2 ^ size))) s)

def stEff : Eff := fun c n s => do
  let size := field n 45 43
  need (decide (size ≤ 2)) 0x0740
  let l ← access s c (memAddr s c n) (2 ^ size) (2 ^ size)
  return .step (writeLoc l (le (2 ^ size) (xr s c (field n 50 46))) s)

/-- A V register of the load/store group: 0 to 7. -/
def vField (n : Nat) : Except Bad Nat := if field n 50 46 < 8 then .ok (field n 50 46) else illegal

def ldvEff : Eff := fun c n s => do
  let v ← vField n
  let l ← access s c (memAddr s c n) 256 64
  let p := readLoc s l 256
  return .step (setV c v ((List.range 64).map (fun i => BitVec.ofNat 32 (leAt p (4 * i) 4))) s)

def stvEff : Eff := fun c n s => do
  let v ← vField n
  let l ← access s c (memAddr s c n) 256 64
  return .step (writeLoc l ((vr s c v).flatMap (fun w => le 4 w.toNat)) s)

/-- A lane from an element of FMT: exact (06 R186); an integer as INT32 or FP32, as the part takes it (log 41). -/
def widen (fmt v : Nat) : Word :=
  if fmtInt fmt && Config.laneInt fmt then BitVec.ofInt 32 (fmtIntVal fmt v) else r32 (fmtValue fmt v)

/-- An INT32 lane to an element of FMT. -/
def narrowInt (fmt : Nat) (w : Word) : Converted :=
  match fmt with
  | 0 => rInt8.hold w.toInt
  | 1 => rUint8.hold w.toInt
  | 5 => rInt16.hold w.toInt
  | f => convertTo f (ofInt w.toInt)

def ldvcEff : Eff := fun c n s => do
  let v ← vField n
  let fmt := field n 45 43
  need (decide (fmt ≤ 5)) 0x0740
  let k := fmtBytes fmt
  let l ← access s c (memAddr s c n) (64 * k) 64
  let p := readLoc s l (64 * k)
  return .step (setV c v ((List.range 64).map (fun i => widen fmt (leAt p (k * i) k))) s)

def clipsIn (l : List Converted) : Nat := (l.filter Converted.clip).length
def nansIn (l : List Converted) : Nat := (l.filter Converted.nan).length

def stvcEff : Eff := fun c n s => do
  let v ← vField n
  let fmt := field n 45 43
  need (decide (fmt ≤ 5)) 0x0740
  let k := fmtBytes fmt
  let l ← access s c (memAddr s c n) (64 * k) 64
  let e := (vr s c v).map (fun w => if fmtInt fmt && Config.laneInt fmt then narrowInt fmt w else convertTo fmt (fp w))
  return .step (countEvents c (clipsIn e) (nansIn e) 0 (writeLoc l (e.flatMap (fun x => le k x.code)) s))

def execLd : Nat → Nat → DWord → State → Host.Outcome State Fault Refusal := coreRow 1 0 (bits 17 0) ldEff
def execSt : Nat → Nat → DWord → State → Host.Outcome State Fault Refusal := coreRow 1 1 (bits 17 0) stEff
def execLdv : Nat → Nat → DWord → State → Host.Outcome State Fault Refusal := coreRow 1 2 (bits 45 43 + bits 17 0) ldvEff
def execStv : Nat → Nat → DWord → State → Host.Outcome State Fault Refusal := coreRow 1 3 (bits 45 43 + bits 17 0) stvEff
def execLdvc : Nat → Nat → DWord → State → Host.Outcome State Fault Refusal := coreRow 1 4 (bits 17 0) ldvcEff
def execStvc : Nat → Nat → DWord → State → Host.Outcome State Fault Refusal := coreRow 1 5 (bits 17 0) stvcEff

/-! ### DMA (05 R164 to R166) -/

/-- Where row `i` of one side of a transfer starts. -/
def dmaRow (word stride i : Nat) : Nat := word % 2 ^ 63 + i * stride

/-- One side of a transfer: reserved bits, then every row in a DDR4 window of the job or in its on-chip space; some true where
an entry is PARKED. -/
def dmaSideOk (s : State) (job c word stride len rows : Nat) : Except Bad Bool :=
  if bit word 63 then
    if field word 62 32 ≠ 0 then illegal
    else (List.range rows).foldlM (fun b i => do
      return b || (← locate s job c (dmaRow word stride i) len).isNone) false
  else if field word 62 40 ≠ 0 then illegal
  else
    let ws := ((jobDecl s job).map JobDecl.windows).getD []
    let inside (a : Nat) := ws.any (fun w => decide (w.1 ≤ a) && decide (a + len ≤ w.1 + w.2))
    if (List.range rows).all (fun i => inside (dmaRow word stride i)) then .ok false else badAddress

/-- A tally that the tile may operate on. -/
def tallyAllowed (s : State) (c t : Nat) : Bool :=
  match (coreAt s c).tile with
  | some d => decide (d.tallyBase ≤ t) && decide (t ≤ d.tallyLimit)
  | none => false

/-- DMA transfers in the queue of a core, and the entries that SAPP's appends hold (08 R237). -/
def dmaUsed (s : State) (c : Nat) : Nat :=
  (coreAt s c).r.dmaq.length + ((nth s.slab.walkers (c / 8) Walker.reset).queue.filter (fun q =>
    q.core == c && (match q.ask with | .append _ => true | .translate _ _ => false))).length

/-- The transfer of a 32-byte descriptor. -/
def xferOf (p : Bytes) : DmaXfer :=
  ⟨leAt p 0 8, leAt p 8 8, leAt p 16 4, leAt p 20 2, leAt p 22 2, leAt p 24 4, leAt p 28 4, 0⟩

/-- DMA: the descriptor is checked at issue, and the transfer joins the queue. -/
def dmaEff : Eff := fun c n s => do
  let a := xr s c (field n 50 46)
  ownOk s a 32 1
  let x := xferOf (ownRead s c a 32)
  need (decide (1 ≤ x.rowBytes) && decide (x.rowBytes ≤ 16777216) && decide (1 ≤ x.rows)) 0x0740
  need (x.tally == 0xFFFF || tallyAllowed s c x.tally) 0x0742
  let p ← dmaSideOk s (coreAt s c).job c x.src x.srcStride x.rowBytes x.rows
  let q ← dmaSideOk s (coreAt s c).job c x.dst x.dstStride x.rowBytes x.rows
  if p || q then .error .parked
  else if 8 ≤ dmaUsed s c then return .stay s
  else return .step (modRegs c (fun r => { r with dmaq := r.dmaq ++ [x] }) s)

def execDma : Nat → Nat → DWord → State → Host.Outcome State Fault Refusal := coreRow 2 0 (bits 45 0) dmaEff

/-- The place of a row now: DDR4 (none), or on chip where it can be reached. -/
def dmaPlace (s : State) (job c word stride len i : Nat) : Except Bad (Option Loc) :=
  if bit word 63 then do
    match ← locate s job c (dmaRow word stride i) len with
    | none => .error .parked
    | some l => if sramReady s (stackOf l.cluster) then .ok (some l) else .error (.asleep (stackOf l.cluster))
  else .ok none

def dmaGet (s : State) (l : Option Loc) (a n : Nat) : Bytes :=
  match l with
  | some l => readLoc s l n
  | none => Memory.readN s.ddr a n

def dmaPut (l : Option Loc) (a : Nat) (p : Bytes) (s : State) : State :=
  match l with
  | some l => writeLoc l p s
  | none => { s with ddr := Memory.writeN s.ddr a p }

/-- A place `k` bytes further. -/
def Loc.shift (k : Nat) : Loc → Loc
  | .scratch c o => .scratch c (o + k)
  | .commons c o => .commons c (o + k)

/-- Moves the bytes of a transfer from `done` up to `upto`, in row order. -/
def dmaMove (job c : Nat) (x : DmaXfer) (upto : Nat) (s : State) : Except Bad State :=
  ((List.range x.rows).filter (fun i => decide (x.done < (i + 1) * x.rowBytes) && decide (i * x.rowBytes < upto))).foldlM (fun s i => do
    let lo := x.done - i * x.rowBytes
    let hi := Nat.min x.rowBytes (upto - i * x.rowBytes)
    let a ← dmaPlace s job c x.src x.srcStride x.rowBytes i
    let b ← dmaPlace s job c x.dst x.dstStride x.rowBytes i
    let p := dmaGet s (a.map (Loc.shift lo)) (dmaRow x.src x.srcStride i + lo) (hi - lo)
    return dmaPut (b.map (Loc.shift lo)) (dmaRow x.dst x.dstStride i + lo) p s) s

/-- DMA_COMPLETE: the entry of the queue ends; its data is visible, and then its tally is signalled. -/
def execDmaComplete (dt core entry : Nat) (s : State) : Host.Outcome State Fault Refusal :=
  let s := advance dt s
  let k := coreAt s core
  .next (
    match k.r.dmaq[entry]? with
    | none => s
    | some x =>
      if !awake s || !(k.state == 2 || k.state == 3 || k.state == 4) then s
      else
        match dmaMove k.job core x (x.rows * x.rowBytes) s with
        | .ok t =>
          let t := modRegs core (fun r => { r with dmaq := r.dmaq.eraseIdx entry }) t
          if x.tally = 0xFFFF then t else signalAndTake x.tally 1 t
        | .error (.asleep st) => touchSram st s
        | .error _ => s)

end Sys2Proof.Machine
end

