-- ==== Sys2Proof/Machine/Array.lean ====
section
/-! DEFINITION. The matrix group: outer products, table multiply, TLOAD (05 R135 to R138, R159; 06 R188 to R195). -/
namespace Sys2Proof.Machine

/-- An instruction that goes on for several k steps or rows: how many, and what those from one up to another do. -/
structure Long where
  len : Nat
  run : Nat → Nat → State → State

/-- The arithmetic of an operation on the array. -/
inductive Mac where
  | int8
  | float (f : Fmt)
  | tableInt
  | tableE4
deriving DecidableEq, Repr

/-- By OP of the matrix group, and of the window group. -/
def macOf (op : Nat) : Mac :=
  match op with
  | 0 => .int8
  | 1 => .float fmtE4
  | 2 => .float fmtE5
  | 3 => .float fmtBf
  | 4 => .tableInt
  | _ => .tableE4

def Mac.tables : Mac → Bool
  | .tableInt | .tableE4 => true
  | _ => false
/-- The tile is FP32. -/
def Mac.tileFp (m : Mac) : Bool := m != .int8
/-- Bytes of an element of A and of B. -/
def Mac.es (m : Mac) : Nat := if m = .float fmtBf then 2 else 1
/-- Integer activations: UA may be set. -/
def Mac.intA (m : Mac) : Bool := m == .int8 || m == .tableInt

/-- The value of a code of A. -/
def Mac.aValue (m : Mac) (ua : Bool) (v : Nat) : Fp :=
  match m with
  | .int8 | .tableInt => ofInt (if ua then v else sext 8 v)
  | .float f => f.value v
  | .tableE4 => fmtE4.value v

/-! ### Group scales (06 R190 to R193) -/

def gSize (g : Nat) : Nat := 32 * 2 ^ field g 63 62
def gBase (g : Nat) : Nat := field g 22 0
def gBook (g : Nat) : Nat := field g 59 37

/-- The checks that an MMT makes on its descriptor (R190, R192). -/
def scalesOk (s : State) (g k : Nat) : Except Bad Unit := do
  need (field g 63 62 != 3 && field g 36 23 == 0 && decide (gBook g % 16 = 0) && (bit g 60 || gBook g == 0) && decide (gBase g % 64 = 0)) 0x0740
  need (decide (k % gSize g = 0)) 0x0740
  need (decide (gBase g + 64 * k / gSize g ≤ s.variant.scratchBytes) && (!bit g 60 || decide (gBook g + 16 ≤ s.variant.scratchBytes))) 0x0741

/-- The value of a code (R192). -/
def codeValue (s : State) (c g v : Nat) : Fp :=
  if bit g 60 then fmtE4.value (ownByte s c (gBook g + v)) else ofInt (sext 4 v)

/-- A scale byte: E8M0 or E4M3. -/
def scaleValue (e4 : Bool) (v : Nat) : Fp :=
  if e4 then fmtE4.value v else if v = 0xFF then .nan else .fin false 1 ((v : Int) - 127)

/-- The scale of group `q` in column `j`. -/
def groupScale (s : State) (c g q j : Nat) : Fp := scaleValue (bit g 61) (ownByte s c (gBase g + 64 * q + j))

/-! ### The accumulation (06 R188, R189, R194) -/

/-- The operands of one instruction: A[i][k] and the code of B[k][j]. -/
structure Operands where
  a : Nat → Nat → Fp
  b : Nat → Nat → Nat

/-- A sum of exact products over k, without rounding. -/
def exactSum (lo hi : Nat) (f : Nat → Fp) : Fp := (List.range (hi - lo)).foldl (fun t k => Fp.add t (f (lo + k))) (.fin false 0 0)

/-- The value of a cell after the steps `lo` to `hi`, from `base`, with whether an INT32 sum saturated. -/
def macCell (s : State) (c : Nat) (m : Mac) (g : Nat) (o : Operands) (i j lo hi : Nat) (base : Word) : Word × Bool :=
  match m with
  | .int8 =>
    let sum := (List.range (hi - lo)).foldl (fun (t : Int) k =>
      t + (match o.a i (lo + k) with | .fin n v _ => signed n v | _ => 0) * sext 8 (o.b (lo + k) j)) 0
    let r := rInt32.hold (base.toInt + sum)
    (BitVec.ofNat 32 r.code, r.clip)
  | .float f =>
    ((List.range (hi - lo)).foldl (fun w k => r32 ((fp w).add ((o.a i (lo + k)).mul (f.value (o.b (lo + k) j))))) base, false)
  | _ =>
    let n := gSize g
    ((List.range (hi / n - lo / n)).foldl (fun w q =>
      let q := lo / n + q
      let p := exactSum (n * q) (n * (q + 1)) (fun k => (o.a i k).mul (codeValue s c g (o.b k j)))
      r32 ((fp w).add (fp (r32 ((groupScale s c g q j).mul p))))) base, false)

/-- Steps `lo` to `hi` into a tile; a clear and the format come with the first step. -/
def macRun (c t : Nat) (zeroed : Bool) (m : Mac) (g : Nat) (o : State → Operands) (lo hi : Nat) (s : State) : State :=
  let old := tileAt s c t
  let first := zeroed && lo == 0
  let r := (List.range 1024).map (fun n =>
    macCell s c m g (o s) (n / 64) (n % 64) lo hi (if first then 0 else nth old.cells n 0))
  countEvents c 0 0 (r.filter Prod.snd).length
    (setTile c t ⟨if first then m.tileFp else old.fp, r.map Prod.fst⟩ s)

/-- The tile's format agrees, or ZERO sets it (R137). -/
def formatOk (s : State) (c t : Nat) (zeroed isFp : Bool) : Except Bad Unit :=
  need (zeroed || (tileAt s c t).fp == isFp) 0x0740

/-- B at base `b`: codes of 4 bits, or elements of 1 or 2 bytes (R135). -/
def bCode (s : State) (c : Nat) (m : Mac) (b k j : Nat) : Nat :=
  if m.tables then (if j % 2 = 0 then ownByte s c (b + 32 * k + j / 2) % 16 else ownByte s c (b + 32 * k + j / 2) / 16)
  else ownLe s c (b + 64 * m.es * k + m.es * j) m.es

/-- Bytes of the B block of `k` steps. -/
def bBytes (m : Mac) (k : Nat) : Nat := if m.tables then 32 * k else 64 * m.es * k

/-- A word of the matrix group (R159) with the X registers at its issue. -/
def matrixLong (op : Nat) (c n : Nat) (x : List Word) (g : Nat) : Long :=
  let m := macOf op
  let a := xOf x (field n 42 38)
  let b := xOf x (field n 37 33)
  { len := field n 32 21 + 1
    run := macRun c (field n 50 45) (bit n 44) m g (fun s =>
      ⟨fun i k => m.aValue (bit n 43) (ownLe s c (a + 16 * m.es * k + m.es * i) m.es), bCode s c m b⟩) }

/-- The group-scale register of a word of the matrix or window group. -/
def gOf (s : State) (c n : Nat) : Nat := (nth (coreAt s c).r.g (field n 20 17) 0).toNat

def matrixOk (op : Nat) (s : State) (c n : Nat) : Except Bad Unit := do
  let m := macOf op
  let t := field n 50 45
  let k := field n 32 21 + 1
  need (decide (t < 48) && (m.tables || field n 20 17 == 0) && (m.intA || !bit n 43)) 0x0740
  formatOk s c t (bit n 44) m.tileFp
  if m.tables then scalesOk s (gOf s c n) k
  ownOk s (xr s c (field n 42 38)) (16 * m.es * k) 64
  ownOk s (xr s c (field n 37 33)) (bBytes m k) 64

def matrixEff (op : Nat) : Eff := fun c n s => do
  matrixOk op s c n
  let l := matrixLong op c n (coreAt s c).r.x (gOf s c n)
  return .step (l.run 0 l.len s)

/-- TLOAD: rows of 64 words, from row `lo` on. -/
def tloadLong (c n : Nat) (x : List Word) : Long :=
  { len := 16
    run := fun lo hi s =>
      let a := xOf x (field n 42 38)
      let t := field n 50 45
      let old := tileAt s c t
      setTile c t (tileOf (bit n 43) (fun i j =>
        if lo ≤ i ∧ i < hi then BitVec.ofNat 32 (ownLe s c (a + 256 * i + 4 * j) 4) else cell old i j)) s }

def tloadEff : Eff := fun c n s => do
  need (decide (field n 50 45 < 48) && bit n 44) 0x0740
  ownOk s (xr s c (field n 42 38)) 4096 1
  return .step ((tloadLong c n (coreAt s c).r.x).run 0 16 s)

def execMmI8 : Nat → Nat → DWord → State → Host.Outcome State Fault Refusal := coreRow 3 0 (bits 16 0) (matrixEff 0)
def execMmE4 : Nat → Nat → DWord → State → Host.Outcome State Fault Refusal := coreRow 3 1 (bits 16 0) (matrixEff 1)
def execMmE5 : Nat → Nat → DWord → State → Host.Outcome State Fault Refusal := coreRow 3 2 (bits 16 0) (matrixEff 2)
def execMmBf : Nat → Nat → DWord → State → Host.Outcome State Fault Refusal := coreRow 3 3 (bits 16 0) (matrixEff 3)
def execMmtI8 : Nat → Nat → DWord → State → Host.Outcome State Fault Refusal := coreRow 3 4 (bits 16 0) (matrixEff 4)
def execMmtE4 : Nat → Nat → DWord → State → Host.Outcome State Fault Refusal := coreRow 3 5 (bits 16 0) (matrixEff 5)
def execTload : Nat → Nat → DWord → State → Host.Outcome State Fault Refusal := coreRow 3 0x10 (bits 37 0) tloadEff

end Sys2Proof.Machine
end

