-- ==== Sys2Proof/Machine/Mailbox.lean ====
section
/-! DEFINITION. Mailbox commands (13 R417 to R427). -/
namespace Sys2Proof.Machine

/-- The host's own channels: those whose receiver is the host. -/
def hostChannel (s : State) (c : Nat) : Bool := decide (c < 32) && (chanAt s c).receiver == 0x01

/-- The sender may configure or flush the channel (13 R418, R424): control cores any, the host its own. -/
def mayConfigure (s : State) (sender c : Nat) : Bool :=
  (decide (0x10 ≤ sender) && decide (sender ≤ 0x13)) || sender == 0x02 || hostChannel s c

/-- The reserved bits of an ACL are 0 (13 R417). -/
def aclOk (a : Nat) : Bool := !bit a 2 && !bit a 3 && !bit a 11 && !bit a 13 && !bit a 14 && !bit a 15

/-- A receiver ID that exists: 0 disabled, the host, the twin, control cores, the security core, cluster agents. -/
def receiverOk (v : Variant) (r : Nat) : Bool :=
  r == 0 || r == 0x01 || r == 0x02 || (decide (0x10 ≤ r) && decide (r ≤ 0x13)) || r == 0x18
    || (decide (0x20 ≤ r) && decide (r < 0x20 + v.clusters))

/-- The envelope of a message (13 R421). -/
def envelope (c : Nat) (m : Message) : Bytes := pack [(1, m.sender), (1, c), (2, m.lost), (4, m.seq), (8, m.stamp)] ++ m.body

/-- MBOX_WRITE (13 R420, R422). A firmware or twin sender waits where the host is refused. -/
def mboxWriteBody (p : Packet) (s : State) : Reply :=
  let q := p.params
  let c := byteAt q 0
  if q.length ≠ 68 ∨ !resZero q 1 3 ∨ 31 < c then .refuse 0x01A8 []
  else if !allowed s c p.sender then
    let t := countDenied c s
    .refuseWith 0x05A0 [] (if c = par s 0x0A000012 then t else cmdEvent 4 c p.sender 0 0 0 t)
  else if p.sender = 0x01 ∧ (chanAt s c).depth ≤ (chanAt s c).queue.length then .refuse 0x03A1 []
  else
    let t := postQuiet c p.sender true (q.drop 4) s
    .ok (le 4 (chanAt t c).seq) t

/-- Messages taken from one channel: at most `n`. -/
def takeFrom (c n : Nat) (s : State) : Bytes × Nat × State :=
  let ms := (chanAt s c).queue.take n
  let t := roomMade c (modChan c (fun ch => { ch with queue := ch.queue.drop n }) s)
  let t := if ms ≠ [] ∧ (chanAt t c).queue = [] then rearmIbi 0x02 c t else t
  (ms.flatMap (envelope c), ms.length, if ms = [] then s else t)

/-- MBOX_READ: channels in ascending order, oldest first, at most `n` in all. -/
def takeAll : List Nat → Nat → State → Bytes × Nat × State
  | [], _, s => ([], 0, s)
  | c :: cs, n, s =>
    let a := takeFrom c n s
    let b := takeAll cs (n - a.2.1) a.2.2
    (a.1 ++ b.1, a.2.1 + b.2.1, b.2.2)

/-- MBOX_READ (13 R427). -/
def mboxReadBody (p : Packet) (s : State) : Reply :=
  let q := p.params
  let l := bitsOf 32 (leAt q 0 4)
  let n := byteAt q 4
  if q.length ≠ 8 ∨ !resZero q 5 3 ∨ n = 0 ∨ 32 < n then .refuse 0x01A8 []
  else if l.any (fun c => !hostChannel s c) then .refuse 0x05A0 []
  else
    let r := takeAll l n s
    .ok (pack [(1, r.2.1), (3, 0)] ++ r.1) r.2.2

/-- MBOX_RING (13 R425). -/
def mboxRingBody (p : Packet) (s : State) : Reply :=
  let q := p.params
  let c := byteAt q 0
  let v := leAt q 4 4
  if q.length ≠ 8 ∨ !resZero q 1 3 ∨ 31 < c ∨ v = 0 then .refuse 0x01A8 []
  else if !allowed s c p.sender then
    let t := countDenied c s
    .refuseWith 0x05A0 [] (if c = par s 0x0A000012 then t else cmdEvent 4 c p.sender 0 0 0 t)
  else .ok [] (ringAndWake c v s)

/-- MBOX_DB_READ (13 R425): each doorbell is returned and cleared in one step. -/
def mboxDbReadBody (p : Packet) (s : State) : Reply :=
  let l := bitsOf 32 (leAt p.params 0 4)
  if p.params.length ≠ 4 then .refuse 0x01A8 []
  else if l.any (fun c => !hostChannel s c) then .refuse 0x05A0 []
  else .ok (l.flatMap (fun c => le 4 (chanAt s c).doorbell))
    (l.foldl (fun s c => rearmIbi 0x03 c (modChan c (fun ch => { ch with doorbell := 0 }) s)) s)

/-- The depths of all channels, with one changed. -/
def depthTotal (s : State) (c d : Nat) : Nat :=
  (List.range 32).foldl (fun n i => n + (if i = c then d else (chanAt s i).depth)) 0

/-- MBOX_CONFIG (13 R418, R424, R427). -/
def mboxConfigBody (p : Packet) (s : State) : Reply :=
  let q := p.params
  let c := byteAt q 0
  let r := byteAt q 1
  let d := byteAt q 2
  let fl := byteAt q 3
  let db := leAt q 8 2
  let ch := chanAt s c
  let byHost := p.sender == 0x01
  if q.length ≠ 12 ∨ !resZero q 10 2 ∨ 31 < c ∨ d = 0 ∨ 64 < d ∨ 3 < fl ∨ !aclOk (leAt q 4 4) ∨ !receiverOk s.variant r
    ∨ (16383 < db ∧ db ≠ 0xFFFF) then .refuse 0x01A8 []
  else if byHost ∧ ((ch.receiver ≠ 0 ∧ ch.receiver ≠ 0x01) ∨ (r ≠ 0 ∧ r ≠ 0x01)) then .refuse 0x05A0 []
  else if 2048 < depthTotal s c d then .refuse 0x03A2 []
  else if r ≠ ch.receiver ∧ (ch.queue ≠ [] ∨ ch.doorbell ≠ 0) then .refuse 0x04A5 []
  else .ok [] (roomMade c (modChan c (fun ch => { ch with
    receiver := r, depth := d, acl := leAt q 4 4, ibi := bit fl 0, wakeOnDb := bit fl 1, dbTally := db }) s))

/-- MBOX_QUERY. -/
def mboxQueryBody (p : Packet) (s : State) : Reply :=
  let q := p.params
  let c := byteAt q 0
  let ch := chanAt s c
  if q.length ≠ 4 ∨ !resZero q 1 3 ∨ 31 < c then .refuse 0x01A8 []
  else .ok (pack [(1, c), (1, ch.receiver), (1, ch.depth), (1, b2n ch.ibi + 2 * b2n ch.wakeOnDb), (4, ch.acl), (2, ch.dbTally), (2, 0),
      (1, ch.queue.length), (1, 0), (2, ch.lost), (4, ch.denied), (4, ch.doorbell), (4, ch.seq)]) s

/-- MBOX_FLUSH (13 R424). -/
def mboxFlushBody (p : Packet) (s : State) : Reply :=
  let q := p.params
  let c := byteAt q 0
  if q.length ≠ 4 ∨ !resZero q 1 3 ∨ 31 < c then .refuse 0x01A8 []
  else if !mayConfigure s p.sender c then .refuse 0x05A0 []
  else .ok (le 1 (chanAt s c).queue.length)
    (roomMade c (rearmIbi 0x02 c (rearmIbi 0x03 c (modChan c (fun ch => { ch with queue := [], doorbell := 0 }) s))))

/-- MBOX_WRITE. -/
def execMboxWrite : Nat → Hdr → Bytes → State → Host.Outcome State Fault Refusal := hostRow 0x0A10 mboxWriteBody
/-- MBOX_READ. -/
def execMboxRead : Nat → Hdr → Bytes → State → Host.Outcome State Fault Refusal := hostRow 0x0A11 mboxReadBody
/-- MBOX_RING. -/
def execMboxRing : Nat → Hdr → Bytes → State → Host.Outcome State Fault Refusal := hostRow 0x0A12 mboxRingBody
/-- MBOX_DB_READ. -/
def execMboxDbRead : Nat → Hdr → Bytes → State → Host.Outcome State Fault Refusal := hostRow 0x0A13 mboxDbReadBody
/-- MBOX_CONFIG. -/
def execMboxConfig : Nat → Hdr → Bytes → State → Host.Outcome State Fault Refusal := hostRow 0x0A14 mboxConfigBody
/-- MBOX_QUERY. -/
def execMboxQuery : Nat → Hdr → Bytes → State → Host.Outcome State Fault Refusal := hostRow 0x0A15 mboxQueryBody
/-- MBOX_FLUSH. -/
def execMboxFlush : Nat → Hdr → Bytes → State → Host.Outcome State Fault Refusal := hostRow 0x0A16 mboxFlushBody

end Sys2Proof.Machine
end

