-- ==== Sys2Proof/Machine/Sha3.lean ====
section
/-! DEFINITION. SHA3-512 (16 R505 to R508, R519; FIPS 202, log 14), and the identity digest. -/
namespace Sys2Proof.Machine

/-- A lane of the state, and the 25 lanes: lane x + 5 y. -/
abbrev Lanes := List (BitVec 64)

def lane (a : Lanes) (x y : Nat) : BitVec 64 := nth a (x % 5 + 5 * (y % 5)) 0

def mapLanes (f : Nat → Nat → BitVec 64) : Lanes := (List.range 25).map (fun i => f (i % 5) (i / 5))

/-- θ. -/
def keccakTheta (a : Lanes) : Lanes :=
  let c := (List.range 5).map (fun x => lane a x 0 ^^^ lane a x 1 ^^^ lane a x 2 ^^^ lane a x 3 ^^^ lane a x 4)
  let d := fun x => nth c ((x + 4) % 5) 0 ^^^ (nth c ((x + 1) % 5) 0).rotateLeft 1
  mapLanes (fun x y => lane a x y ^^^ d x)

/-- Rotation offsets of ρ, lane x + 5 y. -/
def keccakRho : List Nat :=
  [0, 1, 62, 28, 27, 36, 44, 6, 55, 20, 3, 10, 43, 25, 39, 41, 45, 15, 21, 8, 18, 2, 61, 56, 14]

/-- ρ and π: lane (y, 2 x + 3 y) takes lane (x, y), so lane (x, y) comes from (x + 3 y, x). -/
def keccakRhoPi (a : Lanes) : Lanes :=
  mapLanes (fun x y =>
    let i := (x + 3 * y) % 5 + 5 * x
    (nth a i 0).rotateLeft (nth keccakRho i 0))

/-- χ. -/
def keccakChi (a : Lanes) : Lanes := mapLanes (fun x y => lane a x y ^^^ (~~~ lane a (x + 1) y &&& lane a (x + 2) y))

/-- Round constants of ι. -/
def keccakRc : List Nat :=
  [0x0000000000000001, 0x0000000000008082, 0x800000000000808A, 0x8000000080008000, 0x000000000000808B, 0x0000000080000001,
   0x8000000080008081, 0x8000000000008009, 0x000000000000008A, 0x0000000000000088, 0x0000000080008009, 0x000000008000000A,
   0x000000008000808B, 0x800000000000008B, 0x8000000000008089, 0x8000000000008003, 0x8000000000008002, 0x8000000000000080,
   0x000000000000800A, 0x800000008000000A, 0x8000000080008081, 0x8000000000008080, 0x0000000080000001, 0x8000000080008008]

def keccakRound (a : Lanes) (rc : Nat) : Lanes :=
  modNth (keccakChi (keccakRhoPi (keccakTheta a))) 0 (fun l => l ^^^ BitVec.ofNat 64 rc)

def keccakF (a : Lanes) : Lanes := keccakRc.foldl keccakRound a

/-- A block of the rate (72 bytes for SHA3-512) is absorbed. -/
def absorb (a : Lanes) (b : Bytes) : Lanes :=
  keccakF ((List.range 25).map (fun i => nth a i 0 ^^^ BitVec.ofNat 64 (if i < 9 then leAt b (8 * i) 8 else 0)))

/-- Padding: 0x06, zeros, 0x80 in the last byte of a block. -/
def sha3Pad (p : Bytes) : Bytes :=
  let n := 72 - p.length % 72
  if n = 1 then p ++ [0x86] else p ++ [0x06] ++ zeros (n - 2) ++ [0x80]

/-- The blocks of a padded message. -/
def sha3Blocks (p : Bytes) : List Bytes := (List.range (p.length / 72)).map (fun i => (p.drop (72 * i)).take 72)

/-- SHA3-512: 64 bytes. -/
def sha3 (p : Bytes) : Bytes :=
  let a := (sha3Blocks (sha3Pad p)).foldl absorb (List.replicate 25 0)
  ((a.take 8).flatMap (fun l => le 8 l.toNat)).take 64

/-- The identity digest, and its low 16 bits: bytes 62 and 63, byte 62 high (16 R519). -/
def identityDigest : Bytes := sha3 Config.identityKey
def identityLow : Nat := byteAt identityDigest 62 * 256 + byteAt identityDigest 63

end Sys2Proof.Machine
end

