-- ==== Sys2Proof/Machine/Container.lean ====
section
/-! DEFINITION. Signed containers and their verification (16 R505 to R508). -/
namespace Sys2Proof.Machine

/-- Container digest: SHA3-512 of bytes 0 to 2,847 (R505). -/
def containerDigest (b : Bytes) : Bytes := sha3 (b.take 2848)

/-- The body of a container: BODY_BYTES from offset 8,192. -/
def containerBody (b : Bytes) : Bytes := (b.drop 8192).take (leAt b 8 8)

/-- The bit of VARIANTS of the part. -/
def variantBit : Variant → Nat
  | .kd96x4 => 0
  | .kd96x4m => 1
  | .kd96x2 => 2

/-- Step 1: format, kind, reserved fields, variant. -/
def containerFormatOk (s : State) (kind : Nat) (b : Bytes) : Bool :=
  leAt b 0 2 == 1 && byteAt b 2 == kind && field (byteAt b 3) 6 2 == 0 && field (byteAt b 5) 7 3 == 0
    && bit (byteAt b 5) (variantBit s.variant) && resZero b 6 2 && resZero b 96 160 && resZero b 7475 717

/-- The signer is an owner. -/
def ownerSigned (b : Bytes) : Bool := bit (byteAt b 3) 7

/-- The class of key that a container's kind takes: KIND 5 the class of the slot it names (R507, log 24). -/
def signerClassOk (s : State) (kind : Nat) (b : Bytes) : Bool :=
  if kind = 1 ∨ kind = 4 then !ownerSigned b
  else if kind = 5 then ownerSigned b == (Config.keyRevoke (containerBody b)).1
  else !s.fuses.ownerRequired || ownerSigned b

/-- Step 2: the key is trusted. -/
def keyTrusted (s : State) (kind : Nat) (b : Bytes) : Bool :=
  let k := nth (if ownerSigned b then s.fuses.owner else s.fuses.vendor) (byteAt b 3 % 4) ⟨none, false⟩
  signerClassOk s kind b && !k.revoked && k.digest == some (sha3 ((b.drop 256).take 2592))

/-- Step 3: the signature verifies. -/
def signatureGood (b : Bytes) : Bool :=
  Config.mldsaVerify ((b.drop 256).take 2592) (containerDigest b) ((b.drop 2848).take 4627)

/-- Step 4: SVN against the fused counter. -/
def svnOk (s : State) (kind : Nat) (b : Bytes) : Bool :=
  if kind = 1 then decide (s.fuses.fwSvn ≤ byteAt b 4)
  else if kind = 2 then decide (s.fuses.imageSvn ≤ byteAt b 4) else true

/-- Steps 1 to 5 (R508): the status of the first that fails. -/
def containerRefusal (s : State) (kind : Nat) (b : Bytes) : Option Nat :=
  if !containerFormatOk s kind b then some 0x06D0
  else if !keyTrusted s kind b then some 0x05D1
  else if !signatureGood b then some 0x05D0
  else if !svnOk s kind b then some 0x05D2
  else if sha3 (containerBody b) ≠ (b.drop 16).take 64 then some 0x06D0
  else none

end Sys2Proof.Machine
end

