-- ==== Sys2Proof/Machine/Security.lean ====
section
/-! DEFINITION. The boot flash directory, and the SEC commands: identity, attestation, containers in flash, the profile,
fuses (16 R503 to R507, R512, R516 to R522). -/
namespace Sys2Proof.Machine

/-! ### The directory (16 R504) -/

/-- The directory that firmware of the boot ROM starts from where no copy is valid (log 84). -/
def Directory.blank : Directory := ⟨0, 0, 0, [.empty, .empty, .empty, .empty], 0⟩

def dirNow (s : State) : Directory := (directory s).getD Directory.blank

/-- The copy not in use: the other one than the directory's. -/
def spareCopy (s : State) : Nat :=
  if (nth s.flash.copies 0 none).isSome && nth s.flash.copies 0 none == directory s then 1 else 0

/-- An update writes the copy not in use, with GENERATION + 1. -/
def writeDir (f : Directory → Directory) (s : State) : State :=
  let d := f (dirNow s)
  { s with flash := { s.flash with
    copies := setNth s.flash.copies (spareCopy s) (some { d with generation := (dirNow s).generation + 1 }) } }

/-- The inactive slot of a kind: 0 and 1 firmware A and B, 2 and 3 images 0 and 1. -/
def inactiveSlot (s : State) (kind : Nat) : Nat :=
  if kind = 1 then 1 - (dirNow s).preferredFw else 3 - (dirNow s).activeImage

def slotMark (s : State) (i : Nat) : SlotMark := nth (dirNow s).marks i .empty

/-- The container in a slot: its 8,192 bytes and its body, as far as the slot reaches. -/
def slotContainer (s : State) (i : Nat) : Bytes :=
  let m := nth s.flash.slots i []
  let h := Memory.readN m 0 8192
  h ++ Memory.readN m 8192 (Nat.min (leAt h 8 8) (nth s.flash.sizes i 0 - 8192))

/-- The committed container of the image slot that is not active, as STAGED_DIGEST names it (16 R521). -/
def stagedDigest (s : State) : Bytes :=
  let i := inactiveSlot s 2
  if slotMark s i = .committed then containerDigest (slotContainer s i) else zeros 64

/-! ### Identity (16 R520, R521) -/

/-- SEC_IDENTITY. -/
def secIdentityBody (p : Packet) (s : State) : Reply :=
  if p.params ≠ [] then .refuse 0x01D0 [] else .ok (fit 7347 s.flash.identity) s

/-- FLAGS of the report. -/
def attestFlags (s : State) : Nat :=
  b2n (par s 0x0C000010 == 1) + 2 * b2n (isStandby s) + 4 * b2n s.fuses.ownerRequired + 8 * b2n s.boot.fwFallback
    + 16 * b2n s.boot.imageFallback + 32 * b2n s.boot.profileFactory

/-- Bytes 0 to 511 of a report. -/
def attestHead (nonce : Bytes) (s : State) : Bytes :=
  pack [(2, 1), (2, attestFlags s), (4, partId s.variant), (4, (dirNow s).bootNumber), (4, latestEpoch s), (8, stamp s),
    (1, s.boot.fwSvn), (1, s.boot.imageSvn), (1, s.fuses.fwSvn), (1, s.fuses.imageSvn), (4, 0)]
  ++ fit 32 nonce ++ fit 64 identityDigest ++ fit 64 s.boot.fwDigest ++ fit 64 s.boot.imageDigest ++ fit 64 (stagedDigest s)
  ++ fit 64 s.boot.profileDigest ++ zeros 128

/-- SEC_ATTEST: the signature is hedged, with fresh randomness (16 R506). -/
def secAttestBody (p : Packet) (s : State) : Reply :=
  if p.params.length ≠ 32 then .refuse 0x01D0 []
  else
    let h := attestHead p.params s
    let d := draw s
    .ok (h ++ fit 4627 (Config.mldsaSign (sha3 h) d.1)) d.2

/-! ### Containers in flash (16 R516) -/

/-- An image is staged for activation, or its quiet epoch has not been applied. -/
def imageStaged (s : State) : Bool :=
  s.cmd.stagedItems.contains .image || (match s.cmd.quiet with | some q => q.items.contains .image | none => false)

/-- KIND and its reserved bytes. -/
def kindOk (p : Bytes) : Bool := (byteAt p 0 == 1 || byteAt p 0 == 2) && resZero p 1 3

/-- IMAGE_WRITE. -/
def imageWriteBody (p : Packet) (s : State) : Reply :=
  let q := p.params
  let kind := byteAt q 0
  let i := inactiveSlot s kind
  let off := leAt q 4 8
  let b := q.drop 12
  if q.length < 12 ∨ !kindOk q then .refuse 0x01D0 []
  else if nth s.flash.sizes i 0 < off + b.length then .refuse 0x03D0 []
  else if kind = 2 ∧ imageStaged s then .refuse 0x04D3 []
  else
    let s := { s with flash := { s.flash with slots := modNth s.flash.slots i (fun m => Memory.writeN m off b) } }
    .ok [] (if off = 0 then
        writeDir (fun d => { d with marks := setNth d.marks i .written })
          { s with boot := { s.boot with stagedImage := if s.boot.stagedImage = some i then none else s.boot.stagedImage } }
      else s)

/-- The checks of R508 of the container in a slot; `checks` are those of an image at its load. -/
def slotRefusal (checks : State → Image → Option Nat) (kind i : Nat) (s : State) : Option Nat :=
  let b := slotContainer s i
  match containerRefusal s kind b with
  | some st => some st
  | none => if kind = 2 then checks s (Config.imageBody (containerBody b)) else none

/-- A verification has failed (16 R523, R525). -/
def failVerify (st : Nat) (s : State) : State := secEvent 4 st { s with boot := { s.boot with lastStatus := st } }

/-- IMAGE_COMMIT. -/
def imageCommitBody (checks : State → Image → Option Nat) (p : Packet) (s : State) : Reply :=
  let q := p.params
  let kind := byteAt q 0
  let i := inactiveSlot s kind
  if q.length ≠ 4 ∨ !kindOk q then .refuse 0x01D0 []
  else
    match slotRefusal checks kind i s with
    | some st => .refuseWith st [] (failVerify st s)
    | none =>
      let s := writeDir (fun d => { d with marks := setNth d.marks i .committed }) s
      .ok (containerDigest (slotContainer s i))
        (secEvent 2 0 (if kind = 2 then { s with boot := { s.boot with stagedImage := some i } } else s))

/-- IMAGE_ACTIVATE. -/
def imageActivateBody (p : Packet) (s : State) : Reply :=
  let q := p.params
  let kind := byteAt q 0
  let i := inactiveSlot s kind
  if q.length ≠ 4 ∨ !kindOk q then .refuse 0x01D0 []
  else if slotMark s i ≠ .committed then .refuse 0x04D0 []
  else if kind = 1 then .ok [] (writeDir (fun d => { d with preferredFw := i }) s)
  else if s.cmd.stagedItems.contains .image then .ok [] s
  else .ok [] { s with cmd := { s.cmd with stagedItems := s.cmd.stagedItems ++ [.image] } }

/-! ### The profile (16 R512) -/

/-- COUNT and length of a record agree, and its reserved fields are 0. -/
def profileRange (b : Bytes) : Bool :=
  decide (20 ≤ b.length) && decide (leAt b 4 2 ≤ 1024) && b.length == 20 + 16 * leAt b 4 2 && decide (leAt b 2 2 ≤ 1)
    && decide (leAt b 6 2 < 4096) && resZero b 8 8

/-- FORMAT and CRC. -/
def profileFormat (b : Bytes) : Bool :=
  leAt b 0 2 == 1 && leAt b (b.length - 4) 4 == crc32c (b.take (b.length - 4))

/-- PROFILE_STORE. -/
def profileStoreBody (p : Packet) (s : State) : Reply :=
  if !profileRange p.params then .refuse 0x01D0 []
  else if !profileFormat p.params then .refuse 0x06D1 []
  else .ok [] { s with flash := { s.flash with profile := p.params } }

/-! ### New boot and fuses (16 R507, R518) -/

/-- A new boot is due: the timebase and everything outside the always-on domain stop until the PLL locks (02 R20). -/
def askBoot (s : State) : State :=
  { s with
    clk := { s.clk with tbRun := false, tbValid := false, tbLock := false }
    boot := { s.boot with due := true, ready := false, stage := 0 }
    pwr := { s.pwr with mode := .off, waking := none } }

/-- SEC_REBOOT. -/
def secRebootBody (p : Packet) (s : State) : Reply :=
  if p.params ≠ [] then .refuse 0x01D0 []
  else if openStreams s ≠ [] then .refuse 0x04D2 []
  else .ok [] (askBoot s)

/-- SVN_COMMIT. -/
def svnCommitBody (p : Packet) (s : State) : Reply :=
  let q := p.params
  if q.length ≠ 4 ∨ !kindOk q then .refuse 0x01D0 []
  else if byteAt q 0 = 1 then
    let v := Nat.max s.fuses.fwSvn s.boot.fwSvn
    .ok (le 1 v) { s with fuses := { s.fuses with fwSvn := v } }
  else
    let v := Nat.max s.fuses.imageSvn s.boot.imageSvn
    .ok (le 1 v) { s with fuses := { s.fuses with imageSvn := v } }

/-- An enrolment programs the lowest empty owner slot (log 7), and sets OWNER_REQUIRED where its flag says so. -/
def enrol (b : Bytes) (s : State) : State :=
  let e := Config.keyEnrol (containerBody b)
  let f := s.fuses
  let owner := match (List.range 4).find? (fun i => (nth f.owner i ⟨none, false⟩).digest.isNone) with
    | some i => modNth f.owner i (fun k => { k with digest := some (sha3 e.1) })
    | none => f.owner
  { s with fuses := { f with owner := owner, ownerRequired := f.ownerRequired || e.2 } }

/-- A revocation sets the revoke bit of the slot that it names. -/
def revoke (b : Bytes) (s : State) : State :=
  let r := Config.keyRevoke (containerBody b)
  let set := fun (l : List KeySlot) => modNth l r.2 (fun k => { k with revoked := true })
  { s with fuses := if r.1 then { s.fuses with owner := set s.fuses.owner } else { s.fuses with vendor := set s.fuses.vendor } }

/-- KEY_UPDATE. -/
def keyUpdateBody (p : Packet) (s : State) : Reply :=
  let b := p.params
  let kind := byteAt b 2
  if b.length < 8192 ∨ b.length ≠ 8192 + leAt b 8 8 then .refuse 0x01D0 []
  else
    match containerRefusal s (if kind = 5 then 5 else 4) b with
    | some st => .refuseWith st [] (failVerify st s)
    | none => .ok [] (if kind = 5 then revoke b s else enrol b s)

/-! ### Rows -/

/-- SEC_IDENTITY. -/
def execSecIdentity : Nat → Hdr → Bytes → State → Host.Outcome State Fault Refusal := hostRow 0x0D01 secIdentityBody
/-- SEC_ATTEST. -/
def execSecAttest : Nat → Hdr → Bytes → State → Host.Outcome State Fault Refusal := hostRow 0x0D02 secAttestBody
/-- IMAGE_WRITE. -/
def execImageWrite : Nat → Hdr → Bytes → State → Host.Outcome State Fault Refusal := hostRow 0x0D03 imageWriteBody
/-- IMAGE_ACTIVATE. -/
def execImageActivate : Nat → Hdr → Bytes → State → Host.Outcome State Fault Refusal := hostRow 0x0D05 imageActivateBody
/-- PROFILE_STORE. -/
def execProfileStore : Nat → Hdr → Bytes → State → Host.Outcome State Fault Refusal := hostRow 0x0D06 profileStoreBody
/-- SEC_REBOOT: the new boot starts once the reply is queued. -/
def execSecReboot : Nat → Hdr → Bytes → State → Host.Outcome State Fault Refusal := hostRow 0x0D07 secRebootBody
/-- SVN_COMMIT. -/
def execSvnCommit : Nat → Hdr → Bytes → State → Host.Outcome State Fault Refusal := hostRow 0x0D08 svnCommitBody
/-- KEY_UPDATE. -/
def execKeyUpdate : Nat → Hdr → Bytes → State → Host.Outcome State Fault Refusal := hostRow 0x0D09 keyUpdateBody

end Sys2Proof.Machine
end

