-- ==== Sys2Proof/Machine/PowerRows.lean ====
section
/-! DEFINITION. Power states, wakes, the ledger's rows and ageing (14 R432 to R464; 02 R26, R51). -/
namespace Sys2Proof.Machine

/-! ### Steps and clusters -/

/-- A step of a job whose mask names the cluster is in flight, or a STEP_START for it is past its pre-dispatch (R450). -/
def clusterBusy (s : State) (c : Nat) : Bool :=
  (List.range 16).any (fun j =>
    bit ((s.image.bind (fun i => Tab.find i.jobs j)).map JobDecl.clusters |>.getD 0) c
      && (nth s.serv.jobs j Job.reset).steps.any (fun t => t.state == 6))
  || s.fc.slots.any (fun e => e.2.cls == 0x04 && bit e.2.index c && (e.2.state == 2 || e.2.state == 3))

/-- Units of VDD_CORE that are on their way back. -/
def returning (s : State) : Nat := s.pwr.returns.foldl (fun n x => n + x.units) 0

/-- What a cluster's active charge amounts to. -/
def clusterUnits (s : State) (c : Nat) : Nat :=
  ((s.pwr.charges.filter (fun x => x.holder == .cluster c)).foldl (fun n x => n + x.units) 0)
    + ((s.pwr.shares.filter (fun x => x.holder == .cluster c)).foldl (fun n x => n + x.units) 0)

/-! ### Ageing (R457 to R460) -/

/-- The table at time zero: frequency and voltage of P0 to P6, and V_MAX (R447). -/
def planMhz : List Nat := [1000, 900, 800, 700, 600, 500, 400]
def planMv : List Nat := [0, 700, 665, 630, 600, 570, 540]
def planMax : List Nat := [0, 725, 700, 665, 635, 605, 575]

def margin0 : Nat := 40000 + Config.marginOver

/-- A quotient rounded up, of integers. -/
def ceilDivI (a : Int) (b : Nat) : Int := -((-a) / (b : Int))

/-- The slack of point `k` fell below GUARD_PS scaled to its frequency. -/
def slackLow (guard : Nat) (a : Age) (k : Nat) : Bool :=
  decide (nth a.slack k 0xFFFF * nth a.mhz k 1 < guard * 1000) && nth a.slack k 0xFFFF != 0xFFFF

/-- The new plan of a point of P1 to P6 (R458 steps 2, 3, 5). -/
def replanPoint (guard k : Nat) (a : Age) : Age :=
  if bit a.retired k then a
  else
    let need := ((nth planMv k 0 : Nat) : Int) + 5 * ceilDivI (a.delta * Config.sensitivity k) 50000 + (if slackLow guard a k then 5 else 0)
    let v := Nat.max (nth a.mv k 0) need.toNat
    let top := nth planMax k 0
    if v ≤ top then { a with mv := setNth a.mv k v }
    else
      let cut := 10 * ceilDiv (v - top) 5
      if nth planMhz k 0 < 400 + cut then { a with retired := maskOf (k :: bitsOf 8 a.retired), vmaxReached := true }
      else { a with mv := setNth a.mv k top, mhz := setNth a.mhz k (Nat.min (nth a.mhz k 0) (nth planMhz k 0 - cut)), vmaxReached := true }

/-- The new frequency of P0 (R458 step 4). -/
def replanP0 (guard : Nat) (a : Age) : Age :=
  let exceeds := if a.delta ≤ margin0 then 0 else ceilDivI (a.delta - margin0) 2500
  let f : Int := 1000 - 10 * exceeds - (if nth a.slack 0 0xFFFF < guard then 10 else 0)
  { a with mhz := setNth a.mhz 0 (Nat.min (nth a.mhz 0 0) (Nat.max 400 f.toNat)) }

/-- The re-plan of one cluster. -/
def replanAge (guard st : Nat) (a : Age) : Age :=
  let a := { a with delta := a.counted.getD a.delta, noP0 := a.counted.isNone, slackP0 := nth a.slack 0 0xFFFF }
  let a := replanP0 guard ([1, 2, 3, 4, 5, 6].foldl (fun a k => replanPoint guard k a) a)
  { a with counted := none, slack := List.replicate 7 0xFFFF, stamp := st }

/-- The age record (R460). -/
def ageRecord (s : State) (c : Nat) : Bytes :=
  let a := ageAt s c
  let pts := List.range 7
  pack ([(1, c), (1, b2n (decide (nth a.mhz 0 0 < 1000)) + 2 * b2n a.vmaxReached + 4 * b2n a.noP0), (2, a.slackP0),
         (4, twos 32 a.delta), (8, a.stamp), (4, s.pwr.poweredTotal / 3600000000000),
         (4, ((margin0 : Int) - a.delta).toNat)]
    ++ pts.map (fun k => (1, (nth a.mv k 0 - nth planMv k 0) / 5)) ++ [(1, a.retired)]
    ++ pts.map (fun k => (2, nth planMhz k 0 - nth a.mhz k 0))) ++ zeros 18

/-- What firmware writes to boot flash at a re-plan and at a Sleep entry (R457). -/
def savePlan (s : State) : State :=
  { s with flash := { s.flash with plan := some (s.pwr.ages, s.pwr.poweredNs, s.pwr.poweredTotal) } }

/-- The re-plan of every cluster, event 3 for each plan that changed, and the count of powered time from zero. -/
def runReplan (s : State) : State :=
  let old := s.pwr.ages
  let ages := old.map (replanAge (par s 0x0B00000B) (stamp s))
  let s := { s with pwr := { s.pwr with ages := ages, replanning := false } }
  let changed := (List.range s.variant.clusters).filter (fun c =>
    let a := nth old c Age.planned
    let b := nth ages c Age.planned
    a.mhz != b.mhz || a.mv != b.mv || a.retired != b.retired)
  let s := changed.foldl (fun s c => pwrEvent 3 c 0 ((ageRecord s c).take 48) s) s
  savePlan { s with pwr := { s.pwr with poweredNs := 0 } }

/-- REPLAN (R458): 24 h of powered time have passed, or AGE_REPLAN has asked. -/
def execReplan (dt : Nat) (s : State) : Host.Outcome State Fault Refusal :=
  let s := advance dt s
  .next (if awake s && (s.pwr.replanning || decide (86400000000000 ≤ s.pwr.poweredNs)) then runReplan s else s)

/-- RING_OSCILLATOR_COUNT (R457): the median of the eight oscillators, of which the middle two are averaged (log 20). -/
def execRingOscillatorCount (dt cluster : Nat) (counts : List Nat) (s : State) : Host.Outcome State Fault Refusal :=
  let s := advance dt s
  let l := sortBy (fun d : Int => (d + 2 ^ 40).toNat) ((List.range 8).map (fun i => Config.oscDelta cluster i (nth counts i 0)))
  let m := (nth l 3 0 + nth l 4 0) / 2
  .next (if awake s && nth s.pwr.points cluster none == some 0 && counts.length == 8 then
      { s with pwr := { s.pwr with ages := modNth s.pwr.ages cluster (fun a => { a with counted := some m }) } }
    else s)

/-- PATH_MONITOR_SAMPLE (R457): the minimum slack at the running point is kept. -/
def execPathMonitorSample (dt cluster ps : Nat) (s : State) : Host.Outcome State Fault Refusal :=
  let s := advance dt s
  .next (match nth s.pwr.points cluster none with
    | some k =>
      if awake s then
        { s with pwr := { s.pwr with ages := modNth s.pwr.ages cluster (fun a =>
          { a with slack := modNth a.slack k (fun x => Nat.min x (sat 0xFFFE ps)) }) } }
      else s
    | none => s)

/-- CORE_SENSE_SAMPLE (R447): the set point, rounded up to 10 mV and never below 750 mV. -/
def execCoreSenseSample (dt microvolt : Nat) (s : State) : Host.Outcome State Fault Refusal :=
  let s := advance dt s
  .next (if awake s then { s with pwr := { s.pwr with setPoint := Nat.max 750 (10 * ceilDiv microvolt 10000) } } else s)

/-! ### PWR commands (R438, R439, R461) -/

/-- A step is in flight. -/
def stepInFlight (s : State) : Bool := s.serv.jobs.any (fun j => !j.steps.isEmpty)

/-- A learn job is started. -/
def learnStarted (s : State) : Bool :=
  (List.range 16).any (fun j =>
    (((s.image.bind (fun i => Tab.find i.jobs j)).map JobDecl.kind).getD 0) == 3 && (nth s.serv.jobs j Job.reset).started)

/-- The first reason that refuses Sleep (R438). -/
def sleepReason (s : State) : Option Nat :=
  if !(openStreams s).isEmpty then some 1
  else if s.slab.seqs.any (fun e => e.2.state == 1) then some 2
  else if stepInFlight s ∨ learnStarted s then some 3
  else if s.cmd.staged ≠ [] ∨ s.cmd.stagedItems ≠ [] ∨ s.text.stagedBinds ≠ [] ∨ s.text.stagedStops ≠ [] ∨ s.cmd.quiet.isSome then some 4
  else if occupancy s ≠ 0 then some 5
  else if par s 0x0C000010 = 1 then some 6
  else if s.ctxs ≠ [] then some 7
  else none

/-- Ticks from the entry at which the comparator wakes the part, for the earliest due time among the waiting slots (02 R51). -/
def wakeTicks (s : State) : Option Nat :=
  match sortBy id ((s.fc.slots.filter (fun e => e.2.state == 1)).map (fun e => e.2.now)) with
  | [] => none
  | d :: _ => some ((d - s.clk.tb) * 2 ^ 24 / s.clk.pAon - (ceilDiv (2000000 * 2 ^ 24) s.clk.pAon + 2))

/-- The cores of a power-gated die: registers and accumulator files are lost (log 21). -/
def gateCore (k : Core) : Core := { Core.reset with scratch := k.scratch, tag := k.tag }

/-- A tally survives Sleep by its COUNT, and in the host range by its ARM (R440). -/
def keepTally (s : State) (e : Nat × Tally) : Option (Nat × Tally) :=
  let rb := par s 0x06000005
  if hostTally s e.1 then some (e.1, { Tally.zero with count := e.2.count, arm := e.2.arm })
  else if rb ≤ e.1 ∧ e.1 < rb + par s 0x06000006 then some (e.1, { Tally.zero with count := e.2.count })
  else none

/-- The Sleep entry (R439), taken whole at the EXEC of PWR_STATE. -/
def enterSleep (s : State) : State :=
  let s := { s with clk := { s.clk with comparator := wakeTicks s } }
  let s := savePlan s
  let s := withMode (fun s => { s with pwr := { s.pwr with mode := .sleep, points := List.replicate 16 none } }) s
  { s with
    clk := { s.clk with tbRun := false, tbValid := false, tbCap := s.clk.tb, ticksN0 := s.clk.ticks, calOpen := false
                        replicaOk := List.replicate 4 false }
    tallies := (s.tallies.filterMap (keepTally s)).filter (fun e => e.2 != Tally.zero)
    cores := s.cores.map (fun _ => Core.reset)
    clusters := s.clusters.map (fun c => ⟨[], [], c.tilesRun⟩)
    slab := { s.slab with walkers := List.replicate 16 Walker.reset }
    text := { s.text with masks := List.replicate 16 ⟨[], 0, 0⟩ }
    pwr := { s.pwr with
      stackDies := List.replicate 4 .off
      dozeAsked := List.replicate 4 false
      sramWaking := List.replicate 4 false
      charges := [], shares := [], returns := []
      reverseBias := List.replicate 16 false
      reload := s.image.isSome
      saved := some ⟨1, true, s.clk.tb, s.clk.ticks⟩
      waking := none } }

/-- Every stack that is not in Doze is asked to enter it (R434). -/
def askDoze (s : State) : State :=
  { s with pwr := { s.pwr with dozeAsked := (List.range 4).map (fun k => stackAt s k != .doze) } }

/-- PWR_STATE. Doze is asked of the stacks that are not in it. -/
def pwrStateBody (p : Packet) (s : State) : Reply :=
  let q := p.params
  if q.length ≠ 4 ∨ !resZero q 1 3 then .refuse 0x01B0 []
  else
    match byteAt q 0 with
    | 3 => .ok [] (askDoze s)
    | 4 =>
      (match sleepReason s with
      | some r => .refuse 0x04B0 [BitVec.ofNat 8 r]
      | none =>
        if !s.clk.aonOk then .refuse 0x04E1 []
        else .ok [] { s with pwr := { s.pwr with waking := none, mode := .sleep } })
    | _ => .refuse 0x01B0 []

/-- PWR_STATUS's byte of a stack. -/
def stackCode (s : State) (k : Nat) : Nat :=
  if s.variant.stackDies ≤ k then 0
  else
    match stackAt s k with
    | .awake => 1
    | .entering _ => 1
    | _ => 3

def waitingOn (s : State) (rail : Nat) : Nat :=
  (s.fc.slots.filter (fun e => e.2.state == 3 && e.2.waitRail == rail)).length

/-- The total of the charges admitted on a rail, its staged shares included. -/
def admittedAll (s : State) (rail : Nat) : Nat := admitted s rail + (if rail = 1 then ungranted s else 0)

/-- PWR_STATUS. -/
def pwrStatusBody (p : Packet) (s : State) : Reply :=
  if p.params ≠ [] then .refuse 0x01B0 []
  else
    .ok (pack ([(1, deviceState s)] ++ (List.range 4).map (fun k => (1, stackCode s k)) ++ [(1, s.pwr.wakeCause), (2, 0)]
      ++ [1, 2, 3, 4].flatMap (fun r => [(2, budget s r), (2, admittedAll s r), (2, waitingOn s r), (2, 0)])
      ++ [(8, s.pwr.poweredNs)])) s

/-- AGE_QUERY. -/
def ageQueryBody (p : Packet) (s : State) : Reply :=
  let q := p.params
  if q.length ≠ 4 ∨ !resZero q 1 3 ∨ s.variant.clusters ≤ byteAt q 0 then .refuse 0x01B0 []
  else .ok (ageRecord s (byteAt q 0)) s

/-- AGE_REPLAN. -/
def ageReplanBody (p : Packet) (s : State) : Reply :=
  if p.params ≠ [] then .refuse 0x01B0 []
  else if s.pwr.replanning then .refuse 0x04B1 []
  else .ok [] { s with pwr := { s.pwr with replanning := true } }

/-- After an accepted PWR_STATE Sleep has been answered, the entry completes. -/
def finishSleep (s : State) : State :=
  if s.pwr.mode = .sleep ∧ s.clk.tbRun then enterSleep { s with pwr := { s.pwr with mode := .running } } else s

/-- PWR_STATE. -/
def execPwrState (dt : Nat) (h : Hdr) (p : Bytes) (s : State) : Host.Outcome State Fault Refusal :=
  let s := advance dt s
  .next (finishSleep (receive pwrStateBody (packetOf 0x0B01 h p s) s))
/-- PWR_STATUS. -/
def execPwrStatus : Nat → Hdr → Bytes → State → Host.Outcome State Fault Refusal := hostRow 0x0B02 pwrStatusBody
/-- AGE_QUERY. -/
def execAgeQuery : Nat → Hdr → Bytes → State → Host.Outcome State Fault Refusal := hostRow 0x0B03 ageQueryBody
/-- AGE_REPLAN. -/
def execAgeReplan : Nat → Hdr → Bytes → State → Host.Outcome State Fault Refusal := hostRow 0x0B04 ageReplanBody

/-! ### Wakes from Sleep (R441 to R443) -/

/-- A wake cause reaches the always-on domain: the lowest code of one tick is the one recorded. -/
def wakeCauseIn (cause : Nat) (s : State) : State :=
  if s.pwr.mode = .sleep then
    { s with pwr := { s.pwr with waking := some (match s.pwr.waking with | some c => Nat.min c cause | none => cause) } }
  else s

/-- SLEEP_WAKE_WRITE (13 R390): the write is ACKed and discarded, and wakes the part. -/
def execSleepWakeWrite (dt addr : Nat) (s : State) : Host.Outcome State Fault Refusal :=
  let s := advance dt s
  .next (if addr = s.cmd.staticAddr then wakeCauseIn 0x01 s else s)

/-- WAKE_COMPARATOR (02 R51): `ticks` since the entry have reached the comparator's count. -/
def execWakeComparator (dt ticks : Nat) (s : State) : Host.Outcome State Fault Refusal :=
  let s := advance dt s
  .next (match s.clk.comparator with
    | some c => if c ≤ ticks then wakeCauseIn 0x02 s else s
    | none => s)

/-- The charges that stand from the wake (or the boot) on, outside Sleep (R446). -/
def standingCharges (s : State) : State :=
  let s := (List.range s.variant.stackDies).foldl (fun s k => hold 2 (sramRetain s) (.sramStack k) s) s
  let s := (List.range s.variant.ioDies).foldl (fun s d => hold 2 8 (.sramIo d) s) s
  let s := hold 3 2 .i3c (hold 3 12 .control s)
  (List.range s.variant.ddrGroups).foldl (fun s g => hold 4 1 (.scrub g) (hold 4 20 (.ddrGroup g) s)) s

/-- TB as the wake restores it (02 R26): `n` ticks after the entry. -/
def restoredTb (s : State) (n : Nat) : Nat := s.clk.tbCap + (2 * n * s.clk.pAon + 2 ^ 24) / 2 ^ 25

/-- The thaw: what the save list holds comes back; the compute stacks are in Doze with empty SRAM. -/
def thaw (cause ticks : Nat) (s : State) : State :=
  let tb := restoredTb s ticks
  standingCharges { recordWake 4 cause 0x7F s with
    clk := { s.clk with
      tb := tb, tbRun := true, lastSleepTicks := ticks, lastSleepTb := tb - s.clk.tbCap
      ticks := s.clk.ticksN0 + ticks, comparator := none, calOpen := s.clk.aonOk }
    cmd := { s.cmd with inForce := s.cmd.posted }
    flt := { s.flt with watchdog := List.replicate 4 tb }
    pwr := { (recordWake 4 cause 0x7F s).pwr with
      mode := .running, stackDies := (List.range 4).map (fun k => if k < s.variant.stackDies then .doze else .off), saved := none } }

/-- WAKE_FROM_SLEEP (R441, R442): `ticks` have been counted since the entry. -/
def execWakeFromSleep (dt ticks : Nat) (s : State) : Host.Outcome State Fault Refusal :=
  let s := advance dt s
  .next (match s.pwr.mode, s.pwr.waking with
    | .sleep, some c =>
      (match s.pwr.saved with
      | some l => if l.format = 1 ∧ l.intact then thaw c ticks s else askBoot (recordWake 4 0x0F 0x7F s)
      | none => askBoot (recordWake 4 0x0F 0x7F s))
    | _, _ => s)

/-- DEVICE_READY (R441): the target answers, MDB 0x05 is raised, and the Forecast unit launches actions. -/
def execDeviceReady (dt : Nat) (s : State) : Host.Outcome State Fault Refusal :=
  let s := advance dt s
  .next (match s.pwr.mode, s.pwr.waking with
    | .running, some c =>
      let s := { s with clk := { s.clk with tbValid := true }, pwr := { s.pwr with waking := none } }
      let woke := s.clk.tbCap + s.clk.lastSleepTb
      let s := post (par s 0x0B00000C) 0x10 true (pwrBody 2 c 0 0 woke []) s
      let s := if bit (par s 0x0B00000D) 1 then post (par s 0x0B00000C) 0x10 true (pwrBody 1 (deviceState s) 0 0 woke []) s else s
      funcPins (raiseIbi 0x05 0 0 s)
    | _, _ => s)

/-! ### Doze (R434, R435) -/

def stackClusters (k : Nat) : List Nat := [4 * k, 4 * k + 1, 4 * k + 2, 4 * k + 3]

/-- The conditions of a Doze entry. -/
def mayDoze (s : State) (k : Nat) : Bool :=
  decide (k < s.variant.stackDies) && (stackClusters k).all (fun c => !clusterHeld s c) &&
    (nth s.pwr.dozeAsked k false ||
      (par s 0x0B000006 == 1 && (stackClusters k).all (fun c => decide (nth s.pwr.lastHeld c 0 + par s 0x0B000007 ≤ s.clk.tb))))

/-- The end of the entry: the die is off and the SRAM in retention. -/
def dozeStack (k : Nat) (s : State) : State :=
  let s := setSram k (sramRetain s) (giveBack (.dieStanding k) (setStack k .doze s))
  let s := { s with clk := { s.clk with replicaOk := setNth s.clk.replicaOk k false }
                    pwr := { s.pwr with dozeAsked := setNth s.pwr.dozeAsked k false } }
  (List.range 32).foldl (fun s i => modCore (32 * k + i) gateCore s) s

/-- DOZE_ENTRY (R434): the first row of a stack begins phase 1, the second ends the entry. -/
def execDozeEntry (dt stack : Nat) (s : State) : Host.Outcome State Fault Refusal :=
  let s := advance dt s
  .next (if !awake s then s
    else match stackAt s stack with
    | .awake => if mayDoze s stack then setStack stack (.entering s.clk.tb) s else s
    | .entering _ => withMode retryWaiting (withMode (dozeStack stack) s)
    | _ => s)

/-- A compute die becomes ready: 16 units stand, 104 go back in shares; its replica is loaded and its cores are idle. -/
def dieReady (k : Nat) (s : State) : State :=
  let s := giveBack (.dieWake k) s
  let s := hold 1 24 (.dieWake k) (hold 1 80 (.dieWake k) (hold 1 16 (.dieStanding k) s))
  let s := { setStack k .awake s with
    clk := { s.clk with replicaOk := setNth s.clk.replicaOk k true }
    pwr := { (setStack k .awake s).pwr with
      returns := s.pwr.returns ++ [⟨80, .dieWake k, 8⟩, ⟨24, .dieWake k, 8⟩]
      sramWaking := setNth s.pwr.sramWaking k false } }
  pumpReturns 512 ((List.range 32).foldl (fun s i =>
    modCore (32 * k + i) (fun c => if c.state = 0 then { c with state := 1 } else c) s) s)

/-- The exit latency of a woken domain has passed (R435). -/
def domainReady (domain : Nat) (s : State) : State :=
  if 0x11 ≤ domain ∧ domain < 0x11 + s.variant.stackDies then
    { s with pwr := { s.pwr with sramWaking := setNth s.pwr.sramWaking (domain - 0x11) false } }
  else if 1 ≤ domain ∧ domain ≤ s.variant.stackDies then
    let k := domain - 1
    if stackAt s k = .waking ∧ !s.pwr.shares.any (fun x => x.holder == .dieWake k) then
      withMode retryWaiting (withMode (dieReady k) s)
    else s
  else s

/-! ### Cluster charges (R450, R451, R454) -/

/-- CLUSTER_HOLD_EXPIRY (R450). -/
def execClusterHoldExpiry (dt cluster : Nat) (s : State) : Host.Outcome State Fault Refusal :=
  let s := advance dt s
  .next (if awake s && clusterHeld s cluster && !clusterBusy s cluster
      && decide (nth s.pwr.lastDone cluster 0 + par s 0x0B000005 ≤ s.clk.tb) then
    withMode retryWaiting (withMode (returnCluster cluster) s) else s)

/-- Clusters in descending number that hold a charge with no step in flight return it, while `over` holds (R451). -/
def returnIdle (exceeds : State → Nat → Bool) (event : Bool) : List Nat → State → State
  | [], s => s
  | c :: cs, s =>
    if exceeds s c && clusterHeld s c && !clusterBusy s c then
      let u := clusterUnits s c
      let t := withMode (returnCluster c) s
      returnIdle exceeds event cs (if event then pwrEvent 5 c u [] t else t)
    else returnIdle exceeds event cs s

def descending : List Nat := (List.range 16).reverse

/-- The admitted total of VDD_CORE, returns aside, exceeds the budget. -/
def overBudget (s : State) : Bool := decide (budget s 1 + returning s < admittedAll s 1)

/-- BUDGET_CHANGE (R451): 10 µs after its epoch. -/
def execBudgetChange (dt : Nat) (s : State) : Host.Outcome State Fault Refusal :=
  let s := advance dt s
  .next (match s.pwr.budgetDue with
    | some t =>
      if awake s && decide (t + 10000 ≤ s.clk.tb) then
        let s := { s with pwr := { s.pwr with budgets := postedBudgets s, budgetDue := none } }
        withMode retryWaiting (returnIdle (fun s _ => overBudget s) true descending s)
      else s
    | none => s)

/-- The readings that count on the variant: its clusters, and its I/O dies at 16 and 17. -/
def sensorList (s : State) : List Nat := List.range s.variant.clusters ++ (List.range s.variant.ioDies).map (· + 16)

def hottest (l : List Int) : Int := l.foldl (fun m t => if m < t then t else m) (-273)

/-- The cap that the hottest reading calls for. -/
def capFor (s : State) (t : Int) : Nat :=
  let top : Int := par s 0x0B00000A
  if t < top then 0 else Nat.min 6 (1 + ((t - top) / 2).toNat)

/-- The thermal cap after a sample: it rises to what the reading calls for, and relaxes one point for 3 °C. -/
def newCap (s : State) (t : Int) : Nat × Int :=
  let want := capFor s t
  if s.pwr.thermalCap < want then (want, t)
  else if 0 < s.pwr.thermalCap ∧ t ≤ s.pwr.capTemp - 3 ∧ want < s.pwr.thermalCap then (s.pwr.thermalCap - 1, t)
  else (s.pwr.thermalCap, s.pwr.capTemp)

/-- THERMAL_SAMPLE (R454; 17 R554): 16 cluster readings, then I/O dies 0 and 1. -/
def execThermalSample (dt : Nat) (temps : List Int) (s : State) : Host.Outcome State Fault Refusal :=
  let s := advance dt s
  .next (if !awake s then s
    else
      let trip := (sensorList s).find? (fun i => decide (120 ≤ nth temps i 0) && decide (120 ≤ nth s.pwr.temps i 0))
      let s := { s with pwr := { s.pwr with temps := temps, tjMax := hottest ((sensorList s).map (fun i => nth temps i 0)) } }
      match trip with
      | some i => freezeNow true (logFault 0x07E0 5 2 i 0 0 0 s)
      | none =>
        let t := hottest ((List.range s.variant.clusters).map (fun i => nth temps i 0))
        let c := newCap s t
        let changed := c.1 != s.pwr.thermalCap
        let s := { s with pwr := { s.pwr with thermalCap := c.1, capTemp := c.2 } }
        let s := if changed then pwrEvent 6 c.1 (twos 32 t) [] s else s
        if par s 0x0B00000A + 10 ≤ t then
          withMode retryWaiting (returnIdle (fun s k =>
            match nth s.pwr.points k none with | some p => decide (p < s.pwr.thermalCap) | none => false) false descending s)
        else s)

/-- BROWN_OUT (R456; 15 R467): clocks stop, every compute die is gated, and the fault is raised. `rail` is a code of R33. -/
def execBrownOut (dt rail : Nat) (s : State) : Host.Outcome State Fault Refusal :=
  let s := advance dt s
  .next (if awake s && decide (1 ≤ rail) && decide (rail ≤ 4) then
      let gate := fun s => (List.range s.variant.stackDies).foldl (fun s k =>
        if stackAt s k = .doze then s else dozeStack k s) s
      let s := withMode (fun s =>
        gate { s with pwr := { s.pwr with
          points := List.replicate 16 none, shares := [], returns := []
          charges := s.pwr.charges.filter (fun c =>
            match c.holder with | .cluster _ => false | .dieWake _ => false | _ => true) } }) s
      raiseFault 0x07B0 7 rail 0 s
    else s)

/-- REVERSE_BIAS (R444): a cluster has held no active charge for 20 µs. -/
def execReverseBias (dt cluster : Nat) (s : State) : Host.Outcome State Fault Refusal :=
  let s := advance dt s
  .next (if awake s && decide (cluster < s.variant.clusters) && !clusterHeld s cluster
      && stackAt s (stackOf cluster) == .awake && decide (nth s.pwr.lastHeld cluster 0 + 20000 ≤ s.clk.tb) then
    { s with pwr := { s.pwr with reverseBias := setNth s.pwr.reverseBias cluster true } } else s)

end Sys2Proof.Machine
end

