-- ==== Sys2Proof/Machine/PinRows.lean ====
section
/-! DEFINITION. Pins and clocks: edges on input pins, clock losses and calibration, and the PIN commands (17; 02 R21 to R28). -/
namespace Sys2Proof.Machine

/-! ### Clocks -/

/-- REF_INTERRUPTION (17 R536): no edge for 200 ns or more, and less than 2 µs, is counted; CLOCK_LOST takes the longer ones. -/
def execRefInterruption (dt ns : Nat) (s : State) : Host.Outcome State Fault Refusal :=
  let s := advance dt s
  .next (if awake s && decide (200 ≤ ns) && decide (ns < 2000) then
      { s with clk := { s.clk with refLossesRc := sat 0xFF (s.clk.refLossesRc + 1) } }
    else s)

/-- A missing always-on clock outside Sleep: counted, the calibration window abandoned, P_AON unchanged. -/
def loseAon (s : State) : State :=
  pinEvent 2 0 0 { s with clk := { s.clk with
    aonOk := false, calOpen := false, aonLossesRc := sat 0xFF (s.clk.aonLossesRc + 1)
    aonLosses := inc32 s.clk.aonLosses 1, lastLoss := stamp s } }

/-- AON_CLOCK_LOST (17 R537): in Sleep it starts a new boot with wake cause 0x0F, since TB cannot be restored. -/
def execAonClockLost (dt : Nat) (s : State) : Host.Outcome State Fault Refusal :=
  let s := advance dt s
  .next (if s.pwr.mode = .sleep then askBoot (recordWake 4 0x0F 0x7F { s with clk := { s.clk with aonOk := false } })
    else if awake s && s.clk.aonOk then loseAon s
    else s)

/-- AON_CLOCK_RESTORED (17 R537): a new calibration window begins. -/
def execAonClockRestored (dt : Nat) (s : State) : Host.Outcome State Fault Refusal :=
  let s := advance dt s
  .next (if awake s && !s.clk.aonOk then pinEvent 3 0 0 { s with clk := { s.clk with aonOk := true, calOpen := true } } else s)

/-- AON_CALIBRATION (02 R28): 2^20 ticks have taken `ns`; P_AON in 2^-24 ns, and the next window begins. -/
def execAonCalibration (dt ns : Nat) (s : State) : Host.Outcome State Fault Refusal :=
  let s := advance dt s
  .next (if awake s && s.clk.aonOk && s.clk.calOpen then
      { s with clk := { s.clk with pAon := 16 * ns, ticks := (s.clk.ticks + 2 ^ 20) % 2 ^ 48 } }
    else s)

/-- TB_SYNC (02 R21, R25): a powered compute die's replica follows the master. -/
def execTbSync (dt die : Nat) (s : State) : Host.Outcome State Fault Refusal :=
  let s := advance dt s
  .next (if awake s && decide (die < s.variant.stackDies) && stackAt s die != .off && stackAt s die != .doze then
      { s with clk := { s.clk with replicaOk := setNth s.clk.replicaOk die true } }
    else s)

/-! ### Input pins (17 R540, R542) -/

/-- An accepted edge: the level at the ball, and EDGES. -/
def acceptEdge (p : Nat) (level : Bool) (s : State) : State :=
  { s with pins := { s.pins with
      levels := setNth s.pins.levels p level
      edges := if awake s then setNth s.pins.edges p (inc32 (nth s.pins.edges p 0) 1) else s.pins.edges } }

/-- HOST_IN_EDGE: PIN event 1 with the edge's stamp. -/
def execHostInEdge (dt pin : Nat) (level : Bool) (s : State) : Host.Outcome State Fault Refusal :=
  let s := advance dt s
  .next (if awake s && decide (pin < 16) && pinFunc s pin == 2 then pinEvent 1 pin (b2n level) (acceptEdge pin level s) else s)

/-- Every dozing compute die is woken. -/
def wakeDies (cause : Nat) (s : State) : State :=
  (List.range s.variant.stackDies).foldl (fun s k =>
    match stackAt s k with
    | .doze => postWake (1 + k) cause s
    | .entering _ => setStack k .awake s
    | _ => s) s

/-- WAKE_IN_EDGE: an edge to the active level wakes the device from Sleep, or every dozing die, with cause 0x06. -/
def execWakeInEdge (dt pin : Nat) (level : Bool) (s : State) : Host.Outcome State Fault Refusal :=
  let s := advance dt s
  .next (if decide (pin < 16) && pinFunc s pin == 3 && !s.flt.frozen then
      let s := acceptEdge pin level s
      if level == pinLow s pin then s
      else if s.pwr.mode = .sleep then wakeCauseIn 0x06 s
      else if awake s then wakeDies 0x06 s
      else s
    else s)

/-! ### PIN commands (17 R557) -/

def levelMask (l : List Bool) : Nat := maskOf ((List.range 16).filter (fun p => nth l p false))

/-- The level at the ball of a general pin: EXTEST drives the balls from the boundary cells. -/
def ballLevel (s : State) (p : Nat) : Bool :=
  if nth s.pins.driven p false && (s.jtag.instr == .extest || s.jtag.instr == .extestPulse || s.jtag.instr == .extestTrain)
  then s.jtag.cells.getLsbD p else nth s.pins.levels p false

/-- PIN_STATUS. -/
def pinStatusBody (p : Packet) (s : State) : Reply :=
  if p.params ≠ [] then .refuse 0x01E0 []
  else
    .ok (pack [(2, levelMask ((List.range 16).map (ballLevel s))), (2, levelMask s.pins.driven)] ++ (List.range 16).flatMap (fun i =>
      pack [(1, pinFunc s i), (1, (pinOwner s i).1), (1, (pinOwner s i).2), (1, 0)])) s

/-- CLOCK_STATUS. -/
def clockStatusBody (p : Packet) (s : State) : Reply :=
  if p.params ≠ [] then .refuse 0x01E0 []
  else
    .ok (pack [(1, b2n s.clk.refOk + 2 * b2n s.clk.aonOk + 4 * b2n s.clk.tbLock), (1, twos 8 s.pwr.tjMax), (2, 0),
      (4, s.clk.aonLosses), (8, s.clk.lastLoss)]) s

/-- PIN_STATUS. -/
def execPinStatus : Nat → Hdr → Bytes → State → Host.Outcome State Fault Refusal := hostRow 0x0E01 pinStatusBody
/-- CLOCK_STATUS. -/
def execClockStatus : Nat → Hdr → Bytes → State → Host.Outcome State Fault Refusal := hostRow 0x0E02 clockStatusBody

end Sys2Proof.Machine
end

