-- ==== Sys2Proof/Machine/FaultRows.lean ====
section
/-! DEFINITION. Faults, recovery, scrub and the FLT commands outside the twin pair (15 R466 to R479, R498; 17 R536). -/
namespace Sys2Proof.Machine

/-! ### Resident content (05 R167; 14 R441) -/

/-- Bytes written to a scratchpad. -/
def writeScratch (core off : Nat) (b : Bytes) (s : State) : State :=
  modCore core (fun k => { k with scratch := Memory.writeN k.scratch off b }) s

/-- The resident content of the cores named is loaded from the DDR4 copy of the image, with its tags. -/
def reloadResident (cores : List Nat) (s : State) : State :=
  match s.image with
  | none => s
  | some i => (i.resident.filter (fun r => cores.contains r.core)).foldl (fun s r =>
      modCore r.core (fun k => { k with tag := r.tag }) (writeScratch r.core r.offset r.bytes s)) s

/-- The image's own area of every commons. -/
def reloadCommons (s : State) : State :=
  match s.image with
  | none => s
  | some i => i.commons.foldl (fun s e => modCluster e.1 (fun c => { c with commons := Memory.writeN c.commons e.2.1 e.2.2 }) s) s

/-! ### Recovery -/

/-- RECOVERY_RESUME (15 R473, R475): DR and I reload first; RESUME_US is filled in. -/
def execRecoveryResume (dt : Nat) (s : State) : Host.Outcome State Fault Refusal :=
  let s := advance dt s
  .next (match s.flt.recovery with
    | some r =>
      if awake s && r.action != 4 then
        let s := if r.action = 3 then reloadCommons (reloadResident (List.range 128) s) else reloadResident r.reload s
        let us := fun (e : FaultEntry) => sat 0xFFFF ((s.clk.tb - e.stamp) / 1000)
        let log := s.flt.log.map (fun e => if e.resumeUs = 0 ∧ e.action ≠ 5 then { e with resumeUs := us e } else e)
        funcPins { s with flt := { s.flt with recovery := none, log := log } }
      else s
    | none => s)

/-! ### Detections (15 R466, R467, R476 to R478) -/

/-- SRAM_SCRUB (15 R476): `bits` in error, in a granule of the unit and place given. -/
def execSramScrub (dt : Nat) (g : SramGranule) (bits : Nat) (s : State) : Host.Outcome State Fault Refusal :=
  let s := advance dt s
  .next (if !awake s || bits = 0 then s
    else if bits = 1 then
      { s with flt := { s.flt with sramCe := inc32 s.flt.sramCe 1, sramCeRc := sat 0xFF (s.flt.sramCeRc + 1) } }
    else raiseFault 0x07C0 g.unit g.place 0 s)

/-- Bytes of a context block (05 R172, R173). -/
def contextSpan (v : Variant) (c : Context) : Nat :=
  200704 + (if c.kind = 0 then v.scratchBytes else c.extents.foldl (fun n e => n + e.2.length) 0)

/-- The address lies in a region of R415 that is in use (15 R478). -/
def heldAddr (s : State) (a : Nat) : Bool :=
  let inside := fun (b n : Nat) => decide (b ≤ a) && decide (a < b + n)
  let slot := (s.image.map Image.slotBytes).getD 0
  inside Config.ddrImage.1 Config.ddrImage.2 || inside Config.ddrFirmware.1 Config.ddrFirmware.2
  || s.slab.slabs.any (fun e => inside (par s 0x06000001 + e.1 * slot) slot)
  || (!s.out.ring.isEmpty && inside (par s 0x09F00001) (par s 0x09F00002))
  || s.ctxs.any (fun e => inside e.1 (contextSpan s.variant e.2))
  || s.slab.seqs.any (fun e =>
      match (s.image.bind (fun i => Tab.find i.jobs e.2.job)).bind JobDecl.geom with
      | some g => inside e.2.dir (4 * g.maxIndex * g.layers * g.groups)
      | none => false)

/-- A corrected DDR4 error: counted by region; event 2 as the region reaches CE_WARN (15 R477). -/
def ddrCorrected (a : Nat) (s : State) : State :=
  let r := a / 2 ^ 20
  let n := Tab.get s.flt.regions r 0 + 1
  let s := { s with flt := { s.flt with
    ddrCe := inc32 s.flt.ddrCe 1, ddrCeRc := sat 0xFF (s.flt.ddrCeRc + 1), regions := Tab.set s.flt.regions r n } }
  if n = par s 0x0C000003 then fltEvent 2 0 s else s

/-- PATROL_SCRUB (15 R477, R478): `err` is 0 none, 1 corrected, 2 uncorrected. A read of address 0 begins a pass (log 22). -/
def execPatrolScrub (dt addr err : Nat) (s : State) : Host.Outcome State Fault Refusal :=
  let s := advance dt s
  .next (if !awake s then s
    else
      let s := if addr = 0 then { s with flt := { s.flt with regions := [] } } else s
      if err = 0 then s
      else if err = 1 then ddrCorrected addr s
      else if heldAddr s addr then raiseFault 0x07C1 4 addr 0 s
      else
        let base := addr / 64 * 64
        fltEvent 3 0 { s with
          ddr := Memory.writeN s.ddr base (zeros 64)
          flt := { s.flt with ddrUeIdle := inc32 s.flt.ddrUeIdle 1, ddrUeRc := sat 0xFF (s.flt.ddrUeRc + 1) } })

/-- LINK_UNCORRECTED (15 R467; 17 R551). -/
def execLinkUncorrected (dt place : Nat) (s : State) : Host.Outcome State Fault Refusal :=
  let s := advance dt s
  .next (if awake s then raiseFault 0x07C3 6 place 0 s else s)

/-- CLOCK_LOST (15 R467; 17 R536): the reference or a PLL has been out of lock for 2 µs. -/
def execClockLost (dt : Nat) (s : State) : Host.Outcome State Fault Refusal :=
  let s := advance dt s
  .next (if awake s then
      raiseFault 0x07C4 8 0 0 { s with clk := { s.clk with refOk := false } }
    else s)

/-- CONTROL_WATCHDOG (02 R36; 15 R467): a control core services its watchdog, or its supervisor looks at it. -/
def execControlWatchdog (dt core : Nat) (served : Bool) (s : State) : Host.Outcome State Fault Refusal :=
  let s := advance dt s
  .next (if !awake s || !(decide (core < 4)) then s
    else if served then { s with flt := { s.flt with watchdog := setNth s.flt.watchdog core s.clk.tb } }
    else if nth s.flt.watchdog core 0 + 50000000 < s.clk.tb then raiseFault 0x07C2 5 core 0 s
    else s)

/-- FREEZE (15 R479, R482): FROST_N falls. -/
def execFreeze (dt : Nat) (s : State) : Host.Outcome State Fault Refusal :=
  let s := advance dt s
  .next (if awake s then freezeNow false s else s)

/-! ### FLT commands (15 R498) -/

/-- An entry of the fault log as bytes (15 R475). -/
def faultBytes (prior : Bool) (e : FaultEntry) : Bytes :=
  pack [(4, e.seq), (2, e.status), (1, e.action), (1, e.unit), (8, e.stamp), (8, e.whereAt), (2, sat 0xFFFF e.sides),
        (2, sat 0xFFFF e.steps), (2, (if prior then setField e.flags 0 0 1 else e.flags)), (2, e.resumeUs)]

/-- The entries that FAULT_LOG returns: this boot's, newest first, then the one kept over the reset. -/
def faultList (s : State) : List Bytes :=
  (s.flt.log.map (faultBytes false) ++ (match s.flt.prior with
    | some e => if s.flt.log.contains e then [] else [faultBytes true e]
    | none => [])).take 16

/-- FAULT_LOG. -/
def faultLogBody (p : Packet) (s : State) : Reply :=
  if p.params ≠ [] then .refuse 0x01C0 []
  else
    let l := faultList s
    .ok (pack [(1, l.length), (3, 0)] ++ l.flatten) (rearmIbi 0x04 0 s)

/-- The faults of 15 R467, with the UNIT of an injected one (log 23). -/
def injectUnit (status : Nat) : Option Nat :=
  if 0x0740 ≤ status ∧ status ≤ 0x0742 then some 1
  else if status = 0x0743 ∨ status = 0x0744 ∨ status = 0x0760 ∨ status = 0x0761 ∨ status = 0x0780 then some 2
  else if status = 0x07B0 then some 7
  else if status = 0x07C0 then some 1
  else if status = 0x07C1 then some 4
  else if status = 0x07C2 then some 5
  else if status = 0x07C3 then some 6
  else if status = 0x07C4 then some 8
  else none

/-- FAULT_INJECT. -/
def faultInjectBody (p : Packet) (s : State) : Reply :=
  let q := p.params
  if q.length ≠ 12 ∨ !resZero q 2 2 then .refuse 0x01C0 []
  else
    match injectUnit (leAt q 0 2) with
    | none => .refuse 0x01C0 []
    | some u => .ok [] (raiseFault (leAt q 0 2) u (leAt q 4 8) 2 s)

/-- FAULT_LOG. -/
def execFaultLog : Nat → Hdr → Bytes → State → Host.Outcome State Fault Refusal := hostRow 0x0C01 faultLogBody
/-- FAULT_INJECT. -/
def execFaultInject : Nat → Hdr → Bytes → State → Host.Outcome State Fault Refusal := hostRow 0x0C02 faultInjectBody

end Sys2Proof.Machine
end

