-- ==== Sys2Proof/Machine/Text.lean ====
section
/-! DEFINITION. Tokens, text, grammars and stop strings: formats and the TEXT commands (11). -/
namespace Sys2Proof.Machine

/-! ### UTF-8 (RFC 3629) -/

def isCont (b : Byte) : Bool := decide (0x80 ≤ b.toNat) && decide (b.toNat ≤ 0xBF)

/-- The length of the well-formed character at the head; 0 if there is none. -/
def charLen : Bytes → Nat
  | [] => 0
  | a :: r =>
    let x := a.toNat
    let c1 := (nth r 0 0).toNat
    let k1 := decide (1 ≤ r.length) && isCont (nth r 0 0)
    let k2 := k1 && decide (2 ≤ r.length) && isCont (nth r 1 0)
    let k3 := k2 && decide (3 ≤ r.length) && isCont (nth r 2 0)
    if x < 0x80 then 1
    else if x < 0xC2 then 0
    else if x < 0xE0 then (if k1 then 2 else 0)
    else if x < 0xF0 then
      if k2 && !(x == 0xE0 && decide (c1 < 0xA0)) && !(x == 0xED && decide (0x9F < c1)) then 3 else 0
    else if x < 0xF5 then
      if k3 && !(x == 0xF0 && decide (c1 < 0x90)) && !(x == 0xF4 && decide (0x8F < c1)) then 4 else 0
    else 0

/-- Byte by byte: whether it belongs to a well-formed character. -/
def utf8Marks : Nat → Bytes → List Bool
  | 0, _ => []
  | _, [] => []
  | f + 1, b :: r =>
    match charLen (b :: r) with
    | 0 => false :: utf8Marks f r
    | n => List.replicate n true ++ utf8Marks f ((b :: r).drop n)

def wellFormed (p : Bytes) : Bool := (utf8Marks p.length p).all id

/-- What each byte of a line's raw text becomes (R335): itself, or EF BF BD. -/
def cleanBytes (p : Bytes) : List Bytes :=
  (p.zip (utf8Marks p.length p)).map (fun e => if e.2 then [e.1] else [0xEF, 0xBF, 0xBD])

/-- Bytes replaced. -/
def replacedCount (p : Bytes) : Nat := ((utf8Marks p.length p).filter (fun b => !b)).length

/-! ### The dictionary (R328, R329) -/

def dictCount (d : Bytes) : Nat := if d = [] then 0 else leAt d 4 4
def dictOff (d : Bytes) (i : Nat) : Nat := leAt d (16 + 4 * i) 4
def dictBase (d : Bytes) : Nat := 16 + 4 * (dictCount d + 1)

/-- Entry `i`. -/
def dictEntry (d : Bytes) (i : Nat) : Bytes := (d.drop (dictBase d + dictOff d i)).take (dictOff d (i + 1) - dictOff d i)

def dictEntries (d : Bytes) : List Bytes := (List.range (dictCount d)).map (dictEntry d)

/-- The checks of R329. -/
def dictOk (d : Bytes) : Bool :=
  let m := byteAt d 2
  let es := dictEntries d
  leAt d 0 2 == 1 && decide (2 ≤ m) && decide (m ≤ 64) && decide (1 ≤ leAt d 4 4) && decide (leAt d 4 4 ≤ 130800)
    && resZero d 3 1 && resZero d 8 8 && dictOff d 0 == 0
    && (List.range (dictCount d)).all (fun i => decide (dictOff d i < dictOff d (i + 1)))
    && d.length == dictBase d + dictOff d (dictCount d)
    && es.all (fun e => decide (2 ≤ e.length) && decide (e.length ≤ m) && wellFormed e)
    && es.any (fun e => e.length == m) && es.eraseDups.length == es.length

/-! ### Tokens (R327, R331) -/

/-- The longest entry that is a prefix: its number and length. -/
def longestEntry (d p : Bytes) : Option (Nat × Nat) :=
  (List.range (dictCount d)).foldl (fun best i =>
    let e := dictEntry d i
    if e.isPrefixOf p && decide ((best.map Prod.snd).getD 0 < e.length) then some (i, e.length) else best) none

/-- The tokens of a buffer, and what stays as the carry. -/
def tokenLoop (d : Bytes) (fin : Bool) (h : Nat) : Nat → Bytes → List Nat × Bytes
  | 0, p => ([], p)
  | _, [] => ([], [])
  | f + 1, b :: r =>
    if !fin && decide ((b :: r).length < h) then ([], b :: r)
    else
      let n := charLen (b :: r)
      if n = 0 then
        let x := tokenLoop d fin h f r
        (b.toNat :: x.1, x.2)
      else
        match longestEntry d (b :: r) with
        | some (i, m) =>
          let x := tokenLoop d fin h f ((b :: r).drop m)
          ((0x110 + i) :: x.1, x.2)
        | none =>
          let x := tokenLoop d fin h f ((b :: r).drop n)
          (((b :: r).take n).map (fun c => c.toNat) ++ x.1, x.2)

/-- H of R330. -/
def carryLimit (s : State) : Nat := Nat.max (maxLen s) 4

/-- A request on a channel: its tokens, and the state with the new carry. -/
def tokenize (ch : Nat) (fin reset : Bool) (bytes : Bytes) (s : State) : List Nat × State :=
  let buf := (if reset then [] else nth s.text.carries ch []) ++ bytes
  let r := tokenLoop s.text.dict fin (carryLimit s) (buf.length + 1) buf
  let carry := if fin then [] else r.2
  (r.1, { s with text := { s.text with
    carries := setNth s.text.carries ch carry
    counts := modNth s.text.counts 0 (fun n => inc32 n (buf.length - carry.length)) } })

/-- The bytes of a token (R327). -/
def tokenBytes (s : State) (t : Nat) : Bytes :=
  if t < 0x100 then [BitVec.ofNat 8 t]
  else if t = 0x103 then [0xEF, 0xBF, 0xBD]
  else if 0x110 ≤ t ∧ t < vocab s then dictEntry s.text.dict (t - 0x110)
  else []

/-- A token ID that is neither reserved nor at or above VOCAB. -/
def tokenOk (s : State) (t : Nat) : Bool := decide (t < vocab s) && !(decide (0x104 ≤ t) && decide (t ≤ 0x107))

/-! ### Class tables and grammars (R336 to R340) -/

/-- The checks of R336 but for the repetition of an INDEX. -/
def classTableOk (voc : Nat) (t : Bytes) : Bool :=
  leAt t 0 2 == 1 && decide (byteAt t 2 ≤ 15) && byteAt t 3 == 0 && leAt t 4 4 == voc && resZero t 8 8
    && t.length == 16 + ceilDiv voc 64 * 64

/-- The class of a token ID in a table. -/
def classOf (t : Bytes) (id : Nat) : Nat := byteAt t (16 + id)

def gStates (g : Bytes) : Nat := leAt g 4 2
def gInitial (g : Bytes) : Nat := leAt g 6 2
def gEdges (g : Bytes) : Nat := leAt g 8 4
def gClassTable (g : Bytes) : Nat := byteAt g 2

/-- Bytes of a grammar (R337). -/
def gBytes (g : Bytes) : Nat := 32 + 40 * gStates g + 4 * gEdges g

/-- The record of a state, and its fields. -/
def gState (g : Bytes) (i : Nat) : Bytes := (g.drop (32 + 40 * i)).take 40
def gClassSet (g : Bytes) (i : Nat) : Nat := leAt (gState g i) 0 32
def gAccept (g : Bytes) (i : Nat) : Bool := bit (byteAt (gState g i) 38) 0

/-- The edges of a state as (CLASS, NEXT). -/
def gStateEdges (g : Bytes) (i : Nat) : List (Nat × Nat) :=
  let r := gState g i
  (List.range (leAt r 36 2)).map (fun k =>
    let w := leAt g (32 + 40 * gStates g + 4 * (leAt r 32 4 + k)) 4
    (w % 0x100, field w 19 8))

/-- Keys rise strictly. -/
def rising : List Nat → Bool
  | a :: b :: r => decide (a < b) && rising (b :: r)
  | _ => true

def gStateOk (g : Bytes) (i : Nat) : Bool :=
  let r := gState g i
  let es := gStateEdges g i
  let words := (List.range (leAt r 36 2)).map (fun k => leAt g (32 + 40 * gStates g + 4 * (leAt r 32 4 + k)) 4)
  decide (leAt r 36 2 ≤ 255) && field (byteAt r 38) 7 1 == 0 && byteAt r 39 == 0
    && decide (leAt r 32 4 + leAt r 36 2 ≤ gEdges g) && rising (es.map Prod.fst)
    && (List.range 256).all (fun c => bit (gClassSet g i) c == es.any (fun e => e.1 == c))
    && es.all (fun e => decide (1 ≤ e.1) && decide (e.2 < gStates g)) && words.all (fun w => decide (w < 2 ^ 20))
    && (!es.isEmpty || gAccept g i)

/-- The checks of R338; `tables` are the INDEX values of the resident class tables. -/
def grammarOk (voc : Nat) (tables : List Nat) (g : Bytes) : Bool :=
  leAt g 0 2 == 1 && decide (gClassTable g ≤ 15) && byteAt g 3 == 0 && decide (1 ≤ gStates g) && decide (gStates g ≤ 4096)
    && decide (gInitial g < gStates g) && decide (1 ≤ gEdges g) && decide (gEdges g ≤ 1044480) && leAt g 12 4 == voc
    && resZero g 16 16 && decide (gBytes g ≤ g.length) && tables.contains (gClassTable g)
    && (List.range (gStates g)).all (gStateOk g)

/-- DEAD (R340). -/
def dead : Nat := 0xFFFF

/-- The class of an ID under a grammar: 0, never allowed, where the ID takes no class. -/
def idClass (s : State) (g : Bytes) (t : Nat) : Nat :=
  if t = 0x100 ∨ t = 0x101 ∨ t = 0x102 ∨ (0x104 ≤ t ∧ t ≤ 0x107) ∨ vocab s ≤ t then 0
  else classOf (Tab.get s.text.classTables (gClassTable g) []) t

/-- The state after an input token, under a grammar slot or 0xFF (R340). -/
def consume (s : State) (slot st t : Nat) : Nat :=
  if st = dead then dead
  else if t = 0x101 then st
  else if t = 0x102 ∨ t = 0x100 ∨ (0x104 ≤ t ∧ t ≤ 0x107) ∨ vocab s ≤ t then dead
  else if slot = 0xFF then 0
  else
    let g := Tab.get s.text.grammars slot []
    let c := idClass s g t
    if bit (gClassSet g st) c then
      (((gStateEdges g st).find? (fun e => e.1 == c)).map Prod.snd).getD dead
    else dead

/-- The token is allowed in a state (R342). -/
def allowedToken (s : State) (slot st t : Nat) : Bool :=
  if st = dead ∨ vocab s ≤ t ∨ t = 0x100 ∨ t = 0x101 ∨ (0x104 ≤ t ∧ t ≤ 0x107) then false
  else if slot = 0xFF then true
  else
    let g := Tab.get s.text.grammars slot []
    if t = 0x102 then gAccept g st else bit (gClassSet g st) (idClass s g t)

/-- Bytes of a mask (R341). -/
def maskBytes (s : State) : Nat := ceilDiv (vocab s) 512 * 64

/-- The mask of a state. -/
def maskOfState (s : State) (slot st : Nat) : Bytes :=
  (List.range (maskBytes s)).map (fun i =>
    BitVec.ofNat 8 (maskOf ((List.range 8).filter (fun k => allowedToken s slot st (8 * i + k)))))

/-! ### Stop strings (R347) -/

/-- Record `i` of a stop set, which is stored as its records. -/
def stopRecord (set : Bytes) (i : Nat) : Bytes := (set.drop (40 * i)).take 40
def stopCount (set : Bytes) : Nat := set.length / 40
def stopText (r : Bytes) : Bytes := (r.drop 8).take (byteAt r 0)

def stopOk (r : Bytes) : Bool :=
  let n := byteAt r 0
  let next := byteAt r 2
  decide (1 ≤ n) && decide (n ≤ 32) && decide (byteAt r 1 ≤ 1) && (next == 0xFF || (byteAt r 1 == 1 && decide (next ≤ 63)))
    && resZero r 3 5 && wellFormed (stopText r) && resZero r (8 + n) (32 - n)

/-- The lowest stop string that ends with the text. -/
def stopAt (set text : Bytes) : Option Nat :=
  (List.range (stopCount set)).find? (fun i => (stopText (stopRecord set i)).isSuffixOf text)

/-! ### Commands (R351) -/

/-- TEXT_TOKENIZE. -/
def textTokenizeBody (p : Packet) (s : State) : Reply :=
  let q := p.params
  let n := leAt q 2 2
  if q.length ≠ 4 + n ∨ 15 < byteAt q 0 ∨ 3 < byteAt q 1 ∨ 4096 < n then .refuse 0x0184 []
  else if p.sender = 0x01 ∧ 8 ≤ byteAt q 0 then .refuse 0x0580 []
  else
    let r := tokenize (byteAt q 0) (bit (byteAt q 1) 0) (bit (byteAt q 1) 1) (q.drop 4) s
    .ok (pack [(2, r.1.length), (1, (nth r.2.text.carries (byteAt q 0) []).length), (1, 0)] ++ r.1.flatMap (le 4)) r.2

/-- TEXT_DETOKENIZE. -/
def textDetokenizeBody (p : Packet) (s : State) : Reply :=
  let q := p.params
  let n := leAt q 0 2
  let ids := (List.range n).map (fun i => leAt q (4 + 4 * i) 4)
  if q.length ≠ 4 + 4 * n ∨ n = 0 ∨ 512 < n ∨ !resZero q 2 2 then .refuse 0x0184 []
  else if ids.any (fun t => !tokenOk s t) then .refuse 0x0181 []
  else
    let b := ids.flatMap (tokenBytes s)
    .ok (pack [(2, b.length), (1, b2n (wellFormed b)), (1, 0)] ++ b) s

/-- The keys of the binding table once what is staged is posted. -/
def bindKeys (s : State) : List (Nat × Nat) :=
  (s.text.stagedBinds.foldl (fun l e =>
    let r := l.filter (fun x => x != e.1)
    if e.2 = (0xFF, 0xFF) then r else r ++ [e.1]) (s.text.bindings.map Prod.fst))

/-- GRAMMAR_BIND. -/
def grammarBindBody (p : Packet) (s : State) : Reply :=
  let q := p.params
  let g := byteAt q 4
  let st := byteAt q 5
  let key := (byteAt q 0, leAt q 2 2)
  if q.length ≠ 8 ∨ !resZero q 1 1 ∨ !resZero q 6 2 ∨ (63 < g ∧ g ≠ 0xFF) ∨ (63 < st ∧ st ≠ 0xFF) then .refuse 0x0184 []
  else if g ≠ 0xFF ∧ (Tab.find s.text.grammars g).isNone then .refuse 0x0185 []
  else if (g, st) ≠ (0xFF, 0xFF) ∧ !(bindKeys s).contains key ∧ 1024 ≤ (bindKeys s).length then .refuse 0x0381 []
  else .ok [] { s with text := { s.text with stagedBinds := s.text.stagedBinds.filter (fun e => e.1 != key) ++ [(key, (g, st))] } }

/-- STOP_SET. -/
def stopSetBody (p : Packet) (s : State) : Reply :=
  let q := p.params
  let n := byteAt q 1
  let recs := q.drop 4
  if 63 < byteAt q 0 ∨ 4 < n ∨ !resZero q 2 2 ∨ q.length ≠ 4 + 40 * n then .refuse 0x0184 []
  else if (List.range n).any (fun i => !stopOk (stopRecord recs i)) then .refuse 0x0183 []
  else .ok [] { s with text := { s.text with stagedStops := Tab.set s.text.stagedStops (byteAt q 0) recs } }

/-- The grammar and the class table of a grammar section's body (log 25). -/
def sectionGrammar (b : Bytes) : Bytes := b.take (gBytes b)
def sectionTable (b : Bytes) : Option Bytes := if (b.drop (gBytes b)).isEmpty then none else some (b.drop (gBytes b))

/-- A line that uses a grammar: not done, unread or discarded. -/
def lineUses (g : Nat) (l : Line) : Bool := l.grammar == g && decide (l.state ≤ 3)

/-- GRAMMAR_LOAD. -/
def grammarLoadBody (p : Packet) (s : State) : Reply :=
  let q := p.params
  let slot := byteAt q 0
  let c := q.drop 4
  let body := containerBody c
  let g := sectionGrammar body
  let tables := match sectionTable body with
    | some t => Tab.set s.text.classTables (byteAt t 2) t
    | none => s.text.classTables
  let t : State := { s with text := { s.text with grammars := Tab.set s.text.grammars slot g, classTables := tables } }
  if q.length < 4 ∨ 63 < slot ∨ !resZero q 1 3 ∨ q.length ≠ 4 + 8192 + leAt c 8 8 then .refuse 0x0184 []
  else if (match sectionTable body with | some x => !classTableOk (vocab s) x | none => false)
      || !grammarOk (vocab s) (tables.map Prod.fst) g then .refuse 0x0182 []
  else if (containerRefusal s 3 c).isSome && containerFormatOk s 3 c then .refuse 0x0581 []
  else if par s 0x08000001 * 1024 < grammarBytes t then .refuse 0x0380 []
  else if (Tab.find s.text.grammars slot).isSome
      ∧ (s.text.bindings.any (fun e => e.2.1 == slot) ∨ s.serv.lines.any (lineUses slot)) then .refuse 0x0481 []
  else
    match containerRefusal s 3 c with
    | some st => .refuse st []
    | none => .ok [] t

/-- GRAMMAR_QUERY. -/
def grammarQueryBody (p : Packet) (s : State) : Reply :=
  let q := p.params
  let n := byteAt q 0
  if q.length ≠ 4 ∨ 63 < n ∨ !resZero q 1 3 then .refuse 0x0184 []
  else
    let g := Tab.get s.text.grammars n []
    let used := if g = [] then 0 else gBytes g
    .ok (pack [(2, gStates g), (1, gClassTable g), (1, 0), (4, used), (4, (s.serv.lines.filter (lineUses n)).length),
      (2, (s.text.bindings.filter (fun e => e.2.1 == n)).length), (2, 0)]) s

/-- TEXT_TOKENIZE. -/
def execTextTokenize : Nat → Hdr → Bytes → State → Host.Outcome State Fault Refusal := hostRow 0x0801 textTokenizeBody
/-- TEXT_DETOKENIZE. -/
def execTextDetokenize : Nat → Hdr → Bytes → State → Host.Outcome State Fault Refusal := hostRow 0x0802 textDetokenizeBody
/-- GRAMMAR_BIND. -/
def execGrammarBind : Nat → Hdr → Bytes → State → Host.Outcome State Fault Refusal := hostRow 0x0803 grammarBindBody
/-- STOP_SET. -/
def execStopSet : Nat → Hdr → Bytes → State → Host.Outcome State Fault Refusal := hostRow 0x0804 stopSetBody
/-- GRAMMAR_LOAD. -/
def execGrammarLoad : Nat → Hdr → Bytes → State → Host.Outcome State Fault Refusal := hostRow 0x0805 grammarLoadBody
/-- GRAMMAR_QUERY. -/
def execGrammarQuery : Nat → Hdr → Bytes → State → Host.Outcome State Fault Refusal := hostRow 0x0806 grammarQueryBody

end Sys2Proof.Machine
end

