-- ==== Sys2Proof/Machine/Walk.lean ====
section
/-! DEFINITION. The slab walkers: translations, appends, copy-on-write, adoption (09 R261 to R273; 08 R241 to R243). -/
namespace Sys2Proof.Machine

def walkerAt (s : State) (w : Nat) : Walker := nth s.slab.walkers w Walker.reset
def modWalker (w : Nat) (f : Walker → Walker) (s : State) : State :=
  modSlabs (fun k => { k with walkers := modNth k.walkers w f }) s

/-! ### Translations (R262 to R264) -/

/-- An entry of the reply. -/
def xlatEntry (addr fill flags rstat : Nat) : Bytes := pack [(8, addr), (2, fill), (1, flags), (1, rstat)]

/-- The key is looked up in the SLB: a hit moves to the front, a miss is counted and entered, and the oldest goes. -/
def slbUse (w : Nat) (key : Nat × Nat × Nat × Nat) (n : Nat) (s : State) : State :=
  let l := (walkerAt s w).slb
  let s := if l.any (fun e => e.1 == key) then s else slabCount 6 s
  modWalker w (fun x => { x with slb := ((key, n) :: l.filter (fun e => e.1 != key)).take 64 }) s

/-- What stands in the way of a translation for a step, if anything: RSTAT 3, 4. -/
def xlatBar (s : State) (step : Nat) (h : Nat) : Option Nat :=
  match seqOf s h with
  | none => some 3
  | some (_, q) =>
    if q.state ≠ 1 then some 3
    else if !q.steps.any (fun e => e.1 == step) then some 4
    else none

/-- The entry of one slab index, with the pin of MODE 1 and the stamps of use. -/
def xlatOne (w job step h l g n mode : Nat) (s : State) : Bytes × State :=
  match xlatBar s step h, seqOf s h with
  | some r, _ => (xlatEntry 0 0 0 r, s)
  | none, none => (xlatEntry 0 0 0 3, s)
  | none, some (i, q) =>
    match jobGeom s q.job with
    | none => (xlatEntry 0 0 0 3, s)
    | some ge =>
      if mode = 2 then
        let rmax := ceilDiv (ge.maxIndex * 4) 64
        if rmax ≤ n then (xlatEntry 0 0 0 5, s)
        else if q.index = 0 then (xlatEntry 0 0 0 1, s)
        else
          let a := q.index + ((l * ge.groups + g) * ge.kvh * ge.hdim * rmax + n) * 4096 * ge.es
          (xlatEntry a (Nat.min 64 (q.committed / 64 - 64 * n)) 0 0, s)
      else if ge.maxIndex ≤ n then (xlatEntry 0 0 0 5, s)
      else
        let d := dirGet s (dirAddr q ge n l g)
        if d.1 = 0 then (xlatEntry 0 0 0 1, s)
        else if d.1 = 3 then (xlatEntry 0 0 0 2, s)
        else
          match slabAt s d.2 with
          | none => (xlatEntry 0 0 0 1, s)
          | some b =>
            let a := if b.promoted then 2 ^ 63 + b.commons else slabHomeAddr s d.2
            let s := slbUse w (h, l, g, n) d.2 s
            let full := decide (2048 ≤ (walkerAt s w).pins.length) && !(walkerAt s w).pins.contains (job, step, d.2)
            let s := if mode = 1 then (if full then slabCount 5 s else pin w job step d.2 s) else s
            let s := modSlab d.2 (fun x => { x with lastUse := stamp s }) (modSeq i (fun x => { x with lastUse := stamp s }) s)
            (xlatEntry a b.fill (b2n (b.state == 2) + 2 * b2n b.promoted) 0, s)

/-- The entries of a request, in index order. -/
def xlatAll (w job step h l g mode : Nat) : List Nat → State → Bytes × State
  | [], s => ([], s)
  | n :: ns, s =>
    let a := xlatOne w job step h l g n mode s
    let b := xlatAll w job step h l g mode ns a.2
    (a.1 ++ b.1, b.2)

/-- A pin that finds the table full waits, unless every record is of the requesting step (R263). -/
def pinsWait (s : State) (w job step mode : Nat) : Bool :=
  let l := (walkerAt s w).pins
  mode == 1 && decide (2048 ≤ l.length) && l.any (fun x => !(x.1 == job && x.2.1 == step))

/-- The reply is written into the record, and the core's request is over. -/
def xlatReply (w : Nat) (r : WalkReq) (rec : Nat) (q : Bytes) (s : State) : State :=
  let x := xlatAll w r.job r.step (leAt q 0 4) (leAt q 4 2) (leAt q 6 2) (byteAt q 11) ((List.range (byteAt q 10)).map (leAt q 8 2 + ·)) s
  modCore r.core (fun k => { k with scratch := Memory.writeN k.scratch (rec + 16) (fit 48 x.1), walks := k.walks - 1 }) x.2

/-! ### Appends (08 R240 to R243; R267, R270, R272) -/

/-- What one piece of an append comes to. -/
inductive Placed where
  | done (s : State)
  | wait (old : Nat) (s : State)
  | fault (status : Nat) (s : State)

/-- The offset of a row's bytes within a slab (R252; 08 R236). -/
def rowOffset (g : Geom) (head part off : Nat) (value : Bool) : Nat :=
  let k := (((off / 64) * g.kvh + head) * g.hdim + part) * 8192 * g.es
  if value then k + 4096 * g.es + g.es * 64 * (off % 64) else k + g.es * (off % 64)

/-- One row goes into a slab's bytes: a value row stands together, the elements of a key row 64 tokens apart. -/
def writeRow (base : Nat) (g : Geom) (a : Append) (off : Nat) (row : Bytes) (m : Memory) : Memory :=
  let at_ := base + rowOffset g a.head a.part off a.value
  if a.value then Memory.writeN m at_ row
  else (List.range 64).foldl (fun m d => Memory.writeN m (at_ + g.es * 64 * d) ((row.drop (g.es * d)).take g.es)) m

/-- The rows from `pos` on that fall in one slab are written. -/
def writeRows (g : Geom) (a : Append) (n pos : Nat) (rows : List Bytes) (s : State) : State :=
  let m := rows.zipIdx.foldl (fun m e => writeRow (slabHomeAddr s n) g a ((pos + e.2) % 256) e.1 m) s.ddr
  modSlab n (fun b => { b with fill := Nat.max b.fill (pos % 256 + rows.length), lastUse := stamp s }) { s with ddr := m }

/-- A column whose every entry is written again counts as restored (R273). -/
def restoreColumn (i : Nat) (q : Seq) (g : Geom) (n : Nat) (s : State) : State :=
  let need := Nat.min 256 (q.committed - 256 * n)
  let whole := (columnEntries s q g n).all (fun e =>
    e.2.1 == 1 && (match slabAt s e.2.2 with | some b => decide (need ≤ b.fill) | none => false))
  if q.dropped.contains n && whole then
    slabEvent (slabHome s ((columnEntries s q g n).map (fun e => e.2.2) |>.headD 0)) 3 q.job 0 q.handle n 0
      (slabCount 3 (modSeq i (fun x => { x with dropped := x.dropped.filter (· != n) }) s))
  else s

/-- The shared slab is used by the appender alone (R270). -/
def adoptable (s : State) (b : Slab) (n job step : Nat) : Bool :=
  (tallyAt s b.refTally).count == 1 && !b.registered && !s.slab.copies.any (fun c => c.old == n)
    && s.slab.walkers.all (fun w => w.pins.all (fun x => x.2.2 != n || (x.1 == job && x.2.1 == step)))

/-- The slab becomes private to the appender. -/
def adopt (n : Nat) (b : Slab) (q : Seq) (l g ix : Nat) (a : Nat) (s : State) : State :=
  let s := slabCount 1 (invalidate (fun e => e.2 == n) (unshare n b s))
  dirSet a 1 n (putSlab n (some { b with state := 1, seq := q.handle, layer := l, group := g, index := ix, refTally := 0xFFFF,
                                          promoted := false, commons := 0 }) s)

/-- The slab of an append is found, made or awaited: a private one, a fresh one, an adopted one, or a copy's. -/
def slabFor (job step i : Nat) (q : Seq) (g : Geom) (ap : Append) (n : Nat) (s : State) : Placed × Nat :=
  let a := dirAddr q g n ap.layer ap.group
  let d := dirGet s a
  if d.1 = 1 then (.done s, d.2)
  else if d.1 = 2 then
    match slabAt s d.2 with
    | none => (.done s, d.2)
    | some b =>
      if s.slab.copies.any (fun c => c.seq == q.handle && c.index == n && c.layer == ap.layer && c.group == ap.group) then (.wait d.2 s, d.2)
      else if adoptable s b d.2 job step then (.done (adopt d.2 b q ap.layer ap.group n a s), d.2)
      else
        match allocate job step s with
        | (none, s) => (.fault 0x0760 s, 0)
        | (some new, s) =>
          let s := putSlab new (some (newSlab q ap.layer ap.group n)) s
          let s := modSlab d.2 (fun x => { x with pins := x.pins + 1 }) s
          (.wait d.2 (modSlabs (fun k => { k with copies := k.copies ++ [⟨d.2, new, q.handle, n, ap.layer, ap.group⟩] }) s), d.2)
  else
    match allocate job step s with
    | (none, s) => (.fault 0x0760 s, 0)
    | (some new, s) =>
      let s := putSlab new (some (newSlab q ap.layer ap.group n)) s
      let s := modSeq i (fun x => x) (dirSet a 1 new s)
      (.done s, new)

/-- The pieces of an append, slab by slab (08 R242); what is left is said where a copy is awaited. -/
def place (job step : Nat) : Nat → Append → State → Placed × Append
  | 0, a, s => (.done s, a)
  | f + 1, a, s =>
    match a.rows with
    | [] => (.done s, a)
    | _ =>
      match seqOf s a.seq with
      | none => (.done s, a)
      | some (i, q) =>
        match jobGeom s q.job with
        | none => (.done s, a)
        | some g =>
          let n := a.pos0 / 256
          if g.maxIndex ≤ n then (.fault 0x0761 s, a)
          else
            match slabFor job step i q g a n s with
            | (.wait old s, _) => (.wait old s, a)
            | (.fault st s, _) => (.fault st s, a)
            | (.done s, slab) =>
              let k := Nat.min a.rows.length (256 - a.pos0 % 256)
              let s := writeRows g a slab a.pos0 (a.rows.take k) s
              let s := restoreColumn i q g n (modSeq i (fun x => { x with lastUse := stamp s }) s)
              place job step f { a with pos0 := a.pos0 + k, rows := a.rows.drop k } s

/-! ### Rows -/

/-- The first request of a walker that awaits no copy, by its place in the queue. -/
def nextReq (s : State) (w : Nat) : Option (Nat × WalkReq) :=
  (((walkerAt s w).queue.zipIdx).find? (fun e => e.1.waits.isNone)).map (fun e => (e.2, e.1))

def dropReq (w k : Nat) (s : State) : State := modWalker w (fun x => { x with queue := x.queue.eraseIdx k }) s

/-- WALKER_REPLY (R264): a walker answers its next request. -/
def execWalkerReply (dt cluster : Nat) (s : State) : Host.Outcome State Fault Refusal :=
  let s := advance dt s
  .next (if !awake s then s
    else match nextReq s cluster with
    | none => s
    | some (k, r) =>
      match r.ask with
      | .translate rec q =>
        if pinsWait s cluster r.job r.step (byteAt q 11) then s else xlatReply cluster r rec q (dropReq cluster k s)
      | .append a =>
        match place r.job r.step 3 a s with
        | (.done s, _) =>
          let s := dropReq cluster k s
          if a.tally = 0xFFFF then s else signalTally a.tally 1 s
        | (.wait old s, rest) =>
          modWalker cluster (fun x => { x with queue := modNth x.queue k (fun q => { q with ask := .append rest, waits := some old }) }) s
        | (.fault st s, _) => raiseFault st 2 cluster 0 (dropReq cluster k s))

/-- The blocks of a copy: 0 to ⌈FILL ÷ 64⌉ − 1 of every head and part. -/
def copyBytes (g : Geom) (fill : Nat) : Nat := ceilDiv fill 64 * g.kvh * g.hdim * 8192 * g.es

/-- COPY_ON_WRITE_COMPLETE (R267): a copy of the shared slab named ends. -/
def execCopyOnWriteComplete (dt slab : Nat) (s : State) : Host.Outcome State Fault Refusal :=
  let s := advance dt s
  .next (if !awake s then s
    else match s.slab.copies.find? (fun c => c.old == slab), slabAt s slab with
    | some c, some b =>
      let s := modSlabs (fun k => { k with copies := k.copies.erase c }) s
      let bytes := Memory.readN s.ddr (slabHomeAddr s c.old) (((jobGeom s b.job).map (fun g => copyBytes g b.fill)).getD 0)
      let s := { s with ddr := Memory.writeN s.ddr (slabHomeAddr s c.new) bytes }
      let s := modSlab c.new (fun x => { x with fill := b.fill }) s
      let s := match seqOf s c.seq with
        | some (_, q) =>
          (match (if q.state = 1 then jobGeom s q.job else none) with
          | some g => dropRef c.old (dirSet (dirAddr q g c.index c.layer c.group) 1 c.new s)
          | none => letGo c.new s)
        | none => letGo c.new s
      let s := unpin c.old s
      let s := invalidate (fun e => e.1 == (c.seq, c.layer, c.group, c.index)) s
      let s := modSlabs (fun k => { k with walkers := k.walkers.map (fun w => { w with queue := w.queue.map (fun r =>
        match r.ask with
        | .append a => if r.waits = some c.old ∧ a.seq = c.seq ∧ a.layer = c.layer ∧ a.group = c.group then { r with waits := none } else r
        | _ => r) }) }) s
      slabEvent (slabHome s c.old) 1 b.job 0 c.seq c.index c.new (slabCount 0 s)
    | _, _ => s)

end Sys2Proof.Machine
end

