-- ==== Sys2Proof/Machine/Vector.lean ====
section
/-! DEFINITION. The vector group, DRAIN and quantisation points (05 R161; 06 R196 to R206). -/
namespace Sys2Proof.Machine

/-! ### Vector arithmetic (06 R196) -/

/-- MAX and MIN of INT32 lanes compare as signed. -/
def imax (a b : Word) : Word := if a.toInt < b.toInt then b else a
def imin (a b : Word) : Word := if b.toInt < a.toInt then b else a

/-- A lane of a two-operand operation: VD, VS1, VS2. -/
def laneOp (op : Nat) (isInt : Bool) (d a b : Word) : Word :=
  match op, isInt with
  | 0x00, true => a + b
  | 0x01, true => a * b
  | 0x02, true => d + a * b
  | 0x03, true => imax a b
  | 0x04, true => imin a b
  | 0x00, false => r32 ((fp a).add (fp b))
  | 0x01, false => r32 ((fp a).mul (fp b))
  | 0x02, false => r32 ((fp d).add ((fp a).mul (fp b)))
  | 0x03, false => r32 ((fp a).max (fp b))
  | 0x04, false => r32 ((fp a).min (fp b))
  | 0x08, _ => r32 (fp a).exp
  | 0x09, _ => r32 (fp a).rcp
  | _, _ => r32 (fp a).rsqrt

/-- Neighbours in pairs: one level of the tree. -/
def pairUp (f : Word → Word → Word) : List Word → List Word
  | a :: b :: l => f a b :: pairUp f l
  | l => l

/-- The fixed tree of six levels over 64 lanes. -/
def tree (f : Word → Word → Word) (l : List Word) : Word :=
  nth (pairUp f (pairUp f (pairUp f (pairUp f (pairUp f (pairUp f l)))))) 0 0

def addF (a b : Word) : Word := r32 ((fp a).add (fp b))
def maxF (a b : Word) : Word := r32 ((fp a).max (fp b))
def treeSum (l : List Word) : Word := tree addF l
def treeMax (l : List Word) : Word := tree maxF l

/-- VS2, or a scalar broadcast. -/
def vs2 (s : State) (c n : Nat) : List Word :=
  if bit n 41 then List.replicate 64 (BitVec.ofNat 32 (xr s c (field n 40 36))) else vr s c (field n 44 42)

def lanes3 (f : Word → Word → Word → Word) (d a b : List Word) : List Word :=
  (List.range 64).map (fun i => f (nth d i 0) (nth a i 0) (nth b i 0))

/-- 64 free values: what the spec gives no result for (log 42). -/
def freeLanes (s : State) : List Word × State :=
  ((List.range 64).map (fun i => Config.freeWord (s.freeCtr + i)), { s with freeCtr := s.freeCtr + 64 })

/-- ADD, MUL, FMA, MAX, MIN, EXP, RCP, RSQRT. -/
def vectorEff (op : Nat) : Eff := fun c n s =>
  let vd := field n 50 48
  if bit n 35 && decide (0x08 ≤ op) then
    let (l, s) := freeLanes s
    .ok (.step (setV c vd l s))
  else .ok (.step (setV c vd (lanes3 (laneOp op (bit n 35)) (vr s c vd) (vr s c (field n 47 45)) (vs2 s c n)) s))

/-- RSUM and RMAX: lane 0 of VD takes the tree's result. -/
def reduceEff (isMax : Bool) : Eff := fun c n s =>
  let vd := field n 50 48
  let f := if bit n 35 then (if isMax then imax else (· + ·)) else if isMax then maxF else addF
  .ok (.step (setV c vd (setNth (vr s c vd) 0 (tree f (vr s c (field n 47 45)))) s))

/-- CVT: the narrow result in the low bits of each lane. -/
def cvtEff : Eff := fun c n s => do
  let fmt := field n 34 32
  need (decide (fmt ≤ 5)) 0x0740
  let e := (vr s c (field n 47 45)).map (fun w => if bit n 35 then narrowInt fmt w else convertTo fmt (fp w))
  return .step (countEvents c (clipsIn e) (nansIn e) 0 (setV c (field n 50 48) (e.map (fun x => BitVec.ofNat 32 x.code)) s))

def execVectorAdd : Nat → Nat → DWord → State → Host.Outcome State Fault Refusal := coreRow 4 0x00 (bits 31 0) (vectorEff 0x00)
def execVectorMul : Nat → Nat → DWord → State → Host.Outcome State Fault Refusal := coreRow 4 0x01 (bits 31 0) (vectorEff 0x01)
def execFma : Nat → Nat → DWord → State → Host.Outcome State Fault Refusal := coreRow 4 0x02 (bits 31 0) (vectorEff 0x02)
def execVectorMax : Nat → Nat → DWord → State → Host.Outcome State Fault Refusal := coreRow 4 0x03 (bits 31 0) (vectorEff 0x03)
def execVectorMin : Nat → Nat → DWord → State → Host.Outcome State Fault Refusal := coreRow 4 0x04 (bits 31 0) (vectorEff 0x04)
def execExp : Nat → Nat → DWord → State → Host.Outcome State Fault Refusal := coreRow 4 0x08 (bits 31 0) (vectorEff 0x08)
def execRcp : Nat → Nat → DWord → State → Host.Outcome State Fault Refusal := coreRow 4 0x09 (bits 31 0) (vectorEff 0x09)
def execRsqrt : Nat → Nat → DWord → State → Host.Outcome State Fault Refusal := coreRow 4 0x0A (bits 31 0) (vectorEff 0x0A)
def execRsum : Nat → Nat → DWord → State → Host.Outcome State Fault Refusal := coreRow 4 0x10 (bits 31 0) (reduceEff false)
def execRmax : Nat → Nat → DWord → State → Host.Outcome State Fault Refusal := coreRow 4 0x11 (bits 31 0) (reduceEff true)
def execCvt : Nat → Nat → DWord → State → Host.Outcome State Fault Refusal := coreRow 4 0x18 (bits 31 0) cvtEff

/-! ### Quantisation points (06 R200 to R203) -/

def qpAt (s : State) (n : Nat) : Option Qp := Tab.find s.qps n
def modQp (n : Nat) (f : Qp → Qp) (s : State) : State :=
  { s with qps := s.qps.map (fun e => if e.1 = n then (n, f e.2) else e) }

/-- The serial order of step numbers (10 R286): `a` is earlier than `b`. -/
def earlier (a b : Nat) : Bool :=
  let d := (b + 2 ^ 32 - a) % 2 ^ 32
  decide (1 ≤ d) && decide (d < 2 ^ 31)

/-- The latest and the earliest entry of a history. -/
def latestHist (l : List (Nat × Int)) : Option (Nat × Int) :=
  l.foldl (fun m e => match m with | none => some e | some x => if earlier x.1 e.1 then some e else some x) none
def earliestHist (l : List (Nat × Int)) : Option (Nat × Int) :=
  l.foldl (fun m e => match m with | none => some e | some x => if earlier e.1 x.1 then some e else some x) none

/-- The adjustment that a drain of step `k` uses, and whether every entry is above it (R200). -/
def adjFor (q : Qp) (k : Nat) : Int × Bool :=
  match latestHist (q.hist.filter (fun e => !earlier k e.1)) with
  | some e => (e.2, false)
  | none => ((earliestHist q.hist).map Prod.snd |>.getD 0, true)

/-- A drain reads a point: its adjustment, with STALE_DRAINS counted. -/
def readQp (n k : Nat) (s : State) : Int × State :=
  if n = 0xFFFF then (0, s)
  else
    match qpAt s n with
    | none => (0, s)
    | some q =>
      let a := adjFor q k
      (a.1, if a.2 then modQp n (fun q => { q with stale := inc32 q.stale 1 }) s else s)

/-- The home of a point (R200). -/
def qpHome (s : State) (n : Nat) : Nat := if s.variant.half then n / 128 else n / 64

/-- A report of a fold (R203). -/
def qpReport (n ev k : Nat) (old new : Int) (q : Qp) (s : State) : State :=
  post (par s 0x04000020) (0x20 + qpHome s n) false
    (fit 64 (pack [(1, ev), (1, q.job), (2, n), (4, k), (8, stamp s), (1, twos 8 old), (1, twos 8 new), (2, q.thresh), (4, q.elem),
      (4, q.clip), (4, q.nan), (4, q.high)])) s

/-- The rule of R202 before the final clamp: the new adjustment, CLEAN, and whether the widening condition held. -/
def adapt (q : Qp) (adj : Int) : Int × Nat × Bool :=
  if q.mode = 0 ∨ q.elem = 0 then (adj, q.clean, false)
  else if q.thresh * q.elem < q.clip * 65536 then
    (min q.adjMax (adj + (if q.elem < q.clip * 16 then 2 else 1)), 0, true)
  else if q.mode = 2 ∧ q.clip = 0 ∧ q.high = 0 then
    (if q.relax ≤ q.clean + 1 then (max q.adjMin (adj - 1), 0, false) else (adj, q.clean + 1, false))
  else (adj, 0, false)

/-- A fold at the launch of step `k` (R201, R202): nothing where the history already reaches it. -/
def fold (n k : Nat) (s : State) : State :=
  match qpAt s n with
  | none => s
  | some q0 =>
    match latestHist q0.hist, earliestHist q0.hist with
    | some top, some low =>
      if !earlier top.1 k then s
      else
        let q := match q0.next with
          | some (m, lo, hi, relax, thresh) => { q0 with mode := m, adjMin := lo, adjMax := hi, relax := relax, thresh := thresh, next := none }
          | none => q0
        let a := adapt q top.2
        let new := clampI q.adjMin q.adjMax a.1
        let moved := decide (new ≠ a.1)
        let changed := decide (new ≠ top.2)
        let atMax := a.2.2 && decide (top.2 = q.adjMax) && !changed
        let ev := if moved then 4 else if top.2 < new then 1 else if new < top.2 then 2 else 3
        let sends := moved || changed || (atMax && !q.limitSent)
        let at_ := (q.hist.findIdx? (· == low)).getD 0
        let q' := { q with
          hist := setNth q.hist at_ (k, new), clean := a.2.1, elem := 0, clip := 0, nan := 0, high := 0, lastFold := stamp s
          limitSent := if changed then false else q.limitSent || atMax
          adapted := q.adapted || changed
          changes := if changed then inc32 q.changes 1 else q.changes }
        let s := modQp n (fun _ => q') s
        if sends then qpReport n ev k top.2 new q s else s
    | _, _ => s

/-- Every point of a job folds at the launch of a step (R201). -/
def foldAll (j k : Nat) (s : State) : State :=
  (s.qps.filter (fun e => e.2.job == j)).foldl (fun s e => fold e.1 k s) s

/-- A drain's counts reach the home (R199). -/
def countQp (n elems clips nans highs : Nat) (s : State) : State :=
  modQp n (fun q => { q with
    elem := inc32 q.elem elems, clip := inc32 q.clip clips, nan := inc32 q.nan nans, high := inc32 q.high highs }) s

/-- The record of QP_QUERY (R204). -/
def qpRecord (n : Nat) (q : Qp) : Bytes :=
  pack [(2, n), (1, q.job), (1, q.mode), (1, twos 8 q.adjMin), (1, twos 8 q.adjMax), (1, q.relax),
        (1, b2n q.limitSent + 2 * b2n q.adapted), (2, q.thresh), (2, q.clean), (4, q.stale), (4, q.elem), (4, q.clip), (4, q.nan),
        (4, q.high)]
    ++ q.hist.flatMap (fun e => le 4 e.1) ++ q.hist.flatMap (fun e => le 1 (twos 8 e.2)) ++ pack [(4, q.changes), (8, q.lastFold)]

/-- QP_QUERY (R205). -/
def qpQueryBody (p : Packet) (s : State) : Reply :=
  if p.params.length ≠ 4 ∨ leAt p.params 2 2 ≠ 0 then .refuse 0x0140 []
  else
    match qpAt s (leAt p.params 0 2) with
    | some q => .ok (qpRecord (leAt p.params 0 2) q) s
    | none => .refuse 0x0142 []

/-- QP_SET (R205): from the point's next fold. -/
def qpSetBody (p : Packet) (s : State) : Reply :=
  let b := p.params
  let lo := sext 8 (byteAt b 3)
  let hi := sext 8 (byteAt b 4)
  if b.length ≠ 8 ∨ 2 < byteAt b 2 ∨ hi < lo ∨ lo < -16 ∨ 16 < hi ∨ byteAt b 5 = 0 ∨ leAt b 6 2 = 0 then .refuse 0x0140 []
  else
    match qpAt s (leAt b 0 2) with
    | some _ => .ok [] (modQp (leAt b 0 2) (fun q => { q with next := some (byteAt b 2, lo, hi, byteAt b 5, leAt b 6 2) }) s)
    | none => .refuse 0x0142 []

def execQpQuery : Nat → Hdr → Bytes → State → Host.Outcome State Fault Refusal := hostRow 0x0410 qpQueryBody
def execQpSet : Nat → Hdr → Bytes → State → Host.Outcome State Fault Refusal := hostRow 0x0411 qpSetBody

/-! ### DRAIN (06 R197 to R199) -/

/-- The value times a power of two. -/
def Fp.scale (k : Int) : Fp → Fp
  | .fin n m e => .fin n m (e + k)
  | x => x

/-- The scale block at X[XS]. -/
structure ScaleBlock where
  scale : Nat → Word
  bias : Nat → Word
  inQp : Nat
  outQp : Nat
  lo : Word
  hi : Word
  rows : Nat
  cols : Nat

def scaleBlock (s : State) (c a : Nat) : ScaleBlock where
  scale j := BitVec.ofNat 32 (ownLe s c (a + 4 * j) 4)
  bias j := BitVec.ofNat 32 (ownLe s c (a + 256 + 4 * j) 4)
  inQp := ownLe s c (a + 512) 2
  outQp := ownLe s c (a + 514) 2
  lo := BitVec.ofNat 32 (ownLe s c (a + 516) 4)
  hi := BitVec.ofNat 32 (ownLe s c (a + 520) 4)
  rows := ownByte s c (a + 524)
  cols := ownByte s c (a + 525)

/-- A tile's element as FP32. -/
def accFp (t : AccTile) (i j : Nat) : Fp := if t.fp then fp (cell t i j) else fp (r32 (ofInt (cell t i j).toInt))

/-- ACT (R198). -/
def activate (act : Nat) (lo hi v : Fp) : Fp :=
  match act with
  | 1 => if v.isNan || Fp.lt (.fin false 0 0) v then v else .fin false 0 0
  | 2 => if v.isNan then v else (v.max lo).min hi
  | _ => v

/-- An element of DRAIN before its conversion (R198). -/
def drainValue (t : AccTile) (b : ScaleBlock) (act : Nat) (adjIn adjOut : Int) (i j : Nat) : Fp :=
  let v := fp (r32 ((accFp t i j).mul (fp (b.scale j))))
  let v := fp (r32 (v.scale adjIn))
  let v := fp (r32 (v.add (fp (b.bias j))))
  fp (r32 ((activate act (fp b.lo) (fp b.hi) v).scale (-adjOut)))

/-- OUTFMT (05 R161): 0 INT8, 1 UINT8, 2 E4M3, 3 E5M2, 4 BF16, 5 FP32, 6 INT32. -/
def outBytes (f : Nat) : Nat := if f < 4 then 1 else if f = 4 then 2 else 4
def outConvert (f : Nat) (x : Fp) : Converted :=
  match f with
  | 5 => ⟨(r32 x).toNat, false, x.isNan⟩
  | 6 => rInt32.convert x
  | f => convertTo f x

/-- |u| is at least half the largest finite value of the format (R199). -/
def isHigh (f : Nat) (u : Fp) : Bool :=
  let half : Fp := match f with
    | 0 => .fin false 127 (-1)
    | 1 => .fin false 255 (-1)
    | 2 => .fin false 224 0
    | _ => .fin false 28672 0
  match u with
  | .nan => false
  | .inf _ => true
  | .fin _ m e => !Fp.lt (.fin false m e) half

/-- The adjustments of a drain, read at its start (R198, R199). -/
def drainAdj (c outFmt : Nat) (b : ScaleBlock) (first : Bool) (s : State) : Int × Int × State :=
  let k := (coreAt s c).step
  let r := readQp b.inQp k s
  let o := if outFmt < 4 then readQp b.outQp k r.2 else (0, r.2)
  (r.1, o.1, if first then o.2 else s)

/-- The checks of a scale block as DRAIN uses it (R198). -/
def scaleBlockOk (s : State) (c act : Nat) (b : ScaleBlock) : Bool :=
  let mine (q : Nat) := q == 0xFFFF || (match qpAt s q with | some x => x.job == (coreAt s c).job | none => false)
  decide (act ≤ 2) && !(act == 2 && Fp.lt (fp b.hi) (fp b.lo)) && decide (1 ≤ b.rows) && decide (b.rows ≤ 16)
    && decide (1 ≤ b.cols) && decide (b.cols ≤ 64) && mine b.inQp && mine b.outQp

/-- The counts of an output over its ROWS × COLS elements reach OUT_QP. -/
def drainCounts (outFmt : Nat) (b : ScaleBlock) (u : Nat → Nat → Fp) (s : State) : State :=
  if b.outQp = 0xFFFF ∨ 4 ≤ outFmt then s
  else
    let l := (List.range b.rows).flatMap (fun i => (List.range b.cols).map (fun j => u i j))
    let e := l.map (outConvert outFmt)
    countQp b.outQp l.length (clipsIn e) (nansIn e) (l.filter (isHigh outFmt)).length s

/-- A tile cleared: +0 or 0 in every cell, its format kept. -/
def clearTile (c t : Nat) (s : State) : State := setTile c t { tileAt s c t with cells := List.replicate 1024 0 } s

/-- Rows `lo` to `hi` of DRAIN. -/
def drainLong (c n : Nat) (x : List Word) : Long :=
  { len := 16
    run := fun lo hi s =>
      let t := field n 50 45
      let f := field n 34 32
      let b := scaleBlock s c (xOf x (field n 39 35))
      let (ai, ao, s) := drainAdj c f b (lo == 0) s
      let u := drainValue (tileAt s c t) b (field n 31 29) ai ao
      let e := (List.range (hi - lo)).flatMap (fun i => (List.range 64).map (fun j => outConvert f (u (lo + i) j)))
      let s := ownWrite c (xOf x (field n 44 40) + 64 * outBytes f * lo) (e.flatMap (fun k => le (outBytes f) k.code)) s
      let s := if f = 5 then s else countEvents c (clipsIn e) (nansIn e) 0 s
      if hi = 16 then
        let s := drainCounts f b u s
        if bit n 28 then clearTile c t s else s
      else s }

def drainEff : Eff := fun c n s => do
  let f := field n 34 32
  let xs := xr s c (field n 39 35)
  need (decide (field n 50 45 < 48) && decide (f ≤ 6)) 0x0740
  ownOk s xs 576 64
  need (scaleBlockOk s c (field n 31 29) (scaleBlock s c xs)) 0x0740
  ownOk s (xr s c (field n 44 40)) (1024 * outBytes f) 1
  return .step ((drainLong c n (coreAt s c).r.x).run 0 16 s)

def execDrain : Nat → Nat → DWord → State → Host.Outcome State Fault Refusal := coreRow 5 0 (bits 27 0) drainEff

end Sys2Proof.Machine
end

