-- ==== Sys2Proof/Machine/Window.lean ====
section
/-! DEFINITION. The window group: feature maps, window products, WDRAIN, zero-run compression, pooling, resampling (07 R208
to R225). -/
namespace Sys2Proof.Machine

/-! ### Descriptors (07 R208, R209, R211, R212) -/

/-- A tensor descriptor. -/
structure Tensor where
  base : Nat
  h : Nat
  w : Nat
  c : Nat
  layout : Nat
  es : Nat
  rs : Nat
deriving DecidableEq, Repr

def tensorAt (s : State) (core a : Nat) : Tensor :=
  let d := ownRead s core a 16
  ⟨leAt d 0 4, leAt d 4 2, leAt d 6 2, leAt d 8 2, byteAt d 10, byteAt d 11, leAt d 12 4⟩

/-- The channel block; 0 for CI. -/
def Tensor.block (t : Tensor) : Nat := if t.layout = 1 then 16 else if t.layout = 2 then 32 else 0
/-- Channels as stored, C′ of R215. -/
def Tensor.stored (t : Tensor) : Nat := if t.block = 0 then t.c else ceilDiv t.c t.block * t.block

/-- The address of element (y, x, c). -/
def Tensor.addr (t : Tensor) (y x c : Nat) : Nat :=
  if t.block = 0 then t.base + y * t.rs + (x * t.c + c) * t.es
  else t.base + (c / t.block * t.h + y) * t.rs + (t.block * x + c % t.block) * t.es

def Tensor.formatOk (t : Tensor) : Bool :=
  decide (t.base < 2 ^ 23) && decide (1 ≤ t.h) && decide (t.h ≤ 16384) && decide (1 ≤ t.w) && decide (t.w ≤ 16384)
    && decide (1 ≤ t.c) && decide (t.c ≤ 4096) && decide (t.layout ≤ 2) && (t.es == 1 || t.es == 2 || t.es == 4)
    && decide (t.rs % t.es = 0) && decide (t.w * (if t.block = 0 then t.c else t.block) * t.es ≤ t.rs)

/-- The first byte after the map. -/
def Tensor.limit (t : Tensor) : Nat := t.addr (t.h - 1) (t.w - 1) (t.stored - 1) + t.es

/-- The checks made when an instruction names a descriptor. -/
def tensorOk (s : State) (t : Tensor) : Except Bad Unit := do
  need t.formatOk 0x0740
  need (decide (t.limit ≤ s.variant.scratchBytes)) 0x0741

/-- A window descriptor. -/
structure Wind where
  t : Tensor
  oh : Nat
  ow : Nat
  kh : Nat
  kw : Nat
  sy : Nat
  sx : Nat
  dy : Nat
  dx : Nat
  pt : Nat
  pb : Nat
  pl : Nat
  pr : Nat
  padv : Nat
deriving DecidableEq, Repr

def windAt (s : State) (core a : Nat) : Wind :=
  let d := ownRead s core a 32
  ⟨tensorAt s core a, leAt d 16 2, leAt d 18 2, byteAt d 20, byteAt d 21, byteAt d 22, byteAt d 23, byteAt d 24, byteAt d 25,
   byteAt d 26, byteAt d 27, byteAt d 28, byteAt d 29, leAt d 30 2⟩

def Wind.rangeOk (d : Wind) : Bool :=
  decide (1 ≤ d.oh) && decide (d.oh ≤ 16384) && decide (1 ≤ d.ow) && decide (d.ow ≤ 16384)
    && [d.kh, d.kw, d.sy, d.sx].all (fun v => decide (1 ≤ v) && decide (v ≤ 16))
    && [d.dy, d.dx].all (fun v => decide (1 ≤ v) && decide (v ≤ 32))

/-- OH and OW are those of R212. -/
def Wind.sizeOk (d : Wind) : Bool :=
  let fits (o h p q k di st : Nat) := decide (di * (k - 1) + 1 ≤ h + p + q) && o == (h + p + q - di * (k - 1) - 1) / st + 1
  fits d.oh d.t.h d.pt d.pb d.kh d.dy d.sy && fits d.ow d.t.w d.pl d.pr d.kw d.dx d.sx

/-- The checks of a window descriptor at X[XW]; `sized` for WMM and WPOOL. -/
def windOk (s : State) (a : Nat) (d : Wind) (sized : Bool) : Except Bad Unit := do
  ownOk s a 32 64
  need (d.rangeOk && (!sized || d.sizeOk)) 0x0740
  tensorOk s d.t

/-- PADV as an element: the low byte for ES 1. -/
def Wind.pad (d : Wind) : Nat := if d.t.es = 1 then d.padv % 256 else d.padv

/-- The input element of a tap of position `p`, or none where it is padded or the position is dead (R213, R214). -/
def Wind.tap (d : Wind) (p ky kx c : Nat) : Option Nat :=
  let y := (p / d.ow * d.sy + ky * d.dy : Int) - d.pt
  let x := (p % d.ow * d.sx + kx * d.dx : Int) - d.pl
  if d.oh * d.ow ≤ p ∨ y < 0 ∨ (d.t.h : Int) ≤ y ∨ x < 0 ∨ (d.t.w : Int) ≤ x then none
  else some (d.t.addr y.toNat x.toNat c)

def tapElem (s : State) (core : Nat) (d : Wind) (p ky kx c : Nat) : Nat :=
  match d.tap p ky kx c with
  | some a => ownLe s core a d.t.es
  | none => d.pad

/-! ### WMM and WMMT (07 R215 to R217) -/

def Wind.kTotal (d : Wind) : Nat := d.kh * d.kw * d.t.stored

/-- Tap and channel of a reduction index: (ky, kx, c). -/
def Wind.kIndex (d : Wind) (k : Nat) : Nat × Nat × Nat :=
  if d.t.block = 0 then (k / d.t.c / d.kw, k / d.t.c % d.kw, k % d.t.c)
  else
    let r := k / d.t.block
    (r / d.kw % d.kh, r % d.kw, r / d.kw / d.kh * d.t.block + k % d.t.block)

def windowLong (op : Nat) (c n : Nat) (x : List Word) (g : Nat) : Long :=
  let m := macOf op
  let b := xOf x (field n 37 33)
  let p0 := xOf x (field n 16 12)
  let k0 := xOf x (field n 16 12 + 1)
  { len := field n 32 21 + 1
    run := macRun c (field n 50 45) (bit n 44) m g (fun s =>
      let d := windAt s c (xOf x (field n 42 38))
      ⟨fun i k =>
        let (ky, kx, ch) := d.kIndex (k0 + k)
        m.aValue (bit n 43) (tapElem s c d (p0 + i) ky kx ch), bCode s c m b⟩) }

def winMatrixOk (op : Nat) (s : State) (c n : Nat) : Except Bad Unit := do
  let m := macOf op
  let t := field n 50 45
  let k := field n 32 21 + 1
  let xp := field n 16 12
  need (decide (t < 48) && (m.tables || field n 20 17 == 0) && (m.intA || !bit n 43) && decide (xp ≤ 30)) 0x0740
  formatOk s c t (bit n 44) m.tileFp
  let a := xr s c (field n 42 38)
  let d := windAt s c a
  windOk s a d true
  need (d.t.es == m.es && decide (xr s c (xp + 1) + k ≤ d.kTotal)) 0x0740
  if m.tables then scalesOk s (gOf s c n) k
  ownOk s (xr s c (field n 37 33)) (bBytes m k) 64

def windowEff (op : Nat) : Eff := fun c n s => do
  winMatrixOk op s c n
  let l := windowLong op c n (coreAt s c).r.x (gOf s c n)
  return .step (l.run 0 l.len s)

def execWmmI8 : Nat → Nat → DWord → State → Host.Outcome State Fault Refusal := coreRow 8 0 (bits 11 0) (windowEff 0)
def execWmmE4 : Nat → Nat → DWord → State → Host.Outcome State Fault Refusal := coreRow 8 1 (bits 11 0) (windowEff 1)
def execWmmE5 : Nat → Nat → DWord → State → Host.Outcome State Fault Refusal := coreRow 8 2 (bits 11 0) (windowEff 2)
def execWmmBf : Nat → Nat → DWord → State → Host.Outcome State Fault Refusal := coreRow 8 3 (bits 11 0) (windowEff 3)
def execWmmtI8 : Nat → Nat → DWord → State → Host.Outcome State Fault Refusal := coreRow 8 4 (bits 11 0) (windowEff 4)
def execWmmtE4 : Nat → Nat → DWord → State → Host.Outcome State Fault Refusal := coreRow 8 5 (bits 11 0) (windowEff 5)

/-! ### Zero-run compression (07 R220, R221) -/

/-- Leading zeros, at most `n`. -/
def zeroRun : Nat → Bytes → Nat
  | n + 1, b :: l => if b = 0 then zeroRun n l + 1 else 0
  | _, _ => 0

/-- Two zeros stand at the front. -/
def twoZeros : Bytes → Bool
  | a :: b :: _ => a == 0 && b == 0
  | _ => false

/-- The length of a literal: up to the next two zeros, at most `n`. -/
def literalRun : Nat → Bytes → Nat
  | n + 1, b :: l => if twoZeros (b :: l) then 0 else literalRun n l + 1
  | _, _ => 0

/-- The coding of elements; the first argument bounds the control bytes. -/
def zrcEncode : Nat → Bytes → Bytes
  | 0, _ => []
  | _, [] => []
  | n + 1, b :: l =>
    if twoZeros (b :: l) then
      let k := zeroRun 128 (b :: l)
      BitVec.ofNat 8 (0x80 + (k - 1)) :: zrcEncode n ((b :: l).drop k)
    else
      let k := 1 + literalRun 127 l
      BitVec.ofNat 8 (k - 1) :: ((b :: l).take k ++ zrcEncode n ((b :: l).drop k))

/-- Decoding of `left` elements: none where the coding ends early or goes on after them. -/
def zrcDecode : Nat → Bytes → Nat → Option Bytes
  | 0, _, _ => none
  | _ + 1, [], left => if left = 0 then some [] else none
  | n + 1, b :: l, left =>
    let k := b.toNat % 128 + 1
    if left < k then none
    else if b.toNat < 128 then
      (if l.length < k then none else (zrcDecode n (l.drop k) (left - k)).map (l.take k ++ ·))
    else (zrcDecode n l (left - k)).map (zeros k ++ ·)

/-- A whole segment, padded. -/
def segment (p0 c0 cols rows : Nat) (e : Bytes) : Bytes :=
  let z := zrcEncode e.length e
  let raw := decide (e.length ≤ z.length)
  let b := if raw then e else z
  pack [(4, p0), (2, c0), (1, cols), (1, rows), (2, b.length), (2, (e.filter (· == 0)).length), (1, b2n raw), (3, 0)]
    ++ fit (ceilDiv b.length 16 * 16) b

/-! ### WDRAIN (07 R219) -/

/-- The address of element (i, j) of a drain into a map. -/
def Tensor.drainAddr (t : Tensor) (p0 c0 i j : Nat) : Nat := t.addr ((p0 + i) / t.w) ((p0 + i) % t.w) (c0 + j)

/-- The rows of a drain into a map, from `lo` on. -/
def putRows (c : Nat) (t : Tensor) (p0 c0 lo : Nat) (rows : List (List Nat)) (s : State) : State :=
  rows.zipIdx.foldl (fun s r => r.1.zipIdx.foldl (fun s e =>
    ownWrite c (t.drainAddr p0 c0 (lo + r.2) e.2) (le t.es e.1) s) s) s

def wdrainLong (c n : Nat) (x : List Word) : Long :=
  { len := 16
    run := fun lo hi s =>
      let t := field n 50 45
      let f := field n 34 32
      let xo := field n 44 40
      let p0 := xOf x (field n 26 22)
      let c0 := xOf x (field n 26 22 + 1)
      let b := scaleBlock s c (xOf x (field n 39 35))
      let (ai, ao, s) := drainAdj c f b (lo == 0) s
      let u := drainValue (tileAt s c t) b (field n 31 29) ai ao
      let rows := (List.range (Nat.min hi b.rows - lo)).map (fun i => (List.range b.cols).map (fun j => outConvert f (u (lo + i) j)))
      let s := if bit n 27 then s else putRows c (tensorAt s c (xOf x xo)) p0 c0 lo (rows.map (fun r => r.map Converted.code)) s
      let s := if f = 5 then s else countEvents c (clipsIn rows.flatten) (nansIn rows.flatten) 0 s
      if hi = 16 then
        let s :=
          if bit n 27 then
            let e := (List.range b.rows).flatMap (fun i => (List.range b.cols).map (fun j => BitVec.ofNat 8 (outConvert f (u i j)).code))
            let g := segment p0 c0 b.cols b.rows e
            setX c xo (xOf x xo + g.length) (ownWrite c (xOf x xo) g s)
          else s
        let s := drainCounts f b u s
        if bit n 28 then clearTile c t s else s
      else s }

def wdrainEff : Eff := fun c n s => do
  let f := field n 34 32
  let xp := field n 26 22
  let xs := xr s c (field n 39 35)
  let xo := xr s c (field n 44 40)
  need (decide (field n 50 45 < 48) && decide (f ≤ 6) && decide (xp ≤ 30)) 0x0740
  ownOk s xs 576 64
  let b := scaleBlock s c xs
  need (scaleBlockOk s c (field n 31 29) b) 0x0740
  let l := wdrainLong c n (coreAt s c).r.x
  if bit n 27 then
    need (decide (f ≤ 3) && decide (xo < 2 ^ 30) && decide (xo % 16 = 0)) 0x0740
    let t := l.run 0 16 s
    ownOk s xo (xOf (coreAt t c).r.x (field n 44 40) - xo) 1
    return .step t
  else
    ownOk s xo 16 1
    let d := tensorAt s c xo
    tensorOk s d
    let p0 := xr s c xp
    let c0 := xr s c (xp + 1)
    need (d.es == outBytes f && decide (c0 + b.cols ≤ d.stored)) 0x0740
    need ((List.range b.rows).all (fun i => (List.range b.cols).all (fun j =>
      decide (d.drainAddr p0 c0 i j + d.es ≤ s.variant.scratchBytes)))) 0x0741
    return .step (l.run 0 16 s)

def execWdrain : Nat → Nat → DWord → State → Host.Outcome State Fault Refusal := coreRow 8 0x10 (bits 21 0) wdrainEff

/-! ### WPOOL and WRES (07 R223, R224) -/

/-- The element as a value, in INFMT. -/
def Wind.val (d : Wind) (s : State) (core infmt : Nat) (o : Option Nat) : Fp :=
  fmtValue infmt (match o with | some a => ownLe s core a d.t.es | none => d.pad)

/-- One pooled value. -/
def poolValue (s : State) (core : Nat) (d : Wind) (infmt : Nat) (avg incl : Bool) (p ch : Nat) : Fp :=
  let taps := (List.range (d.kh * d.kw)).map (fun k => d.tap p (k / d.kw) (k % d.kw) ch)
  let live := taps.filter Option.isSome
  if d.oh * d.ow ≤ p then (if avg then .fin false 0 0 else d.val s core infmt none)
  else if avg then
    let l := if incl then taps else live
    if l.isEmpty then .fin false 0 0
    else Fp.div (l.foldl (fun (t : Fp) o => t.add (d.val s core infmt o)) (Fp.fin false 0 0)) (ofInt l.length)
  else
    match live with
    | [] => d.val s core infmt none
    | o :: r => r.foldl (fun (t : Fp) o => t.max (d.val s core infmt o)) (d.val s core infmt o)

/-- The columns of the tile from COLS on are +0. -/
def windowTile (cols : Nat) (f : Nat → Nat → Fp) : AccTile := tileOf true (fun i j => if j < cols then r32 (f i j) else 0)

/-- The format pairing of INFMT and IN.ES. -/
def infmtOk (infmt es : Nat) : Bool := (infmt == 4 && es == 2) || (decide (infmt ≤ 3) && es == 1)

def wpoolLong (c n : Nat) (x : List Word) (s0 : State) : Long :=
  let d := windAt s0 c (xOf x (field n 42 38))
  { len := d.kh * d.kw
    run := fun _ hi s =>
      let p0 := xOf x (field n 37 33)
      let c0 := xOf x (field n 37 33 + 1)
      if hi = d.kh * d.kw then
        setTile c (field n 50 45) (windowTile (field n 32 26 + 1) (fun i j =>
          poolValue s c d (field n 25 23) (bit n 44) (bit n 43) (p0 + i) (c0 + j))) s
      else s }

/-- What WPOOL and WRES check alike. -/
def poolOk (s : State) (c n : Nat) (d : Wind) : Except Bad Unit := do
  let xp := field n 37 33
  let cols := field n 32 26 + 1
  need (decide (field n 50 45 < 48) && decide (xp ≤ 30) && decide (cols ≤ 64) && infmtOk (field n 25 23) d.t.es
    && decide (xr s c (xp + 1) + cols ≤ d.t.stored)) 0x0740

def wpoolEff : Eff := fun c n s => do
  let a := xr s c (field n 42 38)
  let d := windAt s c a
  windOk s a d true
  poolOk s c n d
  let l := wpoolLong c n (coreAt s c).r.x s
  return .step (l.run 0 l.len s)

/-- Nearest source index. -/
def nearestAt (o size out : Nat) : Nat := Nat.min (size - 1) ((2 * o + 1) * size / (2 * out))
/-- Bilinear source index in 1/256. -/
def bilinearAt (o size out : Nat) : Nat := ((2 * o + 1) * size - out) * 256 / (2 * out)

/-- One resampled value. -/
def resValue (s : State) (core : Nat) (d : Wind) (infmt : Nat) (lin : Bool) (p ch : Nat) : Fp :=
  let v (y x : Nat) := d.val s core infmt (some (d.t.addr y x ch))
  if d.oh * d.ow ≤ p then d.val s core infmt none
  else
    let oy := p / d.ow
    let ox := p % d.ow
    if lin then
      let ty := bilinearAt oy d.t.h d.oh
      let tx := bilinearAt ox d.t.w d.ow
      let y := ty / 256
      let x := tx / 256
      let y1 := Nat.min (y + 1) (d.t.h - 1)
      let x1 := Nat.min (x + 1) (d.t.w - 1)
      let part (a b y x : Nat) := (ofInt (a * b : Nat)).mul (v y x)
      ((((part (256 - tx % 256) (256 - ty % 256) y x).add (part (tx % 256) (256 - ty % 256) y x1)).add
        (part (256 - tx % 256) (ty % 256) y1 x)).add (part (tx % 256) (ty % 256) y1 x1)).scale (-16)
    else v (nearestAt oy d.t.h d.oh) (nearestAt ox d.t.w d.ow)

def wresLong (c n : Nat) (x : List Word) (s0 : State) : Long :=
  let d := windAt s0 c (xOf x (field n 42 38))
  let len := if bit n 44 then 4 else 1
  { len := len
    run := fun _ hi s =>
      let p0 := xOf x (field n 37 33)
      let c0 := xOf x (field n 37 33 + 1)
      if hi = len then
        setTile c (field n 50 45) (windowTile (field n 32 26 + 1) (fun i j =>
          resValue s c d (field n 25 23) (bit n 44) (p0 + i) (c0 + j))) s
      else s }

def wresEff : Eff := fun c n s => do
  let a := xr s c (field n 42 38)
  let d := windAt s c a
  windOk s a d false
  need ([d.kh, d.kw, d.sy, d.sx, d.dy, d.dx].all (· == 1) && [d.pt, d.pb, d.pl, d.pr].all (· == 0)) 0x0740
  poolOk s c n d
  let l := wresLong c n (coreAt s c).r.x s
  return .step (l.run 0 l.len s)

def execWpool : Nat → Nat → DWord → State → Host.Outcome State Fault Refusal := coreRow 8 0x11 (bits 22 0) wpoolEff
def execWres : Nat → Nat → DWord → State → Host.Outcome State Fault Refusal := coreRow 8 0x12 (bits 43 43 + bits 22 0) wresEff

/-! ### WUNZ (07 R222) -/

/-- The elements of a segment, and the bytes that it takes; none where it breaks R222. -/
def segmentElems (h coding : Bytes) : Option Bytes :=
  let n := byteAt h 6 * byteAt h 7
  let k := leAt h 8 2
  if !resZero h 13 3 ∨ 1 < byteAt h 12 ∨ byteAt h 6 = 0 ∨ 64 < byteAt h 6 ∨ byteAt h 7 = 0 ∨ 16 < byteAt h 7 ∨ k = 0 ∨ 1024 < k then none
  else if byteAt h 12 = 1 then (if k = n then some (coding.take k) else none)
  else zrcDecode 1025 (coding.take k) n

def wunzEff : Eff := fun c n s => do
  let a := xr s c (field n 50 46)
  let xo := xr s c (field n 45 41)
  ownOk s xo 16 1
  let d := tensorAt s c xo
  tensorOk s d
  let h := readLoc s (← reach s c a 16) 16
  let k := leAt h 8 2
  let len := 16 + ceilDiv k 16 * 16
  let p := readLoc s (← reach s c a (16 + k)) (16 + k)
  match segmentElems h (p.drop 16) with
  | none => illegal
  | some e =>
    let cols := byteAt h 6
    let p0 := leAt h 0 4
    let c0 := leAt h 4 2
    need (d.es == 1 && decide (c0 + cols ≤ d.stored)) 0x0740
    need ((List.range (byteAt h 7)).all (fun i => (List.range cols).all (fun j =>
      decide (d.drainAddr p0 c0 i j < s.variant.scratchBytes)))) 0x0741
    let s := e.zipIdx.foldl (fun s b => ownWrite c (d.drainAddr p0 c0 (b.2 / cols) (b.2 % cols)) [b.1] s) s
    return .step (setX c (field n 40 36) (a + len) s)

def execWunz : Nat → Nat → DWord → State → Host.Outcome State Fault Refusal := coreRow 8 0x18 (bits 35 0) wunzEff

end Sys2Proof.Machine
end

