-- ==== Sys2Proof/Machine/Sequence.lean ====
section
/-! DEFINITION. The sequence group: attention, heads, appends, the backward pass, translation requests (08 R227 to R249; 09
R261, R262). -/
namespace Sys2Proof.Machine

/-! ### Row statistics and masks (08 R227 to R230) -/

def yAt (s : State) (c y : Nat) : YReg := nth (coreAt s c).r.y y YReg.empty
def setY (c y : Nat) (v : YReg) (s : State) : State := modRegs c (fun r => { r with y := setNth r.y y v }) s

def minusInf : Fp := .inf true
def fzero : Fp := .fin false 0 0

/-- The value is +0 or −0. -/
def Fp.isZero : Fp → Bool
  | .fin _ 0 _ => true
  | _ => false

/-- The attention descriptor. -/
structure Attn where
  scale : Word
  mode : Nat
  klim : Nat
  bitmap : Nat
  bmpos : Nat
  pos : List Nat

def attnAt (s : State) (c a : Nat) : Attn :=
  let d := ownRead s c a 128
  ⟨BitVec.ofNat 32 (leAt d 0 4), byteAt d 4, leAt d 8 4, leAt d 12 4, leAt d 16 4, (List.range 16).map (fun i => leAt d (32 + 4 * i) 4)⟩

/-- A key position is masked for a row (R230). -/
def keyMasked (s : State) (c : Nat) (d : Attn) (i kp : Nat) : Bool :=
  let p := nth d.pos i 0
  p == max32 || (bit d.mode 0 && decide (p < kp)) || (bit d.mode 1 && decide (d.klim ≤ kp))
    || (bit d.mode 2 && decide (d.bmpos ≤ kp) && decide (kp < d.bmpos + 64) && bit (ownLe s c (d.bitmap + 8 * i) 8) (kp - d.bmpos))

/-- The descriptor at X[XD] and its bitmap (R229, R231). -/
def attnOk (s : State) (c a : Nat) : Except Bad Unit := do
  ownOk s a 128 64
  let d := attnAt s c a
  need (decide (d.mode < 8) && (if bit d.mode 2 then d.bitmap != 0 && d.bitmap % 8 == 0 else d.bitmap == 0)) 0x0740
  if bit d.mode 2 then ownOk s d.bitmap 128 8

/-- A tile range within the file. -/
def tilesOk (t n : Nat) : Bool := decide (t + n ≤ 48)

/-- Cells of a row of a tile replaced. -/
def setRow (c t i : Nat) (f : Nat → Word) (s : State) : State :=
  let a := tileAt s c t
  setTile c t (tileOf a.fp (fun r j => if r = i then f j else cell a r j)) s

/-- The states of the rows `lo` to `hi`, one after another. -/
def rowsFold (lo hi : Nat) (f : Nat → State → State) (s : State) : State := (List.range (hi - lo)).foldl (fun s i => f (lo + i) s) s

/-- P in PFMT: 0 BF16, 1 E4M3. -/
def pFmt (e4 : Bool) : Fmt := if e4 then fmtE4 else fmtBf
def pBytes (e4 : Bool) : Nat := if e4 then 1 else 2

/-! ### SSOFT (08 R232) -/

/-- A score after its scale: an unmasked one. -/
def scoreOf (t : AccTile) (d : Attn) (i j : Nat) : Fp := fp (r32 ((accFp t i j).mul (fp d.scale)))

/-- One row of SSOFT. A maximum of +Infinity makes M NaN, as R232 says in words (log 43). -/
def softRow (c n : Nat) (x : List Word) (i : Nat) (s : State) : State :=
  let y := field n 44 43
  let e4 := bit n 41
  let d := attnAt s c (xOf x (field n 32 28))
  let xp := field n 27 23
  let kpos := xOf x (xp + 1)
  let t := tileAt s c (field n 50 45)
  let r := yAt s c y
  let msk := (List.range 64).map (fun j => keyMasked s c d i (kpos + j))
  let sc := (List.range 64).map (fun j => if nth msk j false then r32 minusInf else r32 (scoreOf t d i j))
  let mo := nth r.m i 0
  let m1 := maxF mo (treeMax sc)
  let mn := if m1 = r32 (.inf false) then r32 .nan else m1
  let none_ := mn == r32 minusInf
  let a := if none_ then fp 0x3F800000 else if mo = r32 minusInf then fzero else fp (r32 (fp (r32 ((fp mo).add (fp mn).neg))).exp)
  let p := (List.range 64).map (fun j =>
    if none_ || nth msk j false then 0
    else ((pFmt e4).convert (fp (r32 (fp (r32 ((fp (nth sc j 0)).add (fp mn).neg))).exp))).code)
  let sum := treeSum (p.map (fun v => r32 ((pFmt e4).value v)))
  let l := r32 ((fp (r32 (a.mul (fp (nth r.l i 0))))).add (fp sum))
  let s := setY c y { r with
    m := setNth r.m i mn, l := setNth r.l i l
    mask := (List.range 1024).map (fun k => if k / 64 = i then nth msk (k % 64) false else nth r.mask k false) } s
  let s := if (fp mn).isNan && !(fp mo).isNan then countEvents c 0 1 0 s else s
  let b := pBytes e4
  let s := (List.range 64).foldl (fun s j => ownWrite c (xOf x xp + b * (16 * j + i)) (le b (nth p j 0)) s) s
  (List.range (field n 34 33 + 1)).foldl (fun s k =>
    let o := field n 40 35 + k
    let q := tileAt s c o
    setRow c o i (fun j => if a.isZero then 0 else r32 ((fp (cell q i j)).mul a)) s) s

def ssoftLong (c n : Nat) (x : List Word) : Long :=
  { len := 16
    run := fun lo hi s =>
      let s := if lo = 0 ∧ bit n 42 then
          (List.range (field n 34 33 + 1)).foldl (fun s k => setTile c (field n 40 35 + k) (tileOf true (fun _ _ => 0)) s)
            (setY c (field n 44 43) YReg.empty s)
        else s
      rowsFold lo hi (softRow c n x) s }

def ssoftEff : Eff := fun c n s => do
  let xp := field n 27 23
  need (decide (field n 50 45 < 48) && tilesOk (field n 40 35) (field n 34 33 + 1) && decide (xp ≤ 30)) 0x0740
  attnOk s c (xr s c (field n 32 28))
  ownOk s (xr s c xp) (1024 * pBytes (bit n 41)) 64
  return .step ((ssoftLong c n (coreAt s c).r.x).run 0 16 s)

/-! ### SPV (08 R233) -/

def spvLong (e4 : Bool) (c n : Nat) (x : List Word) : Long :=
  { len := 64
    run := fun lo hi s =>
      let t := field n 50 45
      let old := tileAt s c t
      let mask := (yAt s c (field n 44 43)).mask
      let b := pBytes e4
      let pa := xOf x (field n 42 38)
      let va := xOf x (field n 37 33)
      let p (i k : Nat) := (pFmt e4).value (ownLe s c (pa + b * (16 * k + i)) b)
      let v (k j : Nat) := (pFmt e4).value (ownLe s c (va + b * (64 * k + j)) b)
      setTile c t (tileOf true (fun i j => (List.range (hi - lo)).foldl (fun w k =>
        if nth mask (64 * i + lo + k) false then w else r32 ((fp w).add ((p i (lo + k)).mul (v (lo + k) j)))) (cell old i j))) s }

def spvEff (e4 : Bool) : Eff := fun c n s => do
  let t := field n 50 45
  need (decide (t < 48) && (tileAt s c t).fp) 0x0740
  ownOk s (xr s c (field n 42 38)) (1024 * pBytes e4) 64
  ownOk s (xr s c (field n 37 33)) (4096 * pBytes e4) 64
  return .step ((spvLong e4 c n (coreAt s c).r.x).run 0 64 s)

/-! ### SNORM (08 R234) -/

/-- The byte offset of element (i, c), in elements. -/
def normIndex (layout otn qhl i c : Nat) : Nat :=
  match layout with
  | 0 => 64 * otn * i + c
  | 1 => 16 * c + i
  | _ => 16 * (64 * otn * (i / 2 ^ (4 - qhl)) + c) + i % 2 ^ (4 - qhl)

/-- Elements from the first to after the last. -/
def normSpan (layout otn qhl : Nat) : Nat :=
  if layout = 2 then 16 * (64 * otn * 2 ^ qhl - 1) + 2 ^ (4 - qhl) else 1024 * otn

def normRow (c n : Nat) (x : List Word) (i : Nat) (s : State) : State :=
  let otn := field n 42 41 + 1
  let f := field n 33 31
  let r := yAt s c (field n 44 43)
  let l := fp (nth r.l i 0)
  let dst := xOf x (field n 40 36)
  let s := (List.range (64 * otn)).foldl (fun s ch =>
    let o := fp (cell (tileAt s c (field n 50 45 + ch / 64)) i (ch % 64))
    let v := if l.isZero then fzero else fp (r32 (o.div l))
    ownWrite c (dst + outBytes f * normIndex (field n 35 34) otn (field n 30 28) i ch) (le (outBytes f) (outConvert f v).code) s) s
  if bit n 22 then
    ownWrite c (xOf x (field n 27 23) + 4 * i)
      (le 4 (if l.isZero then r32 minusInf else r32 ((fp (nth r.m i 0)).add (fp (r32 l.ln)))).toNat) s
  else s

def snormLong (c n : Nat) (x : List Word) : Long :=
  { len := 16
    run := fun lo hi s =>
      let s := rowsFold lo hi (normRow c n x) s
      if hi = 16 ∧ bit n 21 then (List.range (field n 42 41 + 1)).foldl (fun s k => clearTile c (field n 50 45 + k) s) s else s }

def snormEff : Eff := fun c n s => do
  let otn := field n 42 41 + 1
  let f := field n 33 31
  need (tilesOk (field n 50 45) otn && decide (field n 35 34 ≤ 2) && decide (f ≤ 6) && decide (field n 30 28 ≤ 4)) 0x0740
  ownOk s (xr s c (field n 40 36)) (outBytes f * normSpan (field n 35 34) otn (field n 30 28)) 64
  if bit n 22 then ownOk s (xr s c (field n 27 23)) 64 64
  return .step ((snormLong c n (coreAt s c).r.x).run 0 16 s)

/-! ### SSTAT, SLDST, SMERGE (08 R231, R238, R239) -/

def sstatEff : Eff := fun c n s => do
  let a := xr s c (field n 48 44)
  let r := yAt s c (field n 50 49)
  ownOk s a 128 64
  return .step (ownWrite c a ((r.m ++ r.l).flatMap (fun w => le 4 w.toNat)) s)

/-- 16 words from an address. -/
def words16 (s : State) (c a : Nat) : List Word := (List.range 16).map (fun i => BitVec.ofNat 32 (ownLe s c (a + 4 * i) 4))

def sldstEff : Eff := fun c n s => do
  let a := xr s c (field n 48 44)
  ownOk s a 128 64
  return .step (setY c (field n 50 49) ⟨words16 s c a, words16 s c (a + 64), List.replicate 1024 false⟩ s)

def mergeRow (c n : Nat) (x : List Word) (i : Nat) (s : State) : State :=
  let y := field n 44 43
  let at_ := xOf x (field n 40 36)
  let r := yAt s c y
  let m := nth r.m i 0
  let pm := nth (words16 s c at_) i 0
  let pl := nth (words16 s c (at_ + 64)) i 0
  let mn := maxF m pm
  if mn = r32 minusInf then s
  else
    let weight (v : Word) := if v = r32 minusInf then fzero else fp (r32 (fp (r32 ((fp v).add (fp mn).neg))).exp)
    let a := weight m
    let b := weight pm
    let part (w : Fp) (v : Word) := if w.isZero then fzero else fp (r32 ((fp v).mul w))
    let l := r32 ((fp (r32 (a.mul (fp (nth r.l i 0))))).add (fp (r32 (b.mul (fp pl)))))
    let s := setY c y { r with m := setNth r.m i mn, l := setNth r.l i l } s
    (List.range (field n 42 41 + 1)).foldl (fun s k =>
      let o := field n 50 45 + k
      let q := tileAt s c o
      setRow c o i (fun j =>
        r32 ((part a (cell q i j)).add (part b (BitVec.ofNat 32 (ownLe s c (at_ + 128 + 4096 * k + 256 * i + 4 * j) 4))))) s) s

def smergeLong (c n : Nat) (x : List Word) : Long := { len := 16, run := fun lo hi s => rowsFold lo hi (mergeRow c n x) s }

def smergeEff : Eff := fun c n s => do
  let otn := field n 42 41 + 1
  let t := field n 50 45
  need (tilesOk t otn && (List.range otn).all (fun k => (tileAt s c (t + k)).fp)) 0x0740
  ownOk s (xr s c (field n 40 36)) (128 + 4096 * otn) 64
  return .step ((smergeLong c n (coreAt s c).r.x).run 0 16 s)

/-! ### SAPP (08 R240 to R242) -/

/-- Fraction bits of the circular functions. -/
def trigBits : Nat := 640
/-- arctan(1 ÷ k). -/
def atanInv (k : Nat) : Int :=
  (List.range 300).foldl (fun (a : Int) n => a + (if n % 2 = 0 then 1 else -1) * ((2 ^ trigBits / ((2 * n + 1) * k ^ (2 * n + 1)) : Nat) : Int)) 0
/-- π, by Machin's formula. -/
def trigPi : Int := 4 * (4 * atanInv 5 - atanInv 239)

/-- A Taylor series by twos from a first term: t, −t x² ÷ ((k+1)(k+2)), … -/
def trigSeries : Nat → Int → Int → Int → Int → Int
  | 0, _, _, _, acc => acc
  | f + 1, k, x2, t, acc =>
    let u := -(t * x2 / 2 ^ trigBits) / ((k + 1) * (k + 2))
    trigSeries f (k + 2) x2 u (acc + u)

/-- sin and cos, to be rounded once: with a sticky bit, since both are irrational at a dyadic argument other than 0. -/
def Fp.sinCos : Fp → Fp × Fp
  | .fin n m e =>
    if m = 0 then (.fin n 0 0, .fin false 1 0)
    else
      let x := signed n (scaled m e trigBits) % (2 * trigPi)
      let x := if trigPi < x then x - 2 * trigPi else x
      let x2 := x * x / 2 ^ trigBits
      let sn := trigSeries 90 1 x2 x x
      let cs := trigSeries 90 0 x2 (2 ^ trigBits) (2 ^ trigBits)
      (ofInt (2 * sn + 1) (-(trigBits : Int) - 1), ofInt (2 * cs + 1) (-(trigBits : Int) - 1))
  | _ => (.nan, .nan)

/-- The append descriptor (R241). -/
structure AppendDesc where
  dest : Nat
  kv : Nat
  rows : Nat
  seq : Nat
  layer : Nat
  group : Nat
  head : Nat
  hdim : Nat
  part : Nat
  pos0 : Nat
  tally : Nat
  loc : Nat
  freq : Nat
  zero : Bool

def appendAt (s : State) (c a : Nat) : AppendDesc :=
  let d := ownRead s c a 64
  { dest := byteAt d 0, kv := byteAt d 1, rows := byteAt d 2, seq := leAt d 4 4, layer := leAt d 8 2, group := leAt d 10 2
    head := byteAt d 12, hdim := byteAt d 13, part := byteAt d 14, pos0 := leAt d 16 4, tally := leAt d 20 2, loc := leAt d 24 4
    freq := leAt d 28 4, zero := resZero d 3 1 && resZero d 15 1 && resZero d 22 2 && resZero d 32 32 }

/-- The scaled and biased element (i, j). -/
def appValue (t : AccTile) (b : ScaleBlock) (i j : Nat) : Fp :=
  fp (r32 ((fp (r32 ((accFp t i j).mul (fp (b.scale j))))).add (fp (b.bias j))))

/-- Its rotation by position (R240). -/
def ropeValue (s : State) (c : Nat) (t : AccTile) (b : ScaleBlock) (d : AppendDesc) (i j : Nat) : Fp :=
  let f := fp (BitVec.ofNat 32 (ownLe s c (d.freq + 4 * (32 * d.part + j / 2)) 4))
  let phi := fp (r32 ((fp (r32 (ofInt (d.pos0 + i : Nat)))).mul f))
  let sc := phi.sinCos
  let sn := fp (r32 sc.1)
  let cs := fp (r32 sc.2)
  let x := appValue t b i (j / 2 * 2)
  let y := appValue t b i (j / 2 * 2 + 1)
  fp (r32 (if j % 2 = 0 then (x.mul cs).add (y.mul sn).neg else (x.mul sn).add (y.mul cs)))

/-- What an append asks of its job's geometry (log 44). -/
def appendGeomOk (g : Geom) (d : AppendDesc) (es : Nat) : Bool :=
  decide (d.layer < g.layers) && decide (d.group < g.groups) && decide (d.head < g.kvh) && d.hdim == g.hdim && g.es == es

def appendOk (s : State) (c n : Nat) (d : AppendDesc) (b : ScaleBlock) : Except Bad Unit := do
  let f := field n 34 32
  let es := outBytes f
  need (decide (2 ≤ f) && decide (f ≤ 4) && decide (d.dest ≤ 1) && decide (d.kv ≤ 1) && decide (1 ≤ d.rows) && decide (d.rows ≤ 16)
    && decide (1 ≤ d.hdim) && decide (d.hdim ≤ 4) && decide (d.part < d.hdim) && d.zero && (d.dest == 1 || d.loc == 0)
    && (bit n 31 || d.freq == 0) && b.inQp == 0xFFFF && b.outQp == 0xFFFF) 0x0740
  need (d.tally == 0xFFFF || tallyAllowed s c d.tally) 0x0742
  if bit n 31 then ownOk s d.freq (128 * d.hdim) 64
  if d.dest = 1 then ownOk s d.loc (1024 * es * (d.part + 1)) 64
  else
    match seqOf s d.seq, jobGeom s (coreAt s c).job with
    | some (_, q), some g => need (q.job == (coreAt s c).job && appendGeomOk g d es) 0x0740
    | _, _ => illegal

def sappEff : Eff := fun c n s => do
  let t := field n 50 45
  let xd := xr s c (field n 44 40)
  let xs := xr s c (field n 39 35)
  need (decide (t < 48)) 0x0740
  ownOk s xd 64 64
  ownOk s xs 576 64
  let d := appendAt s c xd
  let b := scaleBlock s c xs
  appendOk s c n d b
  if d.dest = 0 ∧ 8 ≤ dmaUsed s c then return .stay s
  else
    let f := field n 34 32
    let a := tileAt s c t
    let e := (List.range d.rows).map (fun i => (List.range 64).map (fun j =>
      outConvert f (if bit n 31 then ropeValue s c a b d i j else appValue a b i j)))
    let s := countEvents c (clipsIn e.flatten) 0 0 s
    let s := if bit n 30 then clearTile c t s else s
    let es := outBytes f
    let k := coreAt s c
    if d.dest = 1 then
      let s := e.zipIdx.foldl (fun s r => r.1.zipIdx.foldl (fun s v =>
        ownWrite c (d.loc + es * (16 * (64 * d.part + v.2) + r.2)) (le es v.1.code) s) s) s
      return .step (if d.tally = 0xFFFF then s else signalAndTake d.tally 1 s)
    else
      let a : Append :=
        { seq := d.seq, layer := d.layer, group := d.group, head := d.head, part := d.part, value := d.kv == 1
          pos0 := d.pos0, tally := d.tally, rows := e.map (fun r => r.flatMap (fun v => le es v.code)) }
      let q : WalkReq :=
        { core := c, job := k.job, step := k.step, waits := none, ask := .append a, again := ⟨BitVec.ofNat 64 n, 0, k.r.x, 0, some a⟩ }
      return .step (modWalker (c / 8) (fun w => { w with queue := w.queue ++ [q] }) s)

/-! ### SBWD and STRN (08 R245 to R247) -/

/-- Offsets of element (query, key) in the layouts that TRANS names, in elements. -/
def bwdPlaces (trans q j : Nat) : List Nat :=
  let qm := 16 * j + q
  let km := 256 * (j / 16) + 16 * q + j % 16
  match trans with
  | 0 => [qm]
  | 1 => [km]
  | _ => [qm, 1024 + km]

def bwdRow (c n : Nat) (x : List Word) (i : Nat) (s : State) : State :=
  let d := attnAt s c (xOf x (field n 38 34))
  let xp := field n 33 29
  let rec_ := xOf x xp
  let kpos := xOf x (xp + 1)
  let e4 := bit n 28
  let t := tileAt s c (field n 50 45)
  let dp := tileAt s c (field n 44 39)
  let lse := nth (words16 s c rec_) i 0
  let dd := fp (nth (words16 s c (rec_ + 64)) i 0)
  let trans := field n 27 26
  let b := pBytes e4
  (List.range 64).foldl (fun s j =>
    let dead := keyMasked s c d i (kpos + j) || lse == r32 minusInf
    let sc := scoreOf t d i j
    let p := fp (r32 (fp (r32 (sc.add (fp lse).neg))).exp)
    let dpv := if dp.fp then fp (cell dp i j) else ofInt (cell dp i j).toInt
    let g := fp (r32 (dpv.add dd.neg))
    let ds := fp (r32 ((fp (r32 (p.mul g))).mul (fp d.scale)))
    let pc := if dead then 0 else ((pFmt e4).convert p).code
    let dc := if dead then 0 else (fmtBf.convert ds).code
    (bwdPlaces trans i j).foldl (fun s o =>
      ownWrite c (xOf x (xp + 3) + 2 * o) (le 2 dc) (ownWrite c (xOf x (xp + 2) + b * o) (le b pc) s)) s) s

def sbwdLong (c n : Nat) (x : List Word) : Long :=
  { len := 16
    run := fun lo hi s =>
      let s := rowsFold lo hi (bwdRow c n x) s
      if hi = 16 ∧ bit n 25 then clearTile c (field n 44 39) (clearTile c (field n 50 45) s) else s }

def sbwdEff : Eff := fun c n s => do
  let xp := field n 33 29
  let copies := if field n 27 26 = 2 then 2 else 1
  need (decide (field n 50 45 < 48) && decide (field n 44 39 < 48) && decide (xp ≤ 28) && decide (field n 27 26 ≤ 2)) 0x0740
  attnOk s c (xr s c (field n 38 34))
  ownOk s (xr s c xp) 128 64
  ownOk s (xr s c (xp + 2)) (1024 * pBytes (bit n 28) * copies) 64
  ownOk s (xr s c (xp + 3)) (2048 * copies) 64
  return .step ((sbwdLong c n (coreAt s c).r.x).run 0 16 s)

def strnLong (c n : Nat) (x : List Word) : Long :=
  { len := 64
    run := fun lo hi s =>
      let es := if bit n 40 then 2 else 1
      let a := xOf x (field n 50 46)
      let b := xOf x (field n 45 41)
      rowsFold lo hi (fun k s => (List.range 64).foldl (fun s j =>
        ownWrite c (b + es * (64 * j + k)) (ownRead s c (a + es * (64 * k + j)) es) s) s) s }

def strnEff : Eff := fun c n s => do
  let len := 4096 * (if bit n 40 then 2 else 1)
  let a := xr s c (field n 50 46)
  let b := xr s c (field n 45 41)
  ownOk s a len 64
  ownOk s b len 64
  need (decide (a + len ≤ b) || decide (b + len ≤ a)) 0x0740
  return .step ((strnLong c n (coreAt s c).r.x).run 0 64 s)

/-! ### SXLT (09 R261, R262) -/

/-- A request record is well formed for the tile's job. -/
def xlatOk (s : State) (c : Nat) (q : Bytes) : Bool :=
  let j := (coreAt s c).job
  let inGeom := match jobGeom s j with
    | some g => decide (leAt q 4 2 < g.layers) && decide (leAt q 6 2 < g.groups)
    | none => false
  let mine := match seqOf s (leAt q 0 4) with
    | some (_, x) => x.job == j
    | none => true
  decide (byteAt q 11 ≤ 2) && decide (1 ≤ byteAt q 10) && decide (byteAt q 10 ≤ 4) && resZero q 12 4 && inGeom && mine

def sxltEff : Eff := fun c n s => do
  let a := xr s c (field n 50 46)
  ownOk s a 64 64
  let q := ownRead s c a 16
  need (xlatOk s c q) 0x0740
  let k := coreAt s c
  if 4 ≤ k.walks then return .stay s
  else
    let r : WalkReq :=
      { core := c, job := k.job, step := k.step, waits := none, ask := .translate a q
        again := ⟨BitVec.ofNat 64 n, 0, k.r.x, 0, none⟩ }
    return .step (modCore c (fun x => { x with walks := x.walks + 1 }) (modWalker (c / 8) (fun w => { w with queue := w.queue ++ [r] }) s))

def execSsoft : Nat → Nat → DWord → State → Host.Outcome State Fault Refusal := coreRow 6 0x00 (bits 22 0) ssoftEff
def execSpvBf : Nat → Nat → DWord → State → Host.Outcome State Fault Refusal := coreRow 6 0x01 (bits 32 0) (spvEff false)
def execSpvE4 : Nat → Nat → DWord → State → Host.Outcome State Fault Refusal := coreRow 6 0x02 (bits 32 0) (spvEff true)
def execSnorm : Nat → Nat → DWord → State → Host.Outcome State Fault Refusal := coreRow 6 0x03 (bits 20 0) snormEff
def execSstat : Nat → Nat → DWord → State → Host.Outcome State Fault Refusal := coreRow 6 0x04 (bits 43 0) sstatEff
def execSldst : Nat → Nat → DWord → State → Host.Outcome State Fault Refusal := coreRow 6 0x05 (bits 43 0) sldstEff
def execSmerge : Nat → Nat → DWord → State → Host.Outcome State Fault Refusal := coreRow 6 0x06 (bits 35 0) smergeEff
def execSapp : Nat → Nat → DWord → State → Host.Outcome State Fault Refusal := coreRow 6 0x07 (bits 29 0) sappEff
def execSbwd : Nat → Nat → DWord → State → Host.Outcome State Fault Refusal := coreRow 6 0x08 (bits 24 0) sbwdEff
def execStrn : Nat → Nat → DWord → State → Host.Outcome State Fault Refusal := coreRow 6 0x09 (bits 39 0) strnEff
def execSxlt : Nat → Nat → DWord → State → Host.Outcome State Fault Refusal := coreRow 6 0x0A (bits 45 0) sxltEff

/-! ### Masks (11 R341 to R344) -/

def maskUnit (s : State) (k : Nat) : MaskUnit := nth s.text.masks k ⟨[], 0, 0⟩
def modMask (k : Nat) (f : MaskUnit → MaskUnit) (s : State) : State :=
  { s with text := { s.text with masks := modNth s.text.masks k f } }

/-- GMASK: the list at X[XL], in the commons of the issuing cluster, joins the mask unit's; a fifth queued one stalls. -/
def gmaskEff : Eff := fun c n s => do
  let a := xr s c (field n 50 46)
  match ← locate s (coreAt s c).job c a 48 with
  | some (.commons k off) =>
    if k ≠ c / 8 then badAddress
    else if 5 ≤ (maskUnit s k).lists.length then return .stay s
    else return .step (modMask k (fun m => { m with lists := m.lists ++ [⟨off, c, (coreAt s c).job, 0⟩] }) s)
  | _ => badAddress

def execGmask : Nat → Nat → DWord → State → Host.Outcome State Fault Refusal := coreRow 6 0x0C (bits 45 0) gmaskEff

/-- The header of a list is in its ranges (R341). -/
def maskHeaderOk (s : State) (h : Bytes) : Bool :=
  decide (1 ≤ leAt h 0 2) && decide (leAt h 0 2 ≤ 256) && decide (leAt h 2 2 < 16384) && leAt h 4 4 == vocab s && resZero h 8 8

/-- A request is in its ranges, and its state one of its grammar's. -/
def maskRequestOk (s : State) (r : Bytes) : Bool :=
  let g := byteAt r 0
  let states := if g = 0xFF then 1 else ((Tab.find s.text.grammars g).map gStates).getD 0
  decide (1 ≤ byteAt r 1) && decide (byteAt r 1 ≤ 4) && decide (leAt r 2 2 < states) && decide (leAt r 20 4 % 64 = 0)

/-- The states after inputs 0 to k. -/
def maskStates (s : State) (r : Bytes) : List Nat :=
  ((List.range (byteAt r 1)).foldl (fun (a : Nat × List Nat) k =>
    let t := consume s (byteAt r 0) a.1 (leAt r (4 + 4 * k) 4)
    (t, a.2 ++ [t])) (leAt r 2 2, [])).2

/-- Where each row's mask goes: none where an entry is PARKED, or the faults of an address. -/
def maskPlaces (s : State) (l : MaskList) (r : Bytes) : Except Bad (List (Option Loc)) :=
  (List.range (byteAt r 1)).mapM (fun k => locate s l.job l.core (leAt r 20 4 + k * maskBytes s) (maskBytes s))

/-- MASK_REQUEST: the unit processes the next request of its first list. A faulting one writes no mask. -/
def execMaskRequest (dt cluster : Nat) (s : State) : Host.Outcome State Fault Refusal :=
  let s := advance dt s
  .next (
    match (maskUnit s cluster).lists with
    | [] => s
    | l :: _ =>
      if !awake s then s
      else
        let m := (clusterAt s cluster).commons
        let h := Memory.readN m l.offset 16
        let at_ := l.offset + 16 + 32 * l.done
        let r := Memory.readN m at_ 32
        if !maskHeaderOk s h || !maskRequestOk s r then raiseFault 0x0780 2 cluster 0 s
        else
          match maskPlaces s l r with
          | .error _ => raiseFault 0x0780 2 cluster 0 s
          | .ok places =>
            match places.find? (fun p => match p with | some q => !sramReady s (stackOf q.cluster) | none => true) with
            | some (some q) => touchSram (stackOf q.cluster) s
            | some none => s
            | none =>
              let st := maskStates s r
              let n := byteAt r 1
              let s := (places.zip st).foldl (fun s e => match e.1 with
                | some q => writeLoc q (maskOfState s (byteAt r 0) e.2) s
                | none => s) s
              let s := writeCommons cluster (at_ + 24) (st.flatMap (le 2)) s
              let s := modMask cluster (fun u =>
                { u with masksRc := sat 0xFFFF (u.masksRc + n), grammar := byteAt r 0 % 64
                         lists := if l.done + 1 = leAt h 0 2 then u.lists.drop 1 else modNth u.lists 0 (fun x => { x with done := x.done + 1 }) }) s
              let s := { s with text := { s.text with counts := modNth s.text.counts 1 (fun v => inc32 v n) } }
              (List.range n).foldl (fun s _ => signalTally (leAt h 2 2) 1 s) s)

/-- One column of SARGM for a record (VALUE, TOKEN). -/
def argStep (tok : Nat) (v : Word) (r : Word × Nat) : Word × Nat :=
  let a := fp v
  let b := fp r.1
  if bit r.2 31 || Fp.lt b a || (!Fp.lt a b && !Fp.lt b a && decide (tok < r.2 % 2 ^ 17)) then (v, tok) else r

/-- One row of SARGM: a row whose mask address is 0 takes no part. -/
def sargmRow (c am ar col : Nat) (a : AccTile) (i : Nat) (s : State) : Except Bad State :=
  let m := ownLe s c (am + 4 * i) 4
  if m = 0 then .ok s
  else do
    let l ← reach s c (m + col / 8) 8
    let mask := leNat (readLoc s l 8)
    let rec0 : Word × Nat := (BitVec.ofNat 32 (ownLe s c (ar + 8 * i) 4), ownLe s c (ar + 8 * i + 4) 4)
    let e := (List.range 64).filter (fun j => bit mask j)
    let ok := e.filter (fun j => !(fp (cell a i j)).isNan)
    let x := ok.foldl (fun r j => argStep (col + j) (cell a i j) r) rec0
    return countEvents c 0 (e.length - ok.length) 0 (ownWrite c (ar + 8 * i) (le 4 x.1.toNat ++ le 4 x.2) s)

def sargmEff : Eff := fun c n s => do
  let t := field n 50 45
  let xr_ := field n 38 34
  let am := xr s c (field n 43 39)
  let ar := xr s c xr_
  let col := xr s c (xr_ + 1)
  need (decide (t < 48) && decide (xr_ ≤ 30)) 0x0740
  need ((tileAt s c t).fp && decide (col % 64 = 0)) 0x0740
  ownOk s am 64 64
  ownOk s ar 128 64
  let s := if bit n 44 then ownWrite c ar ((List.range 16).flatMap (fun _ => le 4 0x7FC00000 ++ le 4 0x80000100)) s else s
  let r ← (List.range 16).foldlM (fun s' i => sargmRow c am ar col (tileAt s c t) i s') s
  return .step r

def execSargm : Nat → Nat → DWord → State → Host.Outcome State Fault Refusal := coreRow 6 0x0B (bits 33 0) sargmEff

end Sys2Proof.Machine
end

