-- ==== Sys2Proof/Machine/ServOps.lean ====
section
/-! DEFINITION. Counts, jobs and steps of the serving loop (10 R290, R322). -/
namespace Sys2Proof.Machine

/-- PREEMPTIONS, CORES_SAVED, RESTORES, STEPS_OVERRUN, LINES_SLOW, LINES_AMENDED, LINES_UNREAD by number. -/
def servCount (i n : Nat) (s : State) : State :=
  { s with serv := { s.serv with counts := modNth s.serv.counts i (fun v => inc32 v n) } }

def jobAt (s : State) (j : Nat) : Job := nth s.serv.jobs j Job.reset
def modJob (j : Nat) (f : Job → Job) (s : State) : State := { s with serv := { s.serv with jobs := modNth s.serv.jobs j f } }
def modStep (j k : Nat) (f : Step → Step) (s : State) : State :=
  modJob j (fun x => { x with steps := x.steps.map (fun t => if t.number = k then f t else t) }) s

end Sys2Proof.Machine
end

