-- ==== Sys2Proof/Machine/Sync.lean ====
section
/-! DEFINITION. The sync group (05 R145, R147 to R155, R160), and the tally commands of the host (05 R179). -/
namespace Sys2Proof.Machine

/-- The tally that a word names, within the tile's range (R147, R160). -/
def syncTally (s : State) (c n : Nat) : Except Bad Nat :=
  let t := if bit n 45 then xr s c (field n 50 46) else field n 44 31
  if tallyAllowed s c t && decide (t < 16384) then .ok t else .error (.fault 0x0742)

/-- The tally home's SRAM answers (14 R436). -/
def homeReady (s : State) (t : Nat) : Except Bad Unit :=
  if sramReady s (stackOf (tallyHome s t)) then .ok () else .error (.asleep (stackOf (tallyHome s t)))

def syncCount (n : Nat) : Except Bad Nat := if field n 30 15 = 0 then illegal else .ok (field n 30 15)

def tsigEff : Eff := fun c n s => do
  let k ← syncCount n
  let t ← syncTally s c n
  homeReady s t
  return .step (signalAndTake t k s)

/-- The core waits: the instruction is issued, and its entry queued at the home (R178). -/
def waitFor (c t : Nat) (ge : Bool) (v : Nat) (s : State) : State :=
  let h := tallyAt s t
  let s := setTally t (if ge then { h with geWaiters := h.geWaiters ++ [(c, v)] } else { h with waiters := h.waiters ++ [(c, v)] }) s
  modCore c (fun k => { k with state := if k.state = 2 then 3 else k.state, r := { k.r with wait := some (t, ge, v) } }) s

/-- A TRY: granted at once, or not (R149). -/
def tryTally (t k : Nat) (s : State) : Bool × State :=
  let h := tallyAt s t
  if h.waiters.isEmpty ∧ k ≤ h.count then (true, setTally t { h with count := h.count - k } s) else (false, s)

def twaitEff : Eff := fun c n s => do
  let k ← syncCount n
  let t ← syncTally s c n
  homeReady s t
  let r := tryTally t k s
  return .step (if r.1 then r.2 else waitFor c t false k s)

def ttryEff : Eff := fun c n s => do
  let k ← syncCount n
  let t ← syncTally s c n
  homeReady s t
  let r := tryTally t k s
  return .step (setX c (field n 14 10) (b2n r.1) r.2)

def twaitgeEff : Eff := fun c n s => do
  let v ← syncCount n
  let t ← syncTally s c n
  homeReady s t
  return .step (if v ≤ (tallyAt s t).count then s else waitFor c t true v s)

/-- COUNT is 0 for these operations. -/
def noCount (n : Nat) : Except Bad Unit := need (field n 30 15 == 0) 0x0740

def tsetEff : Eff := fun c n s => do
  noCount n
  let t ← syncTally s c n
  homeReady s t
  let xv := field n 14 10
  return .step (setX c xv (tallyAt s t).count (setCount t (xr s c xv) s))

def tarmEff : Eff := fun c n s => do
  noCount n
  let t ← syncTally s c n
  homeReady s t
  return .step (armTally t (xr s c (field n 14 10)) s)

def treadEff : Eff := fun c n s => do
  noCount n
  let t ← syncTally s c n
  homeReady s t
  return .step (setX c (field n 14 10) (tallyAt s t).count s)

/-- FENCE: a row of a store is the store's acknowledgement, so every earlier store has been acknowledged. -/
def fenceEff : Eff := fun _ _ s => .ok (.step s)

/-- Translations that a core waits for. -/
def translating (s : State) (c : Nat) : Bool :=
  (nth s.slab.walkers (c / 8) Walker.reset).queue.any (fun q =>
    q.core == c && (match q.ask with | .translate _ _ => true | .append _ => false))

/-- WAITU: the named units have finished; DMA covers the queue and the appends, load/store the translations (08 R237; 09
R261). The other units have finished with each row. -/
def waituEff : Eff := fun c n s =>
  if (bit n 47 && dmaUsed s c != 0) || (bit n 46 && translating s c) then .ok (.stay s) else .ok (.step s)

/-- A message of the cluster's agent, which may wait for room; a ninth that would wait stalls the core (13 R419 to R422). -/
def sendEff : Eff := fun c n s => do
  let a := xr s c (field n 50 46)
  ownOk s a 64 1
  let ch := field n 45 41
  let full := allowed s ch (0x20 + c / 8) && decide ((chanAt s ch).depth ≤ (chanAt s ch).queue.length)
  if full && decide (8 ≤ (s.cmd.waiting.filter (fun w => w.sender == 0x20 + c / 8)).length) then return .stay s
  else return .step (post (field n 45 41) (0x20 + c / 8) true (ownRead s c a 64) s)

def execTsig : Nat → Nat → DWord → State → Host.Outcome State Fault Refusal := coreRow 7 0 (bits 14 0) tsigEff
def execTwait : Nat → Nat → DWord → State → Host.Outcome State Fault Refusal := coreRow 7 1 (bits 14 0) twaitEff
def execTtry : Nat → Nat → DWord → State → Host.Outcome State Fault Refusal := coreRow 7 2 (bits 9 0) ttryEff
def execTwaitge : Nat → Nat → DWord → State → Host.Outcome State Fault Refusal := coreRow 7 3 (bits 14 0) twaitgeEff
def execTset : Nat → Nat → DWord → State → Host.Outcome State Fault Refusal := coreRow 7 4 (bits 9 0) tsetEff
def execTarm : Nat → Nat → DWord → State → Host.Outcome State Fault Refusal := coreRow 7 5 (bits 9 0) tarmEff
def execTread : Nat → Nat → DWord → State → Host.Outcome State Fault Refusal := coreRow 7 6 (bits 9 0) treadEff
def execFence : Nat → Nat → DWord → State → Host.Outcome State Fault Refusal := coreRow 7 8 (bits 50 0) fenceEff
def execWaitu : Nat → Nat → DWord → State → Host.Outcome State Fault Refusal := coreRow 7 9 (bits 45 0) waituEff
def execSend : Nat → Nat → DWord → State → Host.Outcome State Fault Refusal := coreRow 7 0x0A (bits 40 0) sendEff

/-! ### Commands (05 R179) -/

/-- CORE_STATUS. -/
def coreStatusBody (p : Packet) (s : State) : Reply :=
  let c := byteAt p.params 0
  if p.params.length ≠ 4 ∨ !resZero p.params 1 3 ∨ s.variant.clusters ≤ c then .refuse 0x0140 []
  else
    let l := (List.range 8).map (fun i => coreAt s (8 * c + i))
    .ok (l.map (fun k => BitVec.ofNat 8 k.state) ++ l.map (fun k => BitVec.ofNat 8 (if k.tile.isSome then k.job else 0xFF))) s

/-- A command on a tally touches its home (14 R436), which serves it when its SRAM is ready. -/
def touchHome (s : State) (t : Nat) : State := touchSram (stackOf (tallyHome s t)) s

/-- The ordered checks of the tally commands. -/
def tallyRefusal (s : State) (t : Nat) (rangeOk hostOnly : Bool) : Option Nat :=
  if 16383 < t then some 0x0141
  else if !rangeOk then some 0x0140
  else if hostOnly && !hostTally s t then some 0x0540
  else none

def tallyQueryBody (p : Packet) (s : State) : Reply :=
  let t := leAt p.params 0 2
  match tallyRefusal s t (p.params.length == 4 && resZero p.params 2 2) false with
  | some st => .refuse st []
  | none => .ok (tallyRecord (tallyAt s t)) (touchHome s t)

def tallySignalBody (p : Packet) (s : State) : Reply :=
  let t := leAt p.params 0 2
  match tallyRefusal s t (p.params.length == 4 && leAt p.params 2 2 != 0) true with
  | some st => .refuse st []
  | none => .ok [] (signalAndTake t (leAt p.params 2 2) (touchHome s t))

def tallyArmBody (p : Packet) (s : State) : Reply :=
  let t := leAt p.params 0 2
  match tallyRefusal s t (p.params.length == 8 && resZero p.params 2 2) true with
  | some st => .refuse st []
  | none => .ok [] (armTally t (leAt p.params 4 4) (touchHome s t))

def tallySetBody (p : Packet) (s : State) : Reply :=
  let t := leAt p.params 0 2
  match tallyRefusal s t (p.params.length == 8 && resZero p.params 2 2) true with
  | some st => .refuse st []
  | none => .ok (le 4 (tallyAt s t).count) (setCount t (leAt p.params 4 4) (touchHome s t))

def execCoreStatus : Nat → Hdr → Bytes → State → Host.Outcome State Fault Refusal := hostRow 0x0401 coreStatusBody
def execTallyQuery : Nat → Hdr → Bytes → State → Host.Outcome State Fault Refusal := hostRow 0x0402 tallyQueryBody
def execTallySignal : Nat → Hdr → Bytes → State → Host.Outcome State Fault Refusal := hostRow 0x0403 tallySignalBody
def execTallyArm : Nat → Hdr → Bytes → State → Host.Outcome State Fault Refusal := hostRow 0x0404 tallyArmBody
def execTallySet : Nat → Hdr → Bytes → State → Host.Outcome State Fault Refusal := hostRow 0x0405 tallySetBody

end Sys2Proof.Machine
end

