-- ==== Sys2Proof/Machine/Preempt.lean ====
section
/-! DEFINITION. Pre-emption, context save and restore (05 R170 to R178; 10 R303 to R306; 14 R453). -/
namespace Sys2Proof.Machine

/-! ### Long instructions by word -/

/-- The instruction of a word that a stop can leave partial, with its issue checks. -/
def longOf (c n : Nat) (x : List Word) (g : Nat) (s : State) : Option (Eff × Long) :=
  let o := field n 59 54
  match field n 63 60 with
  | 3 => if o = 0x10 then some (tloadEff, tloadLong c n x) else if o ≤ 5 then some (matrixEff o, matrixLong o c n x g) else none
  | 5 => if o = 0 then some (drainEff, drainLong c n x) else none
  | 6 =>
    match o with
    | 0x00 => some (ssoftEff, ssoftLong c n x)
    | 0x01 => some (spvEff false, spvLong false c n x)
    | 0x02 => some (spvEff true, spvLong true c n x)
    | 0x03 => some (snormEff, snormLong c n x)
    | 0x06 => some (smergeEff, smergeLong c n x)
    | 0x08 => some (sbwdEff, sbwdLong c n x)
    | 0x09 => some (strnEff, strnLong c n x)
    | _ => none
  | 8 =>
    match o with
    | 0x10 => some (wdrainEff, wdrainLong c n x)
    | 0x11 => some (wpoolEff, wpoolLong c n x s)
    | 0x12 => some (wresEff, wresLong c n x s)
    | _ => if o ≤ 5 then some (windowEff o, windowLong o c n x g) else none
  | _ => none

/-- The step at which a stop leaves a table multiply: a group's boundary (06 R195). -/
def stopStep (n g k : Nat) : Nat :=
  let o := field n 59 54
  if (field n 63 60 = 3 ∨ field n 63 60 = 8) ∧ (o = 4 ∨ o = 5) then k / gSize g * gSize g else k

/-- An instruction in progress at the stop runs up to its current step, and the rest is recorded (R170). -/
def runPart (c : Nat) (w : DWord) (k : Nat) (s : State) : State :=
  let n := w.toNat
  let x := (coreAt s c).r.x
  let g := gOf s c n
  match longOf c n x g s with
  | none => s
  | some (eff, l) =>
    match eff c n s with
    | .ok (.step _) =>
      let k := Nat.min l.len (stopStep n g k)
      let pc := (coreAt s c).r.pc + 1
      let s := goto c pc (l.run 0 k s)
      if k = l.len then s else modRegs c (fun r => { r with part := r.part ++ [⟨w, k, x, g, none⟩] }) s
    | .error (.fault st) => coreFault st c s
    | _ => s

/-- An append stands again at its walker with the rows that it had converted: the bytes are the same (08 R249). -/
def requeue (c : Nat) (p : Partial) (a : Append) (s : State) : State :=
  let k := coreAt s c
  let q : WalkReq := { core := c, job := k.job, step := k.step, waits := none, ask := .append a, again := p }
  modWalker (c / 8) (fun w => { w with queue := w.queue ++ [q] }) s

/-- A recorded instruction is finished (R175); a withdrawn append or SXLT is issued again (08 R249). -/
def finishPart (c : Nat) (p : Partial) (s : State) : State :=
  let n := p.word.toNat
  match longOf c n p.x p.g s with
  | some (_, l) => l.run p.next l.len s
  | none =>
    match p.append with
    | some a => requeue c p a s
    | none =>
    let now := (coreAt s c).r.x
    let back (t : State) := modRegs c (fun r => { r with x := now }) t
    let s := modRegs c (fun r => { r with x := p.x }) s
    match sxltEff c n s with
    | .ok (.step t) => back t
    | .ok (.jump _ t) => back t
    | .ok (.stay t) => back t
    | .error (.fault st) => coreFault st c (back s)
    | .error _ => back s

/-! ### The stop (R170, R171, R178) -/

/-- A DMA transfer's progress at its next chunk boundary (R165, R170). -/
def chunkEnd (x : DmaXfer) (n : Nat) : Nat :=
  if x.rows * x.rowBytes ≤ n then x.rows * x.rowBytes
  else n / x.rowBytes * x.rowBytes + n % x.rowBytes / 4096 * 4096

/-- The transfers of a queue reach the progress given; one that is complete signals and leaves. -/
def stopDma (c : Nat) (progress : List Nat) (s : State) : State :=
  let k := coreAt s c
  let s := modRegs c (fun r => { r with dmaq := [] }) s
  k.r.dmaq.zipIdx.foldl (fun s e =>
    let x := e.1
    let dest := Nat.max x.done (chunkEnd x (nth progress e.2 0))
    match dmaMove k.job c x dest s with
    | .ok t =>
      if dest = x.rows * x.rowBytes then (if x.tally = 0xFFFF then t else signalAndTake x.tally 1 t)
      else modRegs c (fun r => { r with dmaq := r.dmaq ++ [{ x with done := dest }] }) t
    | .error _ => modRegs c (fun r => { r with dmaq := r.dmaq ++ [x] }) s) s

/-- The requests that a walker holds for a core are withdrawn, to be issued again. -/
def withdraw (c : Nat) (s : State) : State :=
  let q := (walkerAt s (c / 8)).queue
  let mine := (q.filter (fun r => r.core == c)).map WalkReq.again
  let s := modWalker (c / 8) (fun w => { w with queue := w.queue.filter (fun r => r.core != c) }) s
  modCore c (fun k => { k with walks := 0, r := { k.r with part := k.r.part ++ mine } }) s

/-- A core's wait entry is withdrawn (R170). -/
def withdrawWait (c : Nat) (s : State) : State :=
  match (coreAt s c).r.wait with
  | some (t, _, _) =>
    let h := tallyAt s t
    setTally t { h with waiters := h.waiters.filter (fun w => w.1 != c), geWaiters := h.geWaiters.filter (fun w => w.1 != c) } s
  | none => s

/-- The charge of a context transfer (14 R453): taken where the free budget holds its minimum. -/
def contextCharge (c : Nat) (s : State) : State :=
  let top := if s.variant.half then 358 else 716
  let least := ceilDiv (par s 0x04000001) 250
  let free := budget s 4 - admitted s 4
  if holds s (.context c) then s
  else if least ≤ free ∧ admitted s 4 ≤ budget s 4 then hold 4 (Nat.min top free) (.context c) s
  else s

/-- The core map entry of a tile's LCORE (R143). -/
def setMap (j l : Nat) (v : Option Nat) (s : State) : State :=
  if l = 0xFF then s else { s with coreMaps := modNth s.coreMaps j (fun m => setNth m l v) }

/-- A core that was asked to stop has stopped: its progress is kept, and its save begins. -/
def stopNow (p : StopPoint) (s : State) : State :=
  let c := p.core
  let s := p.partials.foldl (fun s e => if (coreAt s c).state = 4 then runPart c e.1 e.2 s else s) s
  if (coreAt s c).state ≠ 4 then s
  else
    let s := withdrawWait c (withdraw c (stopDma c p.dma s))
    let k := coreAt s c
    let l := ((k.tile.map TileDesc.lcore).getD 0xFF)
    contextCharge c (setMap k.job l none (modCore c (fun k => { k with state := 5, stalled := none, stoppedAt := stamp s }) s))

/-- A job that waits for cores may take those of a tile of lower priority (10 R303). -/
def mayPreempt (s : State) (c : Nat) : Bool :=
  let pri := ((coreAt s c).tile.map TileDesc.priority).getD 0
  (List.range 16).any (fun j =>
    (jobAt s j).waitingCores.isSome && decide (jpar s j 0x07000009 ≤ jobPar s j 0x02) && decide (pri < jobPar s j 0x02)
      && bit (((jobDecl s j).map JobDecl.clusters).getD 0) (c / 8))

/-- A request meets a core. -/
def askCore (stops : List StopPoint) (c : Nat) (s : State) : State :=
  let k := coreAt s c
  let s :=
    if (k.state = 2 ∨ k.state = 3) ∧ mayPreempt s c then modCore c (fun k => { k with state := 4, askedAt := stamp s }) s
    else if k.state = 6 then modCore c (fun k => { k with heldRequest := true }) s
    else s
  match stops.find? (fun p => p.core == c) with
  | some p => if (coreAt s c).state = 4 then stopNow p s else s
  | none => s

/-- PREEMPTION_REQUEST: it reaches the cluster's agent. A core with a stop point stops with this row; one without has been asked,
and stops with a later row. -/
def execPreemptionRequest (dt cluster mask : Nat) (stops : List StopPoint) (s : State) : Host.Outcome State Fault Refusal :=
  let s := advance dt s
  .next (if awake s && decide (cluster < s.variant.clusters) then
      let cs := (bitsOf 8 mask).map (8 * cluster + ·)
      let asks := cs.any (fun c => ((coreAt s c).state == 2 || (coreAt s c).state == 3) && mayPreempt s c)
      dispatchAll (cs.foldl (fun s c => askCore stops c s) (if asks then servCount 0 1 s else s))
    else s)

/-! ### The save (R171 to R174, R176) -/

/-- The extents of a live-extent list, or none where it breaks R174. -/
def liveExtents (s : State) (d : TileDesc) : Option (List (Nat × Nat)) :=
  if field d.live 31 30 ≠ 2 ∨ field d.live 25 22 ≠ 0 ∨ s.variant.clusters ≤ field d.live 29 26 then none
  else
    let m := (clusterAt s (field d.live 29 26)).commons
    let off := d.live % 2 ^ 22
    let n := leNat (Memory.readN m off 8)
    if 16 < n then none
    else
      let l := (List.range n).map (fun i =>
        (leNat (Memory.readN m (off + 8 + 8 * i) 4), leNat (Memory.readN m (off + 12 + 8 * i) 4)))
      let ok := l.all (fun e => decide (e.1 % 64 = 0) && decide (e.2 % 64 = 0) && decide (e.1 + e.2 ≤ s.variant.scratchBytes))
      let apart := l.zipIdx.all (fun a => l.zipIdx.all (fun b =>
        a.2 == b.2 || decide (a.1.1 + a.1.2 ≤ b.1.1) || decide (b.1.1 + b.1.2 ≤ a.1.1)))
      if ok && apart then some l else none

/-- The context of a core (R172). -/
def contextOf (s : State) (c : Nat) (d : TileDesc) (l : List (Nat × Nat)) : Context :=
  let k := coreAt s c
  { kind := b2n d.liveSave, variant := s.variant.code, job := k.job, lcore := d.lcore, fromCore := c, waitGranted := k.waitGranted
    tag := k.tag, savedAt := k.stoppedAt, epoch := k.epoch, step := k.step, tile := d, regs := k.r
    extents := l.map (fun e => (e.1, ownRead s c e.1 e.2)), scratch := if d.liveSave then [] else k.scratch }

/-! ### The context block in DDR4 (05 R172; 08 R228) -/

def wordBytes (l : List Word) : Bytes := l.flatMap (fun w => le 4 w.toNat)
def wordsBytes (l : List DWord) : Bytes := l.flatMap (fun w => le 8 w.toNat)

/-- A tile descriptor as 05 R167 lays it out. -/
def descBytes (d : TileDesc) : Bytes :=
  pack [(4, d.tileId), (4, d.entry), (1, d.priority), (1, d.lcore), (1, d.coreMask), (1, b2n d.liveSave), (2, d.waitTally), (2, 0),
    (4, d.waitCount), (2, d.doneTally), (2, d.doneCount), (2, d.tallyBase), (2, d.tallyLimit), (4, d.tag)]
  ++ wordBytes d.arg ++ pack [(4, d.live), (4, 0), (8, d.ctxBase)]

def yBytes (y : YReg) : Bytes :=
  wordBytes y.m ++ wordBytes y.l
    ++ (List.range 16).flatMap (fun i => le 8 (maskOf ((List.range 64).filter (fun j => nth y.mask (64 * i + j) false))))

def predBytes (r : CoreRegs) : Bytes := le 1 (maskOf ((List.range 8).filter (fun i => nth r.p i false)))

/-- A transfer's descriptor (R164), and its bytes done. -/
def xferBytes (x : DmaXfer) : Bytes :=
  pack [(8, x.src), (8, x.dst), (4, x.rowBytes), (2, x.rows), (2, x.tally), (4, x.srcStride), (4, x.dstStride), (4, x.done)]
/-- Eight queue entries; those not in use are 0. -/
def dmaqBytes (q : List DmaXfer) : Bytes := fit 288 (q.flatMap xferBytes)

/-- An instruction word of the kind that FLAGS counts as a DRAIN or a TLOAD, and as a matrix operation. -/
def drainWord (n : Nat) : Bool :=
  (field n 63 60 == 3 && field n 59 54 == 0x10) || field n 63 60 == 5 || (field n 63 60 == 8 && field n 59 54 == 0x10)
def matrixWord (n : Nat) : Bool := (field n 63 60 == 3 || field n 63 60 == 8) && decide (field n 59 54 ≤ 5)

/-- FLAGS of a context. -/
def contextFlags (x : Context) : Nat :=
  b2n x.regs.wait.isSome + 2 * b2n x.waitGranted + 4 * b2n (!x.regs.dmaq.isEmpty)
    + 8 * b2n (x.regs.part.any (fun p => matrixWord p.word.toNat)) + 16 * b2n (x.regs.part.any (fun p => drainWord p.word.toNat))

/-- The bytes of a context block. LOOPS, ARRAY and TWAIT, whose fields the spec names without their widths, are open (log 101). -/
def contextBytes (v : Variant) (x : Context) : Bytes :=
  let o := fun off n => (List.range n).map (fun i => BitVec.ofNat 8 (Config.ctxOpen (x.tile.ctxBase + off + i) x.savedAt))
  let r := x.regs
  pack [(2, 1), (1, x.variant), (1, x.kind), (2, x.job), (1, x.lcore), (1, x.fromCore), (2, contextFlags x), (2, 0), (4, x.tag),
    (8, x.savedAt), (4, r.pc), (4, x.epoch)]
  ++ descBytes x.tile ++ wordBytes r.x ++ r.v.flatMap wordBytes ++ o 2272 64 ++ wordsBytes r.g ++ predBytes r ++ zeros 7
  ++ o 2472 32 ++ dmaqBytes r.dmaq ++ o 2792 8 ++ fit 128 (x.extents.flatMap (fun e => pack [(4, e.1), (4, e.2.length)]))
  ++ r.y.flatMap yBytes ++ zeros 144
  ++ (List.range 48).flatMap (fun t => wordBytes (Tab.get r.acc t AccTile.zero).cells)
  ++ (if x.kind = 0 then Memory.readN x.scratch 0 v.scratchBytes else x.extents.flatMap Prod.snd)

/-- The note of events 5 and 6: one for each core (log 46). -/
def contextNote (s : State) (c bytes : Nat) (x : Context) : ServNote :=
  { job := x.job, step := x.step, at_ := stamp s, cores := 2 ^ c, bytes := bytes, duration := stamp s - (coreAt s c).askedAt }

/-- CONTEXT_VALID: the header is acknowledged, and the core is idle. -/
def execContextValid (dt core : Nat) (s : State) : Host.Outcome State Fault Refusal :=
  let s := advance dt s
  .next (
    let s := if awake s && (coreAt s core).state == 5 then contextCharge core s else s
    match (coreAt s core).tile with
    | some d =>
      if !awake s || (coreAt s core).state != 5 || !holds s (.context core) then s
      else
        match (if d.liveSave then liveExtents s d else some []) with
        | none => coreFault 0x0744 core s
        | some l =>
          let x := contextOf s core d l
          let b := contextSpan s.variant x
          let s := servEvent 5 (contextNote s core b x) (servCount 1 1 s)
          let s := { s with
            ddr := Memory.writeN s.ddr d.ctxBase (contextBytes s.variant x)
            ctxs := Tab.set s.ctxs d.ctxBase x
            ctxCounts := { s.ctxCounts with saves := inc32 s.ctxCounts.saves 1, bytes := sat (2 ^ 64 - 1) (s.ctxCounts.bytes + b) } }
          let s := modCore core (fun k => { k with
            state := 1, tile := none, waitGranted := false, stalled := none
            r := { k.r with dmaq := [], part := [], wait := none } }) s
          dispatchAll (retryWaiting (giveBack (.context core) s))
    | none => s)

/-! ### The restore (R174 to R176; 10 R305) -/

/-- FORMAT of a context's block, which is 1 while the context is valid (R171). -/
def ctxFormat (s : State) (x : Context) : Nat := leNat (Memory.readN s.ddr x.tile.ctxBase 2)

/-- The refusal of a restore (R175). -/
def restoreRefusal (s : State) (core : Nat) (x : Option Context) : Option Nat :=
  if (coreAt s core).state ≠ 1 then some 0x0440
  else
    match x with
    | none => some 0x0442
    | some x =>
      if x.kind = 1 ∧ x.tag ≠ (coreAt s core).tag then some 0x0441
      else if ctxFormat s x ≠ 1 ∨ x.variant ≠ s.variant.code then some 0x0442
      else none

/-- A context may go to a core: KIND 0 within its job's clusters. -/
def mayTakeContext (s : State) (core : Nat) (x : Context) : Bool :=
  if x.kind = 1 then x.tag == (coreAt s core).tag
  else bit (((jobDecl s x.job).map JobDecl.clusters).getD 0) (core / 8)

/-- The order of restores: PRIORITY descending, then SAVED_AT ascending. -/
def restoreKey (x : Context) : Nat := (7 - x.tile.priority) * 2 ^ 64 + x.savedAt

/-- The loop restores this context onto this core now: it is the first of those that may take it, and no job that pre-empts waits
for the core. -/
def restoresNow (s : State) (core : Nat) (x : Context) : Bool :=
  mayTakeContext s core x
    && !s.ctxs.any (fun e => mayTakeContext s core e.2 && decide (restoreKey e.2 < restoreKey x))
    && !(List.range 16).any (fun j => (jobAt s j).waitingCores.isSome && decide (jpar s j 0x07000009 ≤ jobPar s j 0x02)
      && bit (((jobDecl s j).map JobDecl.clusters).getD 0) (core / 8))

/-- RESTORE: a refusal answers firmware with its status. A restore onto a dozing die wakes it first (14 R436). -/
def execRestore (dt core ctx : Nat) (s : State) : Host.Outcome State Fault Refusal :=
  let s := advance dt s
  .next (
    if !awake s || decide (s.variant.cores ≤ core) then s
    else if stackAt s (stackOf (core / 8)) != .awake then touchDie (stackOf (core / 8)) s
    else
      let x := Tab.find s.ctxs ctx
      match restoreRefusal s core x, x with
      | some st, _ => { s with cmd := { s.cmd with fwReply := le 2 st } }
      | none, some x =>
        if restoresNow s core x then
          contextCharge core (modCore core (fun k => { k with state := 6, restoring := some ctx, askedAt := stamp s }) s)
        else s
      | none, none => s)

/-- The wait of a context is issued again at the tail (R175). -/
def rewait (c : Nat) (s : State) : State :=
  match (coreAt s c).r.wait with
  | none => modCore c (fun k => { k with state := 2 }) s
  | some (t, ge, v) =>
    let s := modCore c (fun k => { k with state := 2, r := { k.r with wait := none } }) s
    if ge then (if v ≤ (tallyAt s t).count then s else waitFor c t true v s)
    else
      let r := tryTally t v s
      if r.1 then r.2 else waitFor c t false v s

/-- The saved content comes back. -/
def putContext (c : Nat) (x : Context) (s : State) : State :=
  modCore c (fun k => { k with
    job := x.job, step := x.step, epoch := x.epoch, tile := some x.tile, waitGranted := false, restoring := none, clocked := true
    r := { x.regs with part := [], wait := if x.waitGranted then none else x.regs.wait }
    scratch := if x.kind = 0 then x.scratch else x.extents.foldl (fun m e => Memory.writeN m e.1 e.2) k.scratch }) s

/-- RESTORE_COMPLETE: the core map entry is set and issue resumes. -/
def execRestoreComplete (dt core : Nat) (s : State) : Host.Outcome State Fault Refusal :=
  let s := advance dt s
  .next (
    let s := if awake s && (coreAt s core).state == 6 then contextCharge core s else s
    match (coreAt s core).restoring.bind (Tab.find s.ctxs) with
    | some x =>
      if !awake s || (coreAt s core).state != 6 || !holds s (.context core) then s
      else
        let b := contextSpan s.variant x
        let s := servEvent 6 (contextNote s core b x) (servCount 2 1 s)
        let s := { s with
          ctxs := Tab.erase s.ctxs x.tile.ctxBase
          ctxCounts := { s.ctxCounts with restores := inc32 s.ctxCounts.restores 1, bytes := sat (2 ^ 64 - 1) (s.ctxCounts.bytes + b) } }
        let s := setMap x.job x.lcore (some core) (putContext core x s)
        let s := rewait core s
        let s := x.regs.part.foldl (fun s p => finishPart core p s) s
        let s := retryWaiting (giveBack (.context core) s)
        let held := (coreAt s core).heldRequest
        dispatchAll (modCore core (fun k =>
          { k with heldRequest := false, state := if held && (k.state == 2 || k.state == 3) then 4 else k.state }) s)
    | none => s)

end Sys2Proof.Machine
end

