-- ==== Sys2Proof/Machine/Tiles.lean ====
section
/-! DEFINITION. The launch of a step: tile lists and their checks (05 R167, R168; 06 R201; 14 R441). -/
namespace Sys2Proof.Machine

/-- The descriptor of 64 bytes. -/
def tileDescOf (d : Bytes) : TileDesc where
  tileId := leAt d 0 4
  entry := leAt d 4 4
  priority := byteAt d 8
  lcore := byteAt d 9
  coreMask := byteAt d 10
  liveSave := bit (byteAt d 11) 0
  waitTally := leAt d 12 2
  waitCount := leAt d 16 4
  doneTally := leAt d 20 2
  doneCount := leAt d 22 2
  tallyBase := leAt d 24 2
  tallyLimit := leAt d 26 2
  tag := leAt d 28 4
  arg := (List.range 4).map (fun i => BitVec.ofNat 32 (leAt d (32 + 4 * i) 4))
  live := leAt d 48 4
  ctxBase := leAt d 56 8

/-- A commons address of the variant (R142). -/
def commonsOk (v : Variant) (a : Nat) : Bool :=
  field a 31 30 == 2 && decide (field a 29 26 < v.clusters) && field a 25 22 == 0

def tallyOrNone (t : Nat) : Bool := t == 0xFFFF || decide (t < 16384)

/-- A descriptor keeps the table of R167. -/
def tileOk (v : Variant) (d : Bytes) : Bool :=
  let t := tileDescOf d
  decide (byteAt d 11 ≤ 1) && resZero d 14 2 && resZero d 52 4
    && commonsOk v t.entry && decide (t.entry % 8 = 0) && decide (t.priority ≤ 7) && (t.lcore == 0xFF || decide (t.lcore < v.cores))
    && tallyOrNone t.waitTally && tallyOrNone t.doneTally && t.doneCount != 0
    && decide (t.tallyBase ≤ t.tallyLimit) && decide (t.tallyLimit < 16384)
    && (if t.liveSave then commonsOk v t.live else t.live == 0)
    && decide (t.ctxBase % 4096 = 0) && decide (t.ctxBase < 2 ^ 40)

/-- A tile list as it stands in commons: its header and descriptors, or none where it breaks R167. -/
def tileList (s : State) (cl handle step : Nat) : Option (Nat × Nat × List TileDesc) :=
  let m := (clusterAt s cl).commons
  let h := Memory.readN m handle 32
  let n := leAt h 6 2
  if 4194304 < handle + 32 ∨ leAt h 0 4 ≠ step ∨ 15 < leAt h 4 2 ∨ n = 0 ∨ 1024 < n ∨ !resZero h 12 20 ∨ 4194304 < handle + 32 + 64 * n then none
  else
    let l := (List.range n).map (fun i => Memory.readN m (handle + 32 + 64 * i) 64)
    if l.all (tileOk s.variant) then some (leAt h 4 2, leAt h 8 4, l.map tileDescOf) else none

/-- A tile joins its dispatcher's list, with its wait registered (R168). -/
def addTile (cl : Nat) (t : PendingTile) (s : State) : State :=
  let met := t.desc.waitTally == 0xFFFF || decide (t.desc.waitCount ≤ (tallyAt s t.desc.waitTally).count)
  let s := if met then s else
    let h := tallyAt s t.desc.waitTally
    setTally t.desc.waitTally { h with geWaiters := h.geWaiters ++ [(128 + cl, t.desc.waitCount)] } s
  modCluster cl (fun k => { k with tiles := k.tiles ++ [{ t with eligible := met }] }) s

/-- A dispatcher reads its list; a malformed one is fault 0x0744. -/
def readTiles (handle step cl : Nat) (s : State) : State :=
  if recovering s then s
  else
    match tileList s cl handle step with
    | none => raiseFault 0x0744 2 cl 0 s
    | some (j, ep, l) => l.foldl (fun s d => addTile cl ⟨d, j, step, ep, false⟩ s) s

/-- The job and the number of a step that starts. -/
def stepOf (sl : Slot) : Nat × Nat :=
  match sl.use with
  | .stepStart j k => (j, k)
  | _ => (0, sl.arg1)

/-- What a launch of a STEP_START does: resident content that Sleep lost comes back first; the points of the job fold; the
dispatchers read their lists. -/
def startStep (sl : Slot) (s : State) : State :=
  let (j, k) := stepOf sl
  let s := if s.pwr.reload then
      let t := reloadCommons (reloadResident (List.range 128) s)
      { t with pwr := { t.pwr with reload := false } }
    else s
  let s := modJob j (fun x => { x with stepLast := k, lastLaunch := s.clk.tb })
    (modStep j k (fun t => { t with state := 6, launch := s.clk.tb }) s)
  let s := foldAll j k s
  dispatchAll ((bitsOf 16 sl.index).foldl (fun s cl => readTiles sl.arg0 k cl s) s)

/-- The stacks of a cluster mask that are not awake. -/
def asleepStacks (s : State) (mask : Nat) : List Nat :=
  (List.range 4).filter (fun k => field mask (4 * k + 3) (4 * k) != 0 && stackAt s k != .awake)

/-- STEP_START: a die that dozes is woken first, and the launch waits for it (02 R47; 14 R436). -/
def execStepStart (dt n : Nat) (s : State) : Host.Outcome State Fault Refusal :=
  let s := advance dt s
  .next (
    match launchable s 0x04 n with
    | none => s
    | some sl =>
      match asleepStacks s sl.index with
      | [] => launch 0x04 n startStep s
      | l => l.foldl (fun s k => touchDie k s) s)

end Sys2Proof.Machine
end

