-- ==== Sys2Proof/Machine/Record.lean ====
section
/-! DEFINITION. Records: their sections, their assembly, their commit, and the slots that release them (12 R360 to R374). -/
namespace Sys2Proof.Machine

/-! ### Lines and fields of a side -/

def linesOf (s : State) (id : Nat) : List Line := sortBy Line.region (s.serv.lines.filter (fun l => l.sheet == id && l.state != 6))

/-- STATE of R364. -/
def Line.shown (l : Line) : Nat := if l.state = 4 then 0 else if l.state = 5 then 2 else 1

/-- The lines of a side in state 1, 2 or 3, by region. -/
def openLines (s : State) (id : Nat) : List Nat := ((linesOf s id).filter (fun l => l.shown == 1)).map Line.region

def Sheet.regionAt (h : Sheet) (i : Nat) : Region :=
  (h.regions.find? (fun r => r.index == i)).getD ⟨h.id, i, 0, 0xFF, 0, 0, 0, 0, 0, 0, false, false, false, 0xFFFF, 0xFFFF, 0⟩

/-! ### Text (11 R334, R335; 12 R367, R368) -/

/-- The text that a record carries for a line: none where it is unread. -/
def Line.carried (l : Line) : Bytes := if l.shown = 2 then [] else (cleanBytes l.text).flatten
/-- The tokens that a record lists for it. -/
def Line.listed (l : Line) : List Tok := if l.shown = 2 then [] else l.toks

/-- The bytes that a stretch of raw text becomes. -/
def cleanLength (marks : List Bool) : Nat := marks.foldl (fun n b => n + if b then 1 else 3) 0

/-- TOKENS entries of a line whose text starts at `off`. -/
def tokenEntries (region : Nat) : Nat → List Bool → List Tok → Bytes
  | _, _, [] => []
  | off, marks, t :: r =>
    let here := marks.take t.kept.length
    let n := cleanLength here
    pack [(4, t.token), (4, if n = 0 then max32 else off), (1, n), (1, b2n t.draft + 2 * b2n t.cut + 4 * b2n (here.any (fun b => !b))),
      (2, region), (2, t.x), (2, t.w), (4, t.logit.toNat), (4, t.step)]
    ++ tokenEntries region (off + n) (marks.drop t.kept.length) r

/-- Offsets in TEXT of pieces that stand one after another. -/
def offsets : Nat → List Nat → List Nat
  | _, [] => []
  | o, n :: r => o :: offsets (o + n) r

/-! ### Crops (12 R370) -/

/-- The retained image of a side as rows of its format: RGB888, or luma. -/
def retainedRows (s : State) (h : Sheet) (y n : Nat) : List (List Nat) :=
  ((h.rows.drop y).take n).map (fun r =>
    (if imageOut s h = 1 then rgbRow (h.ch s) h.w r else lumaRow (h.ch s) h.w r).map BitVec.toNat)

/-- Bytes of a pixel in the image's format. -/
def pixelBytes (s : State) (h : Sheet) : Nat := if imageOut s h = 1 then 3 else 1

/-- A crop is halved while it is too large: its level, width, and rows. -/
def shrink (ch limit : Nat) : Nat → Nat → Nat → List (List Nat) → Nat × Nat × List (List Nat)
  | 0, l, w, rows => (l, w, rows)
  | n + 1, l, w, rows =>
    if limit < w * rows.length * ch then shrink ch limit n (l + 1) (ceilDiv w 2) (halveRows ch w rows) else (l, w, rows)

/-- The crop of a region: header and pixels, padded. -/
def cropBytes (s : State) (h : Sheet) (r : Region) : Bytes :=
  let ch := pixelBytes s h
  let w := Nat.min r.w (h.w - r.x)
  let rows := (retainedRows s h r.y r.h).map (fun p => (p.drop (r.x * ch)).take (w * ch))
  let c := shrink ch (h.op s 0x06 * 1024) 16 0 w rows
  let px := c.2.2.flatten
  pack [(2, r.index), (1, if ch = 3 then 0x24 else 0x2A), (1, c.1), (2, c.2.1), (2, c.2.2.length), (4, px.length), (4, 0)]
    ++ fit (ceilDiv px.length 8 * 8) (px.map (BitVec.ofNat 8))

/-- The crops of unread lines, in order: once they reach 4 MiB, the rest have none. -/
def crops (s : State) (h : Sheet) : Nat → List Line → List (Nat × Option Bytes)
  | _, [] => []
  | n, l :: r =>
    if 4194304 ≤ n then (l.region, none) :: crops s h n r
    else
      let c := cropBytes s h (h.regionAt l.region)
      (l.region, some c) :: crops s h (n + c.length) r

/-! ### Sections (12 R361 to R370) -/

/-- A section: header and body, padded to 8; none where it has no entries. -/
def sectionBytes (type count : Nat) (body : Bytes) : Bytes :=
  if count = 0 then []
  else
    let n := ceilDiv body.length 8 * 8
    pack [(2, type), (2, count), (4, n)] ++ fit n body

/-- The producers of a record, with their first and last epochs (R362): TEXT where lines are carried, OUT always. -/
def producers (s : State) (h : Sheet) (lines : List Line) : List ((Nat × Nat) × (Nat × Nat)) :=
  let e := h.epochs.filter (fun e => e.1.1 != 0x08 && e.1.1 != 0x09)
  let text := if lines.isEmpty then [] else [((0x08, 0xFF), (s.cmd.deviceEpoch, s.cmd.deviceEpoch))]
  sortBy (fun e => e.1.1 * 256 + e.1.2) (e ++ text ++ [((0x09, 0xFF), (h.edge.epoch, h.edge.epoch))])

def epochBytes (e : (Nat × Nat) × (Nat × Nat)) : Bytes :=
  pack [(1, e.1.1), (1, e.1.2), (1, b2n (e.2.1 != e.2.2)), (1, 0), (4, e.2.1), (4, e.2.2)]

/-- The image of the side leaves, or has left. -/
def transmits (s : State) (h : Sheet) : Bool := imageOut s h != 0 && !h.roi
def imageFormat (s : State) (h : Sheet) : Nat := if imageOut s h = 1 then 0x24 else 0x2A
/-- FLAGS of R363. -/
def imageFlags (s : State) (h : Sheet) : Nat :=
  b2n ((h.geo.bind Geometry.theta).isNone) + 2 * b2n (imageOut s h == 0 && retains s h)

/-- The IMAGE section (R363). -/
def imageSection (s : State) (h : Sheet) : Bytes :=
  let t := transmits s h
  let th := (h.geo.bind Geometry.theta)
  let xa := match th with | some _ => roundDivI (((h.geo.map Geometry.xa).getD 0) * 256) (2 ^ 30) | none => 0
  pack [(1, if t then h.op s 0x02 else 0xFF), (1, if t then h.op s 0x03 else 0), (2, if t then h.frame else 0), (1, imageFormat s h),
    (1, imageFlags s h), (2, h.w), (4, h.edge.length), (2, twos 16 (th.getD 0)), (2, 0), (4, twos 32 xa),
    (4, h.w * h.edge.length * pixelBytes s h), (8, 0)]

/-- A LINES entry (R364). -/
def lineEntry (h : Sheet) (cs : List (Nat × Option Bytes)) (off : Nat) (l : Line) : Bytes :=
  let r := h.regionAt l.region
  let c := (cs.find? (fun e => e.1 == l.region)).map Prod.snd
  let flags := b2n l.truncated + 2 * b2n l.stopped + 4 * b2n (l.firstEpoch != l.lastEpoch) + 8 * b2n ((c.getD none).isSome)
    + 16 * b2n (c == some none) + 32 * b2n r.steered
  pack [(2, l.region), (1, l.shown), (1, flags), (2, if l.state = 5 then l.status else 0), (1, r.kind), (1, l.stopIndex.getD 0xFF),
    (2, r.x), (2, r.y), (2, r.w), (2, r.h), (2, twos 16 r.angle), (1, r.score), (1, l.surplus), (4, r.tag), (4, off),
    (4, l.carried.length), (2, l.listed.length), (2, l.stepsUsed), (2, if l.shown = 2 then 0 else replacedCount l.text),
    (2, (l.listed.filter (fun t => t.token == 0x103)).length), (1, 1 + l.cuts.length), (1, l.bound), (2, 0), (4, l.lastEpoch)]

/-- A FIELDS entry (R366). -/
def fieldEntry (amended : Bool) (off : Nat) (f : FieldValue) : Bytes :=
  pack [(2, f.field), (1, f.state), (1, b2n amended + 2 * b2n f.rules), (2, f.region), (2, f.wait), (4, off),
    (4, if f.state = 0 then f.value.length else 0), (4, f.tag), (4, f.status), (8, 0)]

/-- The thumbnail (R369): the rows handed over, at its level. -/
def thumbBytes (s : State) (h : Sheet) : Bytes :=
  let l := thumbLevel s h
  let ch := h.ch s
  let rows := pyramid ch h.w (h.rows.take h.rowsOut) l
  let w := ceilDiv h.w (2 ^ l)
  pack [(2, w), (2, rows.length), (1, l), (3, 0)] ++ rows.flatMap (lumaRow ch w)

/-- What a record says beside its side (R360). -/
structure RecordPlan where
  kind : Nat
  lines : List Line
  fields : List FieldValue
  linesPending : List Nat
  fieldsPending : List Nat
  atDeadline : Bool

/-- A record, committed at `st` under the number `no`. -/
def recordBytes (s : State) (h : Sheet) (p : RecordPlan) (no st : Nat) : Bytes :=
  let want := fun b => bit (h.op s 0x04) b
  let sheet := p.kind == 1
  let lines := if p.kind = 3 || (sheet && !want 4) then [] else p.lines
  let fields := if p.kind = 3 || (sheet && !want 5) then [] else p.fields
  let cs := if want 9 && p.kind != 3 then crops s h 0 (lines.filter (fun l => l.shown == 2)) else []
  let texts := lines.map Line.carried
  let values := fields.map (fun f => if f.state = 0 then f.value else [])
  let offs := offsets 0 ((texts ++ values).map List.length)
  let toks := (lines.zip offs).flatMap (fun e => tokenEntries e.1.region e.2 (utf8Marks e.1.text.length e.1.text) e.1.listed)
  let text := texts.flatten ++ values.flatten
  let eps := producers s h lines
  let shown := cs.filterMap Prod.snd
  let parts : List Bytes :=
    [sectionBytes 0x01 eps.length (eps.flatMap epochBytes),
     sectionBytes 0x02 1 (edgeBytes h.edge),
     if sheet && want 3 then sectionBytes 0x03 1 (imageSection s h) else [],
     sectionBytes 0x04 lines.length ((lines.zip offs).flatMap (fun e => lineEntry h cs e.2 e.1)),
     sectionBytes 0x05 fields.length ((fields.zip (offs.drop lines.length)).flatMap (fun e => fieldEntry (p.kind == 2) e.2 e.1)),
     if want 6 then sectionBytes 0x06 (lines.foldl (fun n l => n + l.listed.length) 0) toks else [],
     if p.kind = 2 || (sheet && want 7) then sectionBytes 0x07 (if text.isEmpty then 0 else 1) text else [],
     if sheet && want 8 then sectionBytes 0x08 1 (thumbBytes s h) else [],
     sectionBytes 0x09 shown.length shown.flatten]
  let body := parts.flatten
  let flags := b2n (!p.linesPending.isEmpty || !p.fieldsPending.isEmpty) + 2 * b2n (eps.any (fun e => e.2.1 != e.2.2))
    + 4 * b2n p.atDeadline + 8 * b2n h.edge.replay + 16 * b2n (lines.any (fun l => l.state == 5)) + 32 * b2n (lines.any Line.truncated)
  let hdr := pack [(1, p.kind), (1, 1), (2, flags), (4, 64 + body.length + 8), (4, h.id), (4, h.edge.replayOf), (8, h.edge.t0),
    (8, h.edge.trail), (8, st), (1, h.stream), (1, if p.kind = 2 then h.amendNo else 0), (2, if p.kind = 3 then h.dead.getD 0 else 0),
    (2, (parts.filter (fun b => b != [])).length), (2, p.linesPending.length), (2, p.fieldsPending.length), (2, 0), (4, no), (8, 0)]
  let r := hdr ++ body ++ zeros 4
  r ++ le 4 (crc32c r)

/-! ### Release slots (12 R373) -/

/-- The slot that a record is released through: its side's, or its stream's notice slot. -/
def OutRecord.group (r : OutRecord) : Nat × Nat × Nat := if r.kind = 3 then (0, r.stream, 0) else (1, r.stream, r.sheet)
def slotGroup : SlotUse → Option (Nat × Nat × Nat)
  | .recordRelease k h _ => some (1, k, h)
  | .noticeRelease k _ => some (0, k, 0)
  | _ => none

/-- The record waits for its slot, and the slot is free. -/
def wantsSlot (s : State) (r : OutRecord) : Bool :=
  r.kind != 0 && !r.launched && !s.fc.slots.any (fun e => slotGroup e.2.use == some r.group)

/-- The OUT_RELEASE of a record, with RELATIVE DUE 0. -/
def releaseSlot (s : State) (r : OutRecord) : Slot :=
  withCharge s (newSlot s (stamp s) 0x05 r.port 0x10 r.no 0 .intake
    (if r.kind = 3 then .noticeRelease r.stream r.no else .recordRelease r.stream r.sheet r.no))

/-- Every record whose slot is free takes it, in commit order. -/
def pumpReleases (s : State) : State :=
  s.out.records.foldl (fun s r => if wantsSlot s r then addSlot (releaseSlot s r) s else s) s

/-! ### Commit -/

/-- An arrival for the release check and the second deadline of a side (02 R49). -/
def recordArrives (id : Nat) (s : State) : State :=
  mapSlots (fun sl => if sl.arrival.isNone && (match sl.use with | .releaseCheck _ h => h == id | _ => false)
    then { sl with arrival := some (stamp s) } else sl) s

/-- The second deadline ends with the last amendment: cancelled, or it finds the arrival (02 R50; 10 R316). -/
def settleSecond (k id : Nat) (s : State) : State :=
  (slotsFor s (.secondDeadline k id)).foldl (fun s n =>
    match slotAt s n with
    | some sl => if handedOver s sl then modSlot n (fun x => { x with arrival := some (stamp s) }) s else freeSlot n s
    | none => s) s

/-- T of R315: the trailing-edge stamp, or the Frame End. -/
def Sheet.endStamp (s : State) (h : Sheet) : Nat := if h.ip s 0x00 = 0 then h.edge.trail else h.closedAt

/-- The second deadline is posted, where the record leaves anything pending (10 R315; 12 R371). -/
def postSecond (h : Sheet) (pending : Bool) (s : State) : State :=
  if pending && (slotsFor s (.secondDeadline h.stream h.id)).isEmpty then
    addSlot (newSlot s (h.endStamp s + par s 0x07000008) 0x06 3 0x10 h.id (Config.unitTally h.id % 1024) .intake
      (.secondDeadline h.stream h.id)) s
  else s

/-- Rows held for crops, and the thumbnail, are let go (12 R377). -/
def releaseRows (id : Nat) (s : State) : State :=
  modEntries (fun k => match k with | .imageRow h _ => h == id | _ => false) (fun e => { e with retained := false }) s
def releaseThumb (id : Nat) (s : State) : State :=
  modEntries (fun k => k == .thumb id) (fun e => { e with sent := true, retained := false }) s

/-- What the side keeps of the commit: the first sheet of the number that still owes the record. -/
def noteCommit (h : Sheet) (p : RecordPlan) (no st : Nat) (s : State) : State :=
  let f : Sheet → Sheet := fun x =>
    if p.kind = 3 then { x with noticed := true, linesPending := [], fieldsPending := [] }
    else { x with
      committed := if p.kind = 1 then some st else x.committed
      recordNo := if p.kind = 1 then no else x.recordNo
      amendNo := if p.kind = 2 then x.amendNo + 1 else x.amendNo
      linesPending := p.linesPending, fieldsPending := p.fieldsPending }
  let done := p.linesPending.isEmpty || p.kind == 3
  let s := { s with prep := { s.prep with sheets := s.prep.sheets.map (fun x => if x = h then f x else x) } }
  let s := { s with serv := { s.serv with lines := s.serv.lines.map (fun l =>
    if l.sheet = h.id ∧ p.kind ≠ 3 ∧ l.shown ≠ 1 then { l with recorded := true } else l) } }
  let s := if p.kind = 1 then postSecond h (!p.linesPending.isEmpty || !p.fieldsPending.isEmpty) (recordArrives h.id s) else s
  let s := if p.kind = 2 && p.linesPending.isEmpty && p.fieldsPending.isEmpty then settleSecond h.stream h.id s else s
  let s := if p.kind = 3 then dropSlots (sideSlot h.id) s else s
  let s := if p.kind = 2 then s else releaseThumb h.id s
  if done then releaseRows h.id s else s

/-- A record that finds no room waits, and event 5 reports it once (12 R380). -/
def waitForRoom (h : Sheet) (kind : Nat) (s : State) : State :=
  if s.out.waiting.contains (kind, h.id) then s
  else outEvent 5 0xFF h.id 0 { s with out := { s.out with waiting := s.out.waiting ++ [(kind, h.id)] } }

/-- The number after a record's. -/
def nextNumber (n : Nat) : Nat := if max32 ≤ n then 1 else n + 1

/-- A record is committed: its bytes, its ring entry, its counts, the mirror, its release (12 R373). -/
def commitRecord (h : Sheet) (p : RecordPlan) (s : State) : State :=
  let no := s.out.nextRecord
  let st := stamp s
  let b := recordBytes s h p no st
  if par s 0x09F00002 < occupancy s + b.length then waitForRoom h p.kind s
  else
    let s := noteCommit h p no st s
    let s := putEntries [⟨.record no, b.length, false, false⟩] s
    let s := { s with out := { s.out with
      nextRecord := nextNumber no, lastRecord := no, waiting := s.out.waiting.erase (p.kind, h.id)
      sheets := if p.kind = 1 then inc32 s.out.sheets 1 else s.out.sheets
      amendments := if p.kind = 2 then inc32 s.out.amendments 1 else s.out.amendments
      notices := if p.kind = 3 then inc32 s.out.notices 1 else s.out.notices } }
    let s := if isPrimary s then mirror 5 b s else s
    let r : OutRecord :=
      { no := no, kind := p.kind, sheet := h.id, stream := h.stream, port := h.op s 0x00, vc := h.op s 0x01, commit := st, bytes := b
        launched := false, queued := false, sentBytes := 0, frame := 0, mirrored := if isPrimary s then s.twin.mseq else 0 }
    roomFreed (pumpReleases { s with out := { s.out with records := s.out.records ++ [r] } })

/-! ### Joining the record queue (12 R374) -/

/-- The first record of a side has not joined its queue. -/
def owesFirst (s : State) (h : Sheet) : Bool :=
  let held := fun k => s.out.records.any (fun r => r.sheet == h.id && r.kind == k && !r.queued)
  if h.committed.isSome then held 1 else if h.noticed then held 3 else true

/-- The sides of a stream before the one named. -/
def earlierSides (s : State) (k id : Nat) : List Sheet :=
  (s.prep.sheets.takeWhile (fun h => h.id != id)).filter (fun h => h.stream == k)

/-- ORDERED, as the record's side has it. -/
def orderedOut (s : State) (r : OutRecord) : Bool :=
  match sheetAt s r.sheet with
  | some h => h.op s 0x07 == 1
  | none => opar s r.stream 0x07 == 1

/-- The record may join its queue: after the side's earlier records, and with ORDERED after the previous sides' first ones. -/
def mayJoin (s : State) (r : OutRecord) : Bool :=
  r.launched && !r.queued
    && !(s.out.records.takeWhile (fun x => x != r)).any (fun x => x.kind != 0 && x.sheet == r.sheet && x.stream == r.stream && !x.queued)
    && (r.kind == 2 || !orderedOut s r || !(earlierSides s r.stream r.sheet).any (owesFirst s))

/-- Records that may join their queues do so, each at the queue's end. -/
def pumpJoins : Nat → State → State
  | 0, s => s
  | n + 1, s =>
    match s.out.records.find? (mayJoin s) with
    | some r => pumpJoins n { s with out := { s.out with records := s.out.records.erase r ++ [{ r with queued := true }] } }
    | none => s

def joinAll (s : State) : State := pumpJoins s.out.records.length s

/-! ### The end of a side -/

/-- Nothing more is owed for the side, and nothing of it is held anywhere. -/
def Sheet.finished (s : State) (h : Sheet) : Bool :=
  (if h.dead.isSome then h.noticed else h.recorded && !h.reading && (decide (h.rows.length ≤ h.rowsOut)))
    && !(streamAt s h.stream).side.any (fun d => d.edge.sheet == h.id)
    && !s.prep.samples.any (fun x => x.sheet == h.id)
    && !s.prep.batches.any (fun b => b.slots.any (fun x => x.sample.any (fun y => y.sheet == h.id)))
    && !s.out.records.any (fun r => r.kind != 0 && r.sheet == h.id && !r.queued)
    && !s.out.ports.any (fun p => p.rows.any (fun r => r.sheet == h.id) || p.frames.any (fun f => f.sheet == h.id))

/-- Sides that are finished leave, with their lines and their unused augmentation records (04 R126). -/
def sweepSheets (s : State) : State :=
  let gone := s.prep.sheets.filter (fun h => h.finished s)
  if gone.isEmpty then s
  else
    let ids := gone.map Sheet.id
    let aug := s.prep.aug.filter (fun a => ids.contains a.sheet)
    { s with
      prep := { s.prep with
        sheets := s.prep.sheets.filter (fun h => !gone.contains h)
        aug := s.prep.aug.filter (fun a => !ids.contains a.sheet)
        augUnused := inc32 s.prep.augUnused aug.length }
      serv := { s.serv with lines := s.serv.lines.filter (fun l => !ids.contains l.sheet || lineOpen l) } }

end Sys2Proof.Machine
end

