-- ==== Sys2Proof/Machine/Transmit.lean ====
section
/-! DEFINITION. The transmit ports, OUT_RELEASE, OUT_HOLD_N and OUT_STATUS (12 R355 to R359, R373 to R384; 15 R471, R488), and
RECORD_COMMIT (12 R371, R372). -/
namespace Sys2Proof.Machine

/-! ### Release (12 R373, R374; 15 R471, R488) -/

def recordNo (s : State) (n : Nat) : Option OutRecord := s.out.records.find? (fun r => r.kind != 0 && r.no == n)

/-- The release does not wait for the standby's acknowledgement. -/
def ackFree (s : State) (r : OutRecord) : Bool := s.twin.state != 1 || decide (r.mirrored ≤ s.twin.acked)

/-- The fault flag stands, and the record was committed after it. -/
def faultedRecord (s : State) (r : OutRecord) : Bool :=
  match s.flt.recovery with
  | some x => r.kind != 3 && decide (x.at_ < r.commit)
  | none => false

/-- The charge of a release passes from its slot to its record. -/
def keepCharge (slot no : Nat) (s : State) : State :=
  { s with pwr := { s.pwr with charges := s.pwr.charges.map (fun c =>
    if c.holder = .outRelease slot then { c with holder := .outRelease (4096 + no) } else c) } }

/-- What the launch of an OUT_RELEASE does. -/
def releaseRecord (n : Nat) (sl : Slot) (s : State) : State :=
  match recordNo s sl.arg0 with
  | none => giveBack (.outRelease n) s
  | some r =>
    if faultedRecord s r then
      let s := giveBack (.outRelease n) s
      { s with out := { s.out with
          records := s.out.records.erase r, ring := s.out.ring.filter (fun e => e.kind != .record r.no) } }
    else
      joinAll (keepCharge n r.no { s with out := { s.out with
        records := s.out.records.map (fun x => if x = r then { x with launched := true } else x) } })

/-- OUT_RELEASE (12 R373): while the partner is ready, not before the standby has acknowledged the record. -/
def execOutRelease (dt n : Nat) (s : State) : Host.Outcome State Fault Refusal :=
  let s := advance dt s
  .next (
    match slotAt s n with
    | some sl =>
      if (match recordNo s sl.arg0 with | some r => ackFree s r | none => true) then
        sweepSheets (refreshHigh (pumpReleases (launch 0x05 n (releaseRecord n) s)))
      else s
    | none => s)

/-! ### Packets (12 R355 to R359, R375) -/

/-- Parameters of a transmit port. -/
def tpar (s : State) (p n : Nat) : Nat := par s (0x09E00000 + p * 0x100 + n)

/-- The least time on the lanes of a long packet's payload, header and CRC, in ns (log 53). -/
def packetNs (s : State) (p len : Nat) : Nat := ceilDiv (8000 * (len + 6)) (tpar s p 0x01 * tpar s p 0x02)

/-- OUT_HOLD_N does not hold a packet back (12 R381). -/
def notHeld (s : State) : Bool := match s.out.hold with | some t => decide (s.clk.tb ≤ t + 2000) | none => true

/-- A packet may start: neither held, nor in the way of a time mark (12 R375). -/
def mayStart (s : State) (p len : Nat) : Bool :=
  notHeld s && s.fc.slots.all (fun e => !(e.2.cls == 0x0B && e.2.index == p && decide (e.2.now < s.clk.tb + packetNs s p len + 24)))

/-- What a port sends next. -/
inductive Send where
  | mark (m : Mark)
  | record (r : OutRecord)
  | frameEnd (f : OpenFrame)
  | row (r : OutRow)
  | nothing
deriving DecidableEq, Repr

/-- An image frame whose last row has left, or whose side has ended with none of its rows left to send (log 54). -/
def endsNow (s : State) (p : TxPort) (f : OpenFrame) : Bool :=
  f.ended || ((match sheetAt s f.sheet with | some h => h.dead.isSome | none => true) && !p.rows.any (fun r => r.sheet == f.sheet))

/-- The order of R359. -/
def nextSend (s : State) (p : Nat) : Send :=
  let t := nth s.out.ports p TxPort.reset
  match t.marks with
  | m :: _ => .mark m
  | [] =>
    match s.out.records.find? (fun r => r.queued && r.port == p) with
    | some r => .record r
    | none =>
      match t.frames.find? (endsNow s t) with
      | some f => .frameEnd f
      | none =>
        match sortBy (fun r => r.at_ * 16 + r.stream) t.rows with
        | r :: _ => .row r
        | [] => .nothing

/-- A packet starts. -/
def startPacket (p : Nat) (k : TxPacket) (s : State) : State :=
  modTx p (fun t => { t with
    inFlight := some k, packetsRc := sat 0xFFFF (t.packetsRc + 1), bytesSent := t.bytesSent + k.payload.length }) s

def recordType (kind : Nat) : Nat := if kind = 1 then 0x30 else if kind = 2 then 0x31 else if kind = 3 then 0x32 else 0x35

def modRecord (r : OutRecord) (f : OutRecord → OutRecord) (s : State) : State :=
  { s with out := { s.out with records := s.out.records.map (fun x => if x = r then f x else x) } }

/-- The highest record number sent so far, for the twin (15 R486). -/
def noteSent (no : Nat) (s : State) : State :=
  if s.twin.lastSent = 0 ∨ earlier s.twin.lastSent no then
    let s := { s with twin := { s.twin with lastSent := no } }
    if isPrimary s then mirror 6 (le 4 no) s else s
  else s

/-- A record, or an item of the mirror, has left. -/
def recordLeft (r : OutRecord) (s : State) : State :=
  let s := { s with out := { s.out with
    records := s.out.records.erase r
    lastSent := if r.kind = 0 then s.out.lastSent else r.no
    ring := s.out.ring.map (fun e => if e.kind = (if r.kind = 0 then EntryKind.twin r.mirrored else .record r.no) then { e with sent := true } else e) } }
  let s := modTx r.port (fun t => { t with framesSent := inc32 t.framesSent 1 }) s
  let s := if r.kind = 0 then s else noteSent r.no (giveBack (.outRelease (4096 + r.no)) s)
  roomFreed (joinAll s)

/-- The next packet of a record frame. -/
def sendRecord (p : Nat) (r : OutRecord) (s : State) : State :=
  let t := s.clk.tb
  if r.frame = 0 then
    let f := nextFrame s p r.vc
    let s := modTx p (fun x => { x with numbers := Tab.set x.numbers r.vc f, packetBytes := par s (0x09E00004 + p * 0x100) }) s
    startPacket p ⟨0x00, r.vc, le 2 f, t⟩ (modRecord r (fun x => { x with frame := f }) s)
  else if r.sentBytes < r.bytes.length then
    let b := (r.bytes.drop r.sentBytes).take (nth s.out.ports p TxPort.reset).packetBytes
    startPacket p ⟨recordType r.kind, r.vc, b, t⟩ (modRecord r (fun x => { x with sentBytes := x.sentBytes + b.length }) s)
  else recordLeft r (startPacket p ⟨0x01, r.vc, le 2 r.frame, t⟩ s)

/-- IMAGE_HDR (12 R363). -/
def imageHeader (s : State) (r : OutRow) : Bytes :=
  match sheetAt s r.sheet with
  | some h => pack [(4, h.id), (1, h.stream), (1, imageFormat s h), (2, imageFlags s h), (2, h.w), (2, 0), (8, h.edge.t0),
      (4, h.edge.epoch), (8, 0)]
  | none => zeros 32

/-- The next packet of an image frame. -/
def sendRow (p : Nat) (r : OutRow) (s : State) : State :=
  let t := s.clk.tb
  match (nth s.out.ports p TxPort.reset).frames.find? (fun f => f.sheet == r.sheet) with
  | none =>
    let n := ((sheetAt s r.sheet).map Sheet.frame).getD 0
    startPacket p ⟨0x00, r.vc, le 2 n, t⟩ (modTx p (fun x => { x with frames := x.frames ++ [⟨r.sheet, r.vc, n, false, false⟩] }) s)
  | some f =>
    if !f.header then
      startPacket p ⟨0x34, r.vc, imageHeader s r, t⟩
        (modTx p (fun x => { x with frames := x.frames.map (fun g => if g = f then { g with header := true } else g) }) s)
    else
      let s := startPacket p ⟨r.format, r.vc, r.bytes, t⟩ (modTx p (fun x => { x with
        rows := x.rows.erase r
        frames := x.frames.map (fun g => if g = f then { g with ended := r.last } else g) }) s)
      roomFreed (modEntries (fun k => k == .imageRow r.sheet r.row) (fun e => { e with sent := true }) s)

/-- A time mark leaves (12 R375): one that starts more than 24 ns after its launch is late. -/
def sendMark (p : Nat) (m : Mark) (s : State) : State :=
  let t := s.clk.tb
  let late := decide (m.launched + 24 < t)
  let b := pack [(4, m.marker), (1, p), (1, b2n late), (2, m.slot), (8, m.due), (8, t)]
  let s := startPacket p ⟨0x33, tpar s p 0x05, b, t⟩ (modTx p (fun x => { x with marks := x.marks.erase m }) s)
  if late then outEvent 6 p 0 0 (countLate { s with out := { s.out with marksLate := inc32 s.out.marksLate 1 } }) else s

/-- The payload length of what would start. -/
def sendLength (s : State) (p : Nat) : Send → Nat
  | .record r => Nat.min (r.bytes.length - r.sentBytes) (nth s.out.ports p TxPort.reset).packetBytes
  | .row r => r.bytes.length
  | _ => 0

/-- A port at a packet boundary. -/
def transmit (p : Nat) (s : State) : State :=
  let s := modTx p (fun t => { t with inFlight := none }) s
  let x := nextSend s p
  match x with
  | .mark m => if notHeld s then sendMark p m s else s
  | .nothing => s
  | .record r => if mayStart s p (sendLength s p x) then sweepSheets (sendRecord p r s) else s
  | .row r => if mayStart s p (sendLength s p x) then sendRow p r s else s
  | .frameEnd f =>
    if mayStart s p 0 then
      sweepSheets (startPacket p ⟨0x01, f.vc, le 2 f.number, s.clk.tb⟩
        (modTx p (fun t => { t with frames := t.frames.erase f, framesSent := inc32 t.framesSent 1 }) s))
    else s

/-- TRANSMIT_PACKET (12 R359). -/
def execTransmitPacket (dt p : Nat) (s : State) : Host.Outcome State Fault Refusal :=
  let s := advance dt s
  .next (if awake s && decide (p < s.variant.txPorts) then transmit p s else s)

/-! ### OUT_HOLD_N and OUT_STATUS (12 R381, R384, R385) -/

/-- OUT_HOLD_N falls. -/
def execOutHoldFall (dt : Nat) (s : State) : Host.Outcome State Fault Refusal :=
  let s := advance dt s
  .next (if !s.pins.outHold then s
    else
      let s := { s with pins := { s.pins with outHold := false } }
      if awake s then outEvent 3 0xFF 0 0 { s with out := { s.out with hold := some s.clk.tb } } else s)

/-- OUT_HOLD_N rises. -/
def execOutHoldRise (dt : Nat) (s : State) : Host.Outcome State Fault Refusal :=
  let s := advance dt s
  .next (if s.pins.outHold then s
    else
      let s := { s with pins := { s.pins with outHold := true } }
      if awake s then outEvent 4 0xFF 0 0 { s with out := { s.out with hold := none } } else s)

/-- Records in a port's queue. -/
def recordsQueued (s : State) (p : Nat) : Nat := (s.out.records.filter (fun r => r.queued && r.kind != 0 && r.port == p)).length
def rowsQueued (s : State) (p : Nat) : Nat := (nth s.out.ports p TxPort.reset).rows.length

/-- OUT_STATUS. -/
def outStatusBody (p : Packet) (s : State) : Reply :=
  if p.params ≠ [] then .refuse 0x0190 []
  else
    let port := fun (i : Nat) => ([(2, sat 0xFFFF (recordsQueued s i)), (2, sat 0xFFFF (rowsQueued s i)), (4, 0)] : List (Nat × Nat))
    .ok (pack ([(8, occupancy s), (1, b2n s.out.high), (1, b2n (!s.pins.outHold)), (2, 0)] ++ port 0 ++ port 1
      ++ [(4, s.out.lastRecord), (4, s.out.lastSent)])) s

def execOutStatus : Nat → Hdr → Bytes → State → Host.Outcome State Fault Refusal := hostRow 0x0901 outStatusBody

/-! ### RECORD_COMMIT (10 R313, R316; 12 R371, R372) -/

/-- The side's sheet record may be committed: everything of it has been found and cut, and no line waits or decodes. -/
def sheetRecordDue (s : State) (h : Sheet) : Bool :=
  h.alive && h.committed.isNone && (h.checkHit.isSome || (h.whole && h.listDone && h.asked.all h.cut.contains))
    && !(linesOf s h.id).any (fun l => l.state == 1 || l.state == 2)

/-- The sheet record, with the fields that the field model gives. -/
def sheetPlan (s : State) (h : Sheet) (fields : List FieldValue) : RecordPlan where
  kind := 1
  lines := linesOf s h.id
  fields := sortBy FieldValue.field fields
  linesPending := openLines s h.id
  fieldsPending := (fields.filter (fun f => f.state == 1)).map FieldValue.field
  atDeadline := h.checkHit.isSome

/-- The lines that have ended since the side's last record. -/
def newlyEnded (s : State) (id : Nat) : List Line := (linesOf s id).filter (fun l => l.shown != 1 && !l.recorded)

/-- An amendment: what has changed since the last record. -/
def amendPlan (s : State) (h : Sheet) (fields : List FieldValue) : RecordPlan :=
  let ended := fields.filter (fun f => f.state != 1 && h.fieldsPending.contains f.field)
  { kind := 2, lines := newlyEnded s h.id, fields := sortBy FieldValue.field ended, linesPending := openLines s h.id
    fieldsPending := h.fieldsPending.filter (fun f => !ended.any (fun e => e.field == f)), atDeadline := false }

/-- Event 3 for each line that an amendment reads (10 R316). -/
def amendEvents (l : List Line) (s : State) : State :=
  l.foldl (fun s x => if x.state = 4 then
    servEvent 3 { job := x.job, at_ := x.completion.getD 0, sheet := x.sheet, region := x.region, bucket := x.bucket, used := x.stepsUsed,
                  tokens := x.toks.length } (servCount 5 1 s) else s) s

/-- The amendment of a side, if there is anything to say. -/
def commitAmendment (h : Sheet) (fields : List FieldValue) (s : State) : State :=
  let p := amendPlan s h fields
  if p.lines.isEmpty && p.fields.isEmpty then s
  else
    let t := commitRecord h p s
    if t.out.lastRecord = s.out.lastRecord then t else amendEvents p.lines t

/-- Fields still pending end unfilled where the second deadline has passed (10 R317). -/
def unfilled (h : Sheet) (fields : List FieldValue) : List FieldValue :=
  if h.secondHit.isNone then fields
  else fields ++ (h.fieldsPending.filter (fun f => !fields.any (fun x => x.field == f))).map (fun f => ⟨f, 2, false, 0xFFFF, 0xFFFF, [], 0, 0⟩)

/-- RECORD_COMMIT: a sheet record, an amendment, or a notice. -/
def execRecordCommit (dt kind id : Nat) (fields : List FieldValue) (s : State) : Host.Outcome State Fault Refusal :=
  let s := advance dt s
  .next (if !awake s then s
    else if kind = 3 then
      (match s.prep.sheets.find? (fun h => h.id == id && h.dead.isSome && !h.noticed) with
       | some h => sweepSheets (commitRecord h ⟨3, [], [], [], [], false⟩ s)
       | none => s)
    else
      match sheetAt s id with
      | none => s
      | some h =>
        if kind = 1 then (if sheetRecordDue s h then commitRecord h (sheetPlan s h fields) s else s)
        else if kind = 2 ∧ h.alive ∧ h.committed.isSome then commitAmendment h (unfilled h fields) s
        else s)

end Sys2Proof.Machine
end

