-- ==== Sys2Proof/Machine/Serving.lean ====
section
/-! DEFINITION. The serving loop: lines, joins, builds, acceptance, budgets and deadlines, learning targets, SERV commands
(10 R284 to R326; 11 R345 to R350). -/
namespace Sys2Proof.Machine

/-! ### Lines -/

def lineOfHandle (s : State) (h : Nat) : Option Line := s.serv.lines.find? (fun l => l.handle == h && l.handle != 0)

def modLine (l : Line) (f : Line → Line) (s : State) : State :=
  { s with serv := { s.serv with lines := s.serv.lines.map (fun x => if x.sheet = l.sheet ∧ x.region = l.region then f x else x) } }

def lineAt (s : State) (id region : Nat) : Option Line := s.serv.lines.find? (fun l => l.sheet == id && l.region == region)

/-- The lines of a job in a state. -/
def laneOf (s : State) (j st : Nat) : List Line := s.serv.lines.filter (fun l => l.job == j && l.state == st)

/-- What an event says of a line. -/
def lineNote (l : Line) (status step st cause : Nat) : ServNote :=
  { job := l.job, status := status, step := step, at_ := st, sheet := l.sheet, region := l.region, bucket := l.bucket, cause := cause,
    used := l.stepsUsed, tokens := l.toks.length }

/-- The bucket of an encoder draft of `e` tokens (R299). -/
def bucketOf (draft : Bool) (e : Nat) : Nat :=
  if !draft then 7 else if e ≤ 8 then 0 else Nat.min 6 ((if 2 ^ Nat.log2 e = e then Nat.log2 e else Nat.log2 e + 1) - 3)

/-- A line's value enters its bucket's window (R310). -/
def enterWindow (j b v : Nat) (s : State) : State :=
  let n := jpar s j 0x07000005
  modJob j (fun x => { x with windows := modNth x.windows b (fun w => (v :: w).take n) }) s

/-- The SRC entry of a position (R300): a token. -/
def putSource (q : Seq) (pos tok : Nat) (s : State) : State :=
  if bit q.flags 1 then s else { s with ddr := Memory.writeN s.ddr (q.src + 8 * pos) (le 8 (2 ^ 62 + tok)) }

def setPriority (h p : Nat) (s : State) : State :=
  match seqOf s h with
  | some (i, _) => modSeq i (fun q => { q with priority := p }) s
  | none => s

def closeHandle (h : Nat) (s : State) : State :=
  match seqOf s h with
  | some (i, q) => if q.state = 1 then closeSeq i q s else s
  | none => s

/-- A line's deadline is cancelled, or finds the arrival `st` (02 R50). -/
def cancelDeadline (h st : Nat) (s : State) : State :=
  (slotsFor s (.lineDeadline h)).foldl (fun s n =>
    match slotAt s n with
    | some sl => if handedOver s sl then modSlot n (fun x => { x with arrival := some st }) s else freeSlot n s
    | none => s) s

/-- The grammar and the stop set that a line takes (11 R345): by its region's (KIND, TAG), by (KIND, 0xFFFF), or none. -/
def bindingFor (s : State) (l : Line) : Nat × Nat :=
  let r := ((sheetAt s l.sheet).map (fun h => h.regionAt l.region)).getD ⟨0, 0, 0, 0xFF, 0, 0, 0, 0, 0, 0, false, false, false, 0, 0, 0⟩
  match bindingOf s.text.bindings (r.kind, r.tag % 65536) with
  | some b => b
  | none => (bindingOf s.text.bindings (r.kind, 0xFFFF)).getD (0xFF, 0xFF)

def initialState (s : State) (g : Nat) : Nat := if g = 0xFF then 0 else gInitial (Tab.get s.text.grammars g [])

/-- What a line fixes as it begins to decode: bucket, grammar and stop set. -/
def fixLine (s : State) (l : Line) : Line :=
  let b := bindingFor s l
  { l with
    bucket := bucketOf (((jobDecl s l.job).map JobDecl.encoderDraft).getD false) l.encoder.length
    bound := b.1, grammar := b.1, gstate := initialState s b.1, startInput := true
    stops := if b.2 = 0xFF then [] else Tab.get s.text.stops b.2 [] }

/-- A line moves to the slow lane (R309 to R311): event 2 with its cause (1 budget, 2 line deadline, 3 release check). -/
def moveSlow (l : Line) (cause step st : Nat) (s : State) : State :=
  let was := l.state
  let s := if was = 2 then cancelDeadline l.handle st (enterWindow l.job l.bucket l.budget s) else s
  let s := setPriority l.handle (jpar s l.job 0x07000006) s
  let s := modLine l (fun x => { (if was = 1 then fixLine s x else x) with state := 3, movedAt := s.clk.tb }) s
  servEvent 2 (lineNote l 0 step st cause) (servCount 4 1 s)

/-! ### Drafts (R293) -/

/-- The inputs after the next token: from the encoder draft while the text agrees with it, else from the draft heads. -/
def draftsFor (n : Nat) (encoder placed : List Nat) (next : Nat) (heads : List Nat) : List Nat :=
  let known := (placed ++ [next]).filter (fun t => t != 0x101)
  let agrees := known.isPrefixOf encoder
  (List.range (n - 1)).map (fun k =>
    if agrees then (match encoder[known.length + k]? with | some t => t | none => nth heads k 0) else nth heads k 0)

/-! ### Opening and joining (R297, R298, R311, R312) -/

/-- A line is opened as a sequence; nothing where its side is gone, its job decodes nothing, or no sequence is free. -/
def openLine (j : Nat) (o : OpenLine) (s : State) : State :=
  match sheetAt s o.sheet, Tab.free s.slab.seqs (par s 0x06000004), jobDecl s j with
  | some h, some i, some d =>
    if !h.alive || h.secondHit.isSome || d.kind != 2 || (jobGeom s j).isNone || (lineAt s o.sheet o.region).isSome
        || !(h.regions.any (fun r => r.index == o.region)) || !(o.prefixId == 0xFFFF || (Tab.find s.slab.prefixes o.prefixId).isSome) then s
    else
      let r := openSeq i j o.flags o.prefixId (jobPar s j 0x02) o.dir o.src o.index s
      let l := { Line.corrupt o.sheet o.region j 0 with
        handle := r.1, state := 1, firstText := o.firstText, seeds := o.seeds, ready := s.clk.tb, next := 0x101
        encoder := if d.encoderDraft then o.draft else [], startInput := true
        drafts := draftsFor (jobPar s j 0x10) (if d.encoderDraft then o.draft else []) [] 0x101 [] }
      let s := match seqOf r.2 r.1 with | some (_, q) => putSource q o.firstText 0x101 r.2 | none => r.2
      { s with serv := { s.serv with lines := s.serv.lines ++ [l] } }
  | _, _, _ => s

/-- Slabs that a step still has to allocate for positions `lo` to `hi` of a sequence: fresh entries and shared ones. -/
def slabsNeeded (s : State) (h lo hi : Nat) : Nat :=
  match seqOf s h with
  | none => 0
  | some (_, q) =>
    match jobGeom s q.job with
    | none => 0
    | some g => (((List.range (hi / 256 + 1)).drop (lo / 256)).flatMap (fun n => columnEntries s q g n)).filter (fun e => e.2.1 != 1) |>.length

/-- The first position that a line's candidates take. -/
def Line.at_ (l : Line) : Nat := l.firstText + l.placed.length

/-- A build in progress: the state, what its rows add up to, and what it has taken in. -/
structure Build where
  s : State
  rows : Nat
  seeds : Nat
  slow : Nat
  taken : List Line
  prefill : List (Nat × Nat)
  recompute : List (Nat × Nat)

/-- A waiting line joins (R297): its budget is fixed, and its deadline posted. -/
def joinLine (j due : Nat) (l : Line) (s : State) : State :=
  let x := fixLine s l
  let budget := Nat.max (jpar s j 0x07000004) (jpar s j 0x07000003 * medianOf s j x.bucket)
  let at_ := due + (budget + 2) * jobPar s j 0x03
  let s := addSlot (newSlot s at_ 0x06 4 0x10 l.handle (Config.unitTally l.handle % 1024) .serving (.lineDeadline l.handle)) s
  modLine l (fun _ => { x with state := 2, budget := budget, deadlineDue := at_, firstEpoch := nth s.cmd.jobEpochs j 0, lastEpoch := nth s.cmd.jobEpochs j 0 }) s

/-- Waiting lines join in order until one does not fit. -/
def joinLines (j step due : Nat) : List Line → Build → Build
  | [], b => b
  | l :: r, b =>
    let cand := jobPar b.s j 0x10
    if jobPar b.s j 0x11 < b.rows + cand ∨ jobPar b.s j 0x12 < b.seeds + l.seeds
        ∨ poolSize b.s .serving ≤ poolUsed b.s .serving + 1 then b
    else
      let lo := l.firstText - l.seeds
      let v := reserveSlabs j step (slabsNeeded b.s l.handle lo (l.at_ + cand - 1)) b.s
      if !v.1 then { b with s := v.2 }
      else joinLines j step due r { b with
        s := joinLine j due l v.2, rows := b.rows + cand, seeds := b.seeds + l.seeds, taken := b.taken ++ [l] }

/-- Prefill chunks, one a sequence (R298; 11 R350). -/
def addPrefill (j : Nat) : List Line → Build → Build
  | [], b => b
  | l :: r, b =>
    let n := Nat.min (jobPar b.s j 0x13) l.refill.length
    if jobPar b.s j 0x11 < b.rows + n then b
    else addPrefill j r { b with rows := b.rows + n, prefill := b.prefill ++ [(l.handle, n)] }

/-- What restoring the lowest dropped column of a sequence takes (R301): the column, its seed rows, its prefill rows. -/
def recomputeRows (l : Line) (q : Seq) : Option (Nat × Nat × Nat) :=
  match sortBy (fun x => x) q.dropped with
  | [] => none
  | n :: _ =>
    let lo := Nat.max (256 * n) q.firstPrivate
    let hi := Nat.min (256 * n + 256) q.committed
    some (n, Nat.min hi l.firstText - lo, hi - Nat.max lo l.firstText)

/-- Slow-lane items by move stamp: a recompute for a sequence with dropped columns, else the line's candidates. -/
def addSlow (j : Nat) : List Line → Build → Build
  | [], b => b
  | l :: r, b =>
    match (seqOf b.s l.handle).bind (fun e => (recomputeRows l e.2)) with
    | some (n, sd, rows) =>
      if jpar b.s j 0x07000007 < b.slow + rows ∨ jobPar b.s j 0x11 < b.rows + rows ∨ jobPar b.s j 0x12 < b.seeds + sd then b
      else addSlow j r { b with
        rows := b.rows + rows, seeds := b.seeds + sd, slow := b.slow + rows, recompute := b.recompute ++ [(l.handle, n)] }
    | none =>
      let n := jobPar b.s j 0x10
      let sd := if l.placed.isEmpty then l.seeds else 0
      if jpar b.s j 0x07000007 < b.slow + n ∨ jobPar b.s j 0x11 < b.rows + n ∨ jobPar b.s j 0x12 < b.seeds + sd then b
      else addSlow j r { b with rows := b.rows + n, seeds := b.seeds + sd, slow := b.slow + n, taken := b.taken ++ [l] }

/-- Sequences by PRIORITY, the highest first, then by ready stamp. -/
def priorityKey (s : State) (l : Line) : Nat :=
  (7 - ((seqOf s l.handle).map (fun e => e.2.priority)).getD 0) * 2 ^ 64 + l.ready

/-- A decode step is filled in the order of R298. -/
def fillDecode (j step due : Nat) (s : State) : Build :=
  let normal := laneOf s j 2
  let cand := jobPar s j 0x10
  let need := normal.foldl (fun n l => n + slabsNeeded s l.handle (l.at_ + l.refill.length) (l.at_ + l.refill.length + cand - 1)) 0
  let s := if need = 0 then s else (reserveSlabs j step need s).2
  let b := joinLines j step due (sortBy (priorityKey s) (laneOf s j 1)) ⟨s, cand * normal.length, 0, 0, normal, [], []⟩
  let b := addPrefill j (sortBy (priorityKey b.s) ((normal ++ laneOf s j 3).filter (fun l => !l.refill.isEmpty))) b
  addSlow j (sortBy Line.movedAt (laneOf b.s j 3)) b

/-! ### Work and cores (R288, R302 to R304, R320) -/

/-- A learning sample whose target is held. -/
def targetFor (s : State) (x : Sample) : Option Target :=
  match sheetAt s x.sheet with
  | some h => s.serv.targets.find? (fun t => h.edge.replay && t.sheet == h.edge.replayOf && t.region == x.region)
  | none => none

def jobClasses (s : State) (j : Nat) : List Nat :=
  ((s.image.map Image.classes).getD []).filterMap (fun e => if e.2.job = j then some e.1 else none)

def closedBatches (s : State) (j : Nat) : List Batch := s.prep.batches.filter (fun b => (jobClasses s j).contains b.cls)

/-- The job has work (R288, R320); `due` is the cadence point. -/
def hasWork (s : State) (j due : Nat) (d : JobDecl) : Bool :=
  let waiting := s.prep.samples.filter (fun x => (jobClasses s j).contains x.cls)
  let batch := !waiting.isEmpty || decide ((jobAt s j).steps.length < (closedBatches s j).length)
  if d.kind = 1 then batch
  else if d.kind = 2 then s.serv.lines.any (fun l => l.job == j && lineOpen l)
  else
    (jobAt s j).started && batch
      && (waiting.any (fun x => (targetFor s x).isSome)
          || (closedBatches s j).any (fun b => b.slots.any (fun x => ((x.sample).bind (targetFor s)).isSome)))
      && decide (((jobAt s j).launches.filter (fun t => decide (due < t + 100 * jobPar s j 0x03))).length ≤ jpar s j 0x0700000A)

/-- Logical cores that tiles of a plan name. -/
def planCores (p : StepPlan) : List Nat := ((p.tiles.map (fun t => byteAt t.desc 9)).filter (fun c => c != 0xFF)).eraseDups

/-- A core of the job's clusters that is idle, or already runs the job. -/
def coreFree (s : State) (j mask c : Nat) : Bool :=
  bit mask (c / 8) && ((coreAt s c).state == 1 || ((coreAt s c).job == j && [2, 3].contains (coreAt s c).state))

/-- The job's core map once the cores its tiles name are held: those that are free stay, the others move to free cores, lowest
first; none where there are too few, or one is parked. -/
def holdCores (s : State) (j mask : Nat) : List Nat → List (Option Nat) → Option (List (Option Nat))
  | [], m => some m
  | c :: r, m =>
    match nth m c none with
    | none => none
    | some p =>
      if coreFree s j mask p then holdCores s j mask r m
      else
        match (List.range 128).find? (fun q => coreFree s j mask q && !m.contains (some q)) with
        | some q => holdCores s j mask r (setNth m c (some q))
        | none => none

/-! ### The build (R286 to R292, R321) -/

/-- The number after the job's latest step (R286). -/
def nextStep (x : Job) : Nat :=
  let n := ((x.steps.getLast?).map Step.number).getD x.stepLast
  if max32 ≤ n then 1 else n + 1

/-- The first cadence point at or after `t`. -/
def cadence (start period t : Nat) : Nat := start + ceilDiv (t - start) period * period

/-- The plan fits the block: its tiles keep their format, in clusters of the job, and its tally and handle exist. -/
def planOk (s : State) (d : JobDecl) (p : StepPlan) : Bool :=
  !p.tiles.isEmpty && decide (p.doneTally < 16384) && decide (p.handle % 64 = 0)
    && p.tiles.all (fun t => t.desc.length == 64 && decide (t.cluster < s.variant.clusters) && bit d.clusters t.cluster)
    && (List.range 16).all (fun c =>
      let n := (p.tiles.filter (fun t => t.cluster == c)).length
      decide (n ≤ 1024) && decide (p.handle + 32 + 64 * n ≤ 4194304))

def planMask (p : StepPlan) : Nat := maskOf (p.tiles.map TileRow.cluster).eraseDups

/-- A tile descriptor carries its job's PRIORITY, or SLOW_PRIORITY (R285). -/
def withPriority (s : State) (j : Nat) (t : TileRow) : Bytes :=
  t.desc.take 8 ++ le 1 (if t.slow then jpar s j 0x07000006 else jobPar s j 0x02) ++ t.desc.drop 9

/-- The tile lists are written (05 R167). -/
def writeLists (j step : Nat) (p : StepPlan) (s : State) : State :=
  (bitsOf 16 (planMask p)).foldl (fun s c =>
    let l := p.tiles.filter (fun t => t.cluster == c)
    writeCommons c p.handle (pack [(4, step), (2, j), (2, l.length), (4, nth s.cmd.jobEpochs j 0)] ++ zeros 20
      ++ l.flatMap (withPriority s j)) s) s

/-- A sequence is entered in the step. -/
def enterHandle (step h : Nat) (recompute : Bool) (s : State) : State :=
  match seqOf s h with
  | some _ => enterSeq step (h, recompute) s
  | none => s

/-- The candidate rows of the lines taken, where their results are given a place. A line whose continuation is not wholly in
the step has no candidates yet (log 60). -/
def rowsFor (s : State) (p : StepPlan) (b : Build) : List RowsAt :=
  b.taken.filterMap (fun l =>
    match lineAt s l.sheet l.region, p.results.find? (fun r => r.sheet == l.sheet && r.region == l.region) with
    | some x, some r =>
      if x.refill.length ≤ ((b.prefill.find? (fun e => e.1 == x.handle)).map Prod.snd).getD 0 then
        some ⟨x.handle, r.cluster, r.offset, x.next, x.drafts, x.startInput⟩
      else none
    | _, _ => none)

/-- Each line taken counts a decode step, under the job's epoch. -/
def countSteps (epoch : Nat) (b : Build) (s : State) : State :=
  b.taken.foldl (fun s l => modLine l (fun x => { x with
    stepsUsed := x.stepsUsed + 1, lastEpoch := epoch, firstEpoch := if x.stepsUsed = 0 then epoch else x.firstEpoch }) s) s

/-- Steps whose results have been accepted are retired (R290, R291). -/
def retireAccepted (j : Nat) (s : State) : State :=
  let done := (jobAt s j).steps.filter (fun t => t.state == 7)
  let s := done.foldl (fun s t => retireStep j t.number s) s
  modJob j (fun x => { x with steps := x.steps.filter (fun t => t.state != 7) }) s

/-- Cadence points missed because the step before was not done in time (R289). -/
def missedPoints (x : Job) (period due : Nat) : Nat :=
  match x.steps.getLast? with
  | some t =>
    let late := ((t.acceptedAt + 256 - t.due) + period - 1) / period - 1
    Nat.min late ((due - t.due) / period - 1)
  | none => 0

/-- The step is posted: lists, sequences, done tally, slot. -/
def postStep (j step due start : Nat) (d : JobDecl) (p : StepPlan) (b : Build) (map : List (Option Nat)) : State :=
  let s := b.s
  let epoch := nth s.cmd.jobEpochs j 0
  let missed := if d.kind = 2 then missedPoints (jobAt s j) (jobPar s j 0x03) due else 0
  let s := writeLists j step p { s with coreMaps := setNth s.coreMaps j map }
  let s := b.taken.foldl (fun s l => enterHandle step l.handle false s) s
  let s := b.recompute.foldl (fun s e => enterHandle step e.1 true s) s
  let s := (b.prefill.filter (fun e => !b.taken.any (fun l => l.handle == e.1))).foldl (fun s e => enterHandle step e.1 false s) s
  let t : Step :=
    { number := step, state := 3, epoch := epoch, due := due, launch := 0, acceptedAt := 0, doneTally := p.doneTally, tiles := p.tiles.length
      rows := rowsFor s p b, prefill := b.prefill, recompute := b.recompute }
  let s := countSteps epoch b (retireAccepted j s)
  let s := modJob j (fun x => { x with
    start := some start, steps := x.steps ++ [t], waitingCores := none, waitReported := false, coresHeld := (planCores p).length
    launches := if d.kind = 3 then (due :: x.launches).take 100 else x.launches }) s
  let s := armTally p.doneTally p.tiles.length (setCount p.doneTally 0 s)
  let s := addSlot { withCharge s (newSlot s due 0x04 (planMask p) 0x10 p.handle step .serving (.stepStart j step)) with burst := d.burst } s
  if missed = 0 then s
  else
    let prev := if step = 1 then max32 else step - 1
    servEvent 1 { job := j, step := prev, at_ := stamp s, used := missed } (servCount 3 missed s)

/-- Lines whose deadlines have timed out move at the build (R309). -/
def moveExpired (j : Nat) (s : State) : State :=
  ((laneOf s j 2).filter Line.deadlineHit).foldl (fun s l => moveSlow l 2 (jobAt s j).stepLast l.deadlineDue s) s

/-- A build opportunity of a job. -/
def buildStep (j : Nat) (d : JobDecl) (p : StepPlan) (s : State) : State :=
  let s := p.opens.foldl (fun s o => openLine j o s) (moveExpired j (adoptJob j s))
  let x := jobAt s j
  let start := x.start.getD (ceilDiv s.clk.tb 1000 * 1000)
  let due := cadence start (jobPar s j 0x03) (Nat.max (s.clk.tb + 256) (match x.steps.getLast? with | some t => t.due + 1 | none => 0))
  if !hasWork s j due d || !planOk s d p || decide (jobPar s j 0x04 ≤ (x.steps.filter (fun t => t.state != 7)).length)
      || decide (poolSize s .serving ≤ poolUsed s .serving) then s
  else
    match asleepStacks s (planMask p) with
    | k :: l => (k :: l).foldl (fun s k => touchDie k s) (modJob j (fun x => { x with start := some start }) s)
    | [] =>
      match holdCores s j d.clusters (planCores p) (nth s.coreMaps j []) with
      | none => modJob j (fun x => { x with start := some start, waitingCores := some (x.waitingCores.getD s.clk.tb) }) s
      | some m =>
        let step := nextStep x
        if d.kind ≠ 2 then postStep j step due start d p ⟨s, 0, 0, 0, [], [], []⟩ m
        else
          let b := fillDecode j step due s
          if b.rows = 0 ∧ b.recompute.isEmpty then b.s else postStep j step due start d p b m

/-- STEP_BUILD (R288 to R304). -/
def execStepBuild (dt j : Nat) (p : StepPlan) (s : State) : Host.Outcome State Fault Refusal :=
  let s := advance dt s
  .next (match jobDecl s j with
    | some d => if awake s && s.boot.ready && !recovering s then buildStep j d p s else s
    | none => s)

/-! ### Acceptance (R294 to R296, R309 to R311; 11 R346 to R350) -/

/-- The first stop string that ends in the bytes of one token: its number, and the bytes kept. -/
def stopInToken (set : Bytes) : Bytes → Bytes → Nat → Option (Nat × Nat)
  | _, [], _ => none
  | since, b :: r, k =>
    match stopAt set (since ++ [b]) with
    | some i => some (i, k + 1)
    | none => stopInToken set (since ++ [b]) r (k + 1)

/-- How the accepted tokens of a step end. -/
inductive TokenEnd where
  | whole
  | ended (i : Nat)
  | stop (i number kept : Nat)
deriving DecidableEq, Repr

/-- The first END or stop among accepted tokens, each with its bytes. -/
def scanTokens (set : Bytes) : Nat → Bytes → List (Nat × Bytes) → TokenEnd
  | _, _, [] => .whole
  | i, since, (t, b) :: r =>
    if t = 0x102 then .ended i
    else match stopInToken set since b 0 with
      | some (n, k) => .stop i n k
      | none => scanTokens set (i + 1) (since ++ b) r

/-- m of R294: drafts that agree with the token of the row before. -/
def agreeing : List Nat → List Nat → Nat
  | t :: ts, d :: ds => if t = d then agreeing ts ds + 1 else 0
  | _, _ => 0

/-- Row results of a line in commons (R294): TOKEN and DRAFT of each row. -/
def rowResults (s : State) (r : RowsAt) (n : Nat) : List (Nat × List Nat) :=
  (List.range n).map (fun k =>
    let b := Memory.readN (clusterAt s r.cluster).commons (r.offset + 16 * k) 16
    (leAt b 0 4 % 2 ^ 17, [leAt b 4 4, leAt b 8 4, leAt b 12 4]))

/-- The accepted tokens as the line keeps them; a logit that nothing gives is a free value (log 2). -/
def tokensOf (s : State) (step : Nat) (facts : List RowFact) : Nat → List Nat → List Tok
  | _, [] => []
  | i, t :: r =>
    let f := nth facts i ⟨Config.freeWord (s.freeCtr + i), 0xFFFF, 0⟩
    ⟨t, tokenBytes s t, decide (0 < i), false, f.x, f.w, f.logit, step⟩ :: tokensOf s step facts (i + 1) r

/-- The grammar state after inputs, START standing for the first where it does (11 R340, R346). -/
def gAfter (s : State) (g st : Nat) (start : Bool) (l : List Nat) : Nat :=
  (if start then 0x101 :: l.drop 1 else l).foldl (fun st t => consume s g st t) st

/-- Tokens take their positions: SRC entries and SEQ_COMMIT (R294, R300). -/
def commitTokens (l : Line) (toks : List Nat) (s : State) : State :=
  match seqOf s l.handle with
  | none => s
  | some (i, q) =>
    let s := ((List.range toks.length).zip toks).foldl (fun s e => putSource q (l.at_ + e.1) e.2 s) s
    modSeq i (fun x => { x with committed := Nat.max x.committed (l.at_ + toks.length) }) s

/-- A line completes (R295, R309): its deadline is cancelled, its sequence closes. -/
def completeLine (l : Line) (done : Nat) (s : State) : State :=
  let s := if l.state = 2 then enterWindow l.job l.bucket l.stepsUsed (cancelDeadline l.handle done s) else s
  closeHandle l.handle (modLine l (fun x => { x with state := 4, completion := some done }) s)

def textCount (i n : Nat) (s : State) : State :=
  { s with text := { s.text with counts := modNth s.text.counts i (fun v => inc32 v n) } }

/-- The text after the last cut. -/
def Line.sinceCut (l : Line) : Bytes := l.text.drop ((l.cuts.getLast?).getD 0)

/-- A line that goes on: its new next token, grammar state and drafts; the slow lane where its budget is used up. -/
def goOn (l : Line) (step done : Nat) (s : State) : State :=
  match lineAt s l.sheet l.region with
  | some x => if x.state = 2 ∧ x.budget ≤ x.stepsUsed then moveSlow x 1 step done s else s
  | none => s

/-- A slow line whose step was done after its side's second deadline had passed: its results are discarded (R317). -/
def pastSecond (s : State) (l : Line) (done : Nat) : Bool :=
  match (sheetAt s l.sheet).bind Sheet.secondHit with
  | some d => decide (d < done)
  | none => false

/-- Lines of sides whose release check has passed before the step was done move first (R314). -/
def moveLate (j done : Nat) (s : State) : State :=
  ((laneOf s j 2).filter (fun l => match sheetAt s l.sheet with
    | some h => h.committed.isNone && (match h.checkHit with | some d => decide (d < done) | none => false)
    | none => false)).foldl (fun s l => moveSlow l 3 (jobAt s j).stepLast done s) s

/-- What acceptance does to one line. -/
def acceptLine (j : Nat) (t : Step) (done : Nat) (r : RowsAt) (facts : List RowFact) (s : State) : State :=
  match lineOfHandle s r.handle with
  | none => s
  | some l =>
    if (l.state ≠ 2 ∧ l.state ≠ 3) ∨ pastSecond s l done then s
    else
      let res := rowResults s r (r.drafts.length + 1)
      let m := agreeing (res.map Prod.fst) r.drafts
      let acc := r.next :: r.drafts.take m
      let new := (nth res m (0x100, [])).1
      let heads := (nth res m (0x100, [])).2
      let toks := tokensOf s t.number facts 0 acc
      let s := { s with freeCtr := s.freeCtr + acc.length }
      let keep := fun n (x : Line) => { x with
        toks := x.toks ++ toks.take n, text := x.text ++ ((toks.take n).flatMap Tok.kept), placed := x.placed ++ acc.take n, startInput := false }
      match scanTokens l.stops 0 l.sinceCut (toks.map (fun x => (x.token, x.kept))) with
      | .ended i =>
        completeLine l done (modLine l (keep (i + 1)) (commitTokens l (acc.take (i + 1)) s))
      | .whole =>
        let s := modLine l (keep acc.length) (commitTokens l acc s)
        if new = 0x102 then completeLine l done s
        else if ((jobDecl s j).map JobDecl.maxTokens).getD 0 ≤ l.placed.length + acc.length then
          completeLine l done (modLine l (fun x => { x with truncated := true }) s)
        else
          let g := gAfter s l.grammar l.gstate r.startInput acc
          goOn l t.number done (modLine l (fun x => { x with
            next := new, gstate := g, drafts := draftsFor (jobPar s j 0x10) x.encoder x.placed new heads }) s)
      | .stop i n k =>
        let c := nth toks i ⟨0, [], false, false, 0xFFFF, 0, 0, 0⟩
        let cut : Tok := { c with kept := c.kept.take k, cut := true }
        let before := toks.take i
        let rec_ := stopRecord l.stops n
        let goes := byteAt rec_ 1 == 1 && decide (l.cuts.length < 8)
        let text := l.text ++ before.flatMap Tok.kept ++ cut.kept
        let s := commitTokens l (acc.take i) s
        let s := modLine l (fun x => { x with
          toks := x.toks ++ before ++ [cut], text := text, placed := x.placed ++ acc.take i
          stopIndex := some n, surplus := c.kept.length - k, startInput := false, stopped := !goes }) s
        let s := textCount 5 (c.kept.length - k) (textCount 3 1 s)
        if !goes then completeLine l done s
        else
          let u := (tokenize 8 true true cut.kept s)
          let next := (u.1.getLast?).getD 0
          let g := byteAt rec_ 2
          goOn l t.number done (textCount 4 1 (modLine l (fun x => { x with
            refill := u.1.dropLast, next := next, grammar := g, gstate := initialState s g, startInput := true, cuts := x.cuts ++ [text.length]
            drafts := draftsFor (jobPar s j 0x10) x.encoder (x.placed ++ u.1.dropLast) next heads }) u.2))

/-- A prefill chunk is committed whole (R298). -/
def acceptPrefill (e : Nat × Nat) (s : State) : State :=
  match lineOfHandle s e.1 with
  | none => s
  | some l =>
    if l.state ≠ 2 ∧ l.state ≠ 3 then s
    else
      modLine l (fun x => { x with refill := x.refill.drop e.2, placed := x.placed ++ x.refill.take e.2 }) (commitTokens l (l.refill.take e.2) s)

/-- The batch that a batch or learn step consumed: its sides' producers, and the targets that a learn step used. -/
def acceptBatch (j : Nat) (t : Step) (learn : Bool) (s : State) : State :=
  match (closedBatches s j).find? Batch.filled with
  | none => s
  | some b =>
    let xs := b.slots.filterMap BatchSlot.sample
    let used := if learn then xs.filterMap (targetFor s) else []
    let s := xs.foldl (fun s x => noteEpoch x.sheet 0x07 j t.epoch s) s
    { s with
      prep := { s.prep with batches := s.prep.batches.erase b }
      serv := { s.serv with targets := s.serv.targets.filter (fun x => !used.contains x) } }

/-- The tiles of a step have all signalled its done tally. -/
def stepDone (s : State) (t : Step) : Bool := t.state == 6 && decide (t.tiles ≤ (tallyAt s t.doneTally).count)

/-- The results of a done step are read and committed. -/
def acceptStep (j : Nat) (d : JobDecl) (t : Step) (facts : List (List RowFact)) (s : State) : State :=
  let done := (tallyAt s t.doneTally).reached
  let now := s.clk.tb
  if d.kind = 2 then
    let s := moveLate j done s
    let s := t.prefill.foldl (fun s e => acceptPrefill e s) s
    let s := t.rows.foldl (fun s r => match lineOfHandle s r.handle with | some l => noteEpoch l.sheet 0x07 j t.epoch s | none => s) s
    let s := ((List.range t.rows.length).zip t.rows).foldl (fun s e => acceptLine j t done e.2 (nth facts e.1 []) s) s
    let s := modStep j t.number (fun x => { x with state := 7, acceptedAt := now }) s
    if hasWork s j now d then s else retireAccepted j s
  else
    let s := acceptBatch j t (d.kind == 3) s
    retireAccepted j (modStep j t.number (fun x => { x with state := 7, acceptedAt := now }) s)

/-- ACCEPTANCE (R294): the oldest done step of the job. -/
def execAcceptance (dt j : Nat) (facts : List (List RowFact)) (s : State) : Host.Outcome State Fault Refusal :=
  let s := advance dt s
  .next (match jobDecl s j, (jobAt s j).steps.find? (fun t => t.state != 7) with
    | some d, some t => if awake s && stepDone s t then sweepSheets (acceptStep j d t facts s) else s
    | _, _ => s)

/-! ### Deadlines of sides (R314, R317) -/

/-- A step done at or before `d` has not been accepted yet. -/
def acceptanceOwed (s : State) (d : Nat) : Bool :=
  s.serv.jobs.any (fun j => j.steps.any (fun t => stepDone s t && decide ((tallyAt s t.doneTally).reached ≤ d)))

/-- RELEASE_CHECK_TIMEOUT (R314): unfinished lines move to the slow lane, and the record is committed. -/
def execReleaseCheckTimeout (dt id : Nat) (fields : List FieldValue) (s : State) : Host.Outcome State Fault Refusal :=
  let s := advance dt s
  .next (match sheetAt s id with
    | some h =>
      match h.checkHit with
      | some d =>
        if awake s && h.alive && h.committed.isNone && !acceptanceOwed s d then
          let s := ((linesOf s id).filter (fun l => l.state == 1 || l.state == 2)).foldl (fun s l => moveSlow l 3 (jobAt s l.job).stepLast d s) s
          commitRecord h (sheetPlan s h fields) s
        else s
      | none => s
    | none => s)

/-- A slow line is unread (R317). -/
def lineUnread (l : Line) (d : Nat) (s : State) : State :=
  let s := modLine l (fun x => { x with state := 5, status := 0x0790 }) (closeHandle l.handle s)
  servEvent 4 (lineNote l 0x0790 (jobAt s l.job).stepLast d 0) (servCount 6 1 s)

/-- SECOND_DEADLINE_TIMEOUT (R317): slow lines become unread, and an amendment says so. -/
def execSecondDeadlineTimeout (dt id : Nat) (s : State) : Host.Outcome State Fault Refusal :=
  let s := advance dt s
  .next (match sheetAt s id with
    | some h =>
      match h.secondHit with
      | some d =>
        if awake s && h.alive && h.committed.isSome && !acceptanceOwed s d then
          let s := ((linesOf s id).filter (fun l => l.state == 3)).foldl (fun s l => lineUnread l d s) s
          sweepSheets (commitAmendment h (unfilled h []) s)
        else s
      | none => s
    | none => s)

/-- JOB_WAITING (R302): event 7, once for a wait. -/
def execJobWaiting (dt j : Nat) (s : State) : Host.Outcome State Fault Refusal :=
  let s := advance dt s
  .next (match (jobAt s j).waitingCores with
    | some t =>
      if awake s && !(jobAt s j).waitReported && decide (t + jobPar s j 0x03 ≤ s.clk.tb) then
        servEvent 7 { job := j, step := nextStep (jobAt s j), at_ := t, duration := s.clk.tb - t }
          (modJob j (fun x => { x with waitReported := true }) s)
      else s
    | none => s)

/-! ### Learning targets (R318) -/

/-- The target has matched a sample. -/
def targetMatched (s : State) (t : Target) : Bool :=
  s.prep.sheets.any (fun h => h.edge.replay && h.edge.replayOf == t.sheet && h.asked.contains t.region)

/-- The WATCH slot of supervisor 4 exists while a target is held (02 R36). -/
def watchTargets (s : State) : State :=
  let l := slotsFor s (.watch 4)
  if s.serv.targets.isEmpty then dropSlots (fun u => u == .watch 4) s
  else if l.isEmpty then
    addSlot { newSlot s (stamp s + 1000000000) 0x0C 4 0x10 0 0 .housekeeping (.watch 4) with period := 1000000000, count := 0xFFFF } s
  else s

/-- LEARNING_TARGET_EXPIRY: targets older than 60 s that have matched nothing. -/
def execLearningTargetExpiry (dt : Nat) (s : State) : Host.Outcome State Fault Refusal :=
  let s := advance dt s
  .next (if !awake s then s
    else
      let old := s.serv.targets.filter (fun t => decide (t.arrived + 60000000000 < s.clk.tb) && !targetMatched s t)
      let s := { s with serv := { s.serv with targets := s.serv.targets.filter (fun t => !old.contains t) } }
      watchTargets (old.foldl (fun s t => servEvent 8 { at_ := t.arrived, sheet := t.sheet, region := t.region } s) s))

/-! ### Commands (R323) -/

/-- STATE of a job: the newest step's, or 4 while it waits for cores. -/
def jobState (s : State) (j : Nat) : Nat :=
  let x := jobAt s j
  if (jobDecl s j).isNone then 0
  else if x.waitingCores.isSome then 4
  else match x.steps.getLast? with
    | none => 1
    | some t =>
      if t.state = 6 ∧ stepDone s t then 7
      else if t.state = 3 ∧ s.fc.slots.any (fun e => e.2.use == .stepStart j t.number && e.2.state == 3) then 5
      else t.state

/-- Steps launched and not retired. -/
def inflight (s : State) (j : Nat) : Nat := ((jobAt s j).steps.filter (fun t => t.state != 3)).length

/-- JOB_STATUS. -/
def jobStatusBody (p : Packet) (s : State) : Reply :=
  let j := byteAt p.params 0
  if p.params.length ≠ 4 ∨ !resZero p.params 1 3 then .refuse 0x0170 []
  else match jobDecl s j with
    | none => .refuse 0x0171 []
    | some d =>
      let x := jobAt s j
      .ok (pack [(1, d.kind), (1, jobState s j), (1, jobPar s j 0x02), (1, inflight s j), (4, x.stepLast), (8, x.lastLaunch),
        (4, linesIn s j 2), (4, linesIn s j 3), (2, x.coresHeld), (2, 0)]) s

/-- LINE_QUERY. -/
def lineQueryBody (p : Packet) (s : State) : Reply :=
  let q := p.params
  if q.length ≠ 8 ∨ !resZero q 6 2 then .refuse 0x0170 []
  else match lineAt s (leAt q 0 4) (leAt q 4 2) with
    | none => .refuse 0x0172 []
    | some l =>
      if l.handle = 0 then .refuse 0x0172 []
      else .ok (pack [(1, l.state), (1, l.bucket), (1, l.job), (1, 0), (4, l.stepsUsed), (4, l.budget), (4, l.toks.length),
        (8, if (slotsFor s (.lineDeadline l.handle)).isEmpty then 0 else l.deadlineDue), (4, l.handle)]) s

/-- LEARN_POST. -/
def learnPostBody (p : Packet) (s : State) : Reply :=
  let q := p.params
  let n := leAt q 6 2
  let ids := (List.range n).map (fun i => leAt q (8 + 4 * i) 4)
  let t : Target := ⟨leAt q 0 4, leAt q 4 2, ids, stamp s⟩
  if n = 0 ∨ 512 < n ∨ q.length ≠ 8 + 4 * n then .refuse 0x0170 []
  else if ids.any (fun i => decide (vocab s ≤ i)) then .refuse 0x0173 []
  else
    let others := s.serv.targets.filter (fun x => !(x.sheet == t.sheet && x.region == t.region))
    if 4096 ≤ others.length then .refuse 0x0370 []
    else .ok [] (watchTargets { s with serv := { s.serv with targets := others ++ [t] } })

/-- LEARN_CONTROL. -/
def learnControlBody (p : Packet) (s : State) : Reply :=
  let q := p.params
  if q.length ≠ 4 ∨ 1 < byteAt q 1 ∨ !resZero q 2 2 then .refuse 0x0170 []
  else match jobDecl s (byteAt q 0) with
    | none => .refuse 0x0171 []
    | some d =>
      if d.kind ≠ 3 then .refuse 0x0470 []
      else .ok [] (modJob (byteAt q 0) (fun x => { x with started := byteAt q 1 == 1 }) s)

/-- JOB_STATUS. -/
def execJobStatus : Nat → Hdr → Bytes → State → Host.Outcome State Fault Refusal := hostRow 0x0701 jobStatusBody
/-- LINE_QUERY. -/
def execLineQuery : Nat → Hdr → Bytes → State → Host.Outcome State Fault Refusal := hostRow 0x0702 lineQueryBody
/-- LEARN_POST. -/
def execLearnPost : Nat → Hdr → Bytes → State → Host.Outcome State Fault Refusal := hostRow 0x0703 learnPostBody
/-- LEARN_CONTROL. -/
def execLearnControl : Nat → Hdr → Bytes → State → Host.Outcome State Fault Refusal := hostRow 0x0704 learnControlBody

end Sys2Proof.Machine
end

