-- ==== Sys2Proof/Machine/Debug.lean ====
section
/-! DEFINITION. Debug registers (00 R9; 02 R55; 03 R95; 05 R182; 06 R207; 09 R282; 10 R326; 11 R354; 12 R387; 13 R431; 14 R465;
15 R501, R502; 16 R525; 17 R561), the freeze read-out engine (15 R480, R481), JTAG (17 R548). -/
namespace Sys2Proof.Machine

/-! ### Values -/

def regTimeFc (s : State) : Nat :=
  b2n (s.fc.slots.any (fun e => e.2.state == 3)) * 2 ^ 31 + b2n s.clk.tbValid * 2 ^ 30 + s.fc.slots.length * 2 ^ 16 + sat 0xFFFF s.fc.lateRc

def regPortErr (s : State) (p : Nat) : Nat :=
  let e := nth s.intk.ports p ⟨0, 0, 0, 0⟩
  if p < s.variant.rxPorts then e.hdrUncorr * 2 ^ 24 + e.crcFail * 2 ^ 16 + e.wcFraming * 2 ^ 8 + e.hdrCorr else 0

/-- CORE_STAT. -/
def regCoreStat (s : State) : Nat :=
  let k := coreAt s s.coreSel
  let lc := (k.tile.map TileDesc.lcore).getD 0xFF
  if s.variant.cores ≤ s.coreSel then 0
  else k.state * 2 ^ 29 + (if k.tile.isSome then k.job * 2 ^ 25 else 0)
    + (if lc = 0xFF then 0 else lc % 128 * 2 ^ 18 + 2 ^ 17) + k.r.pc % 2 ^ 17

def regCoreEvt (s : State) : Nat :=
  let k := coreAt s s.coreSel
  if s.variant.cores ≤ s.coreSel ∨ k.state = 0 then 0 else sat 0xFFFF k.clipped * 2 ^ 16 + sat 0xFF k.nanOut * 2 ^ 8 + sat 0xFF k.accSat

/-- SLAB_WALK: a drop is done within the command that asks for it, so DROP_BUSY reads 0. -/
def regSlabWalk (s : State) : Nat :=
  let w := nth s.slab.walkers s.slab.wsel Walker.reset
  if s.variant.clusters ≤ s.slab.wsel then 0
  else w.slb.length * 2 ^ 25 + sat 31 w.queue.length * 2 ^ 20 + b2n (s.slab.copies.any (fun c => slabHome s c.old == s.slab.wsel)) * 2 ^ 19
    + w.pins.length

def regServJob (s : State) : Nat :=
  if s.image.isNone then 0
  else jobState s s.serv.jsel * 2 ^ 29 + inflight s s.serv.jsel * 2 ^ 26 + (jobAt s s.serv.jsel).stepLast % 2 ^ 24

/-- TEXT_GMU: the list in progress is the first, the others are queued. -/
def regGmu (s : State) : Nat :=
  let u := maskUnit s s.text.gsel
  if s.variant.clusters ≤ s.text.gsel then 0
  else b2n (!u.lists.isEmpty) * 2 ^ 31 + sat 4 (u.lists.length - 1) * 2 ^ 28 + u.grammar * 2 ^ 22 + sat 0xFFFF u.masksRc

def regOutPort (s : State) (p : Nat) : Nat :=
  let t := nth s.out.ports p TxPort.reset
  if s.variant.txPorts ≤ p then 0
  else b2n s.out.hold.isSome * 2 ^ 31 + b2n t.inFlight.isSome * 2 ^ 30 + sat 15 t.frames.length * 2 ^ 26
    + sat 0xFF (recordsQueued s p) * 2 ^ 16 + sat 0xFFFF t.packetsRc

def regCmdChan (s : State) : Nat :=
  let c := chanAt s s.cmd.chsel
  c.receiver * 2 ^ 24 + c.queue.length * 2 ^ 17 + b2n (c.doorbell != 0) * 2 ^ 16 + sat 0xFF c.lostRc * 2 ^ 8 + sat 0xFF c.deniedRc

def regCmdIf (s : State) : Nat :=
  let has := fun (m : Nat) => b2n (s.cmd.ibis.any (fun i => i.mdb == m && !i.sent))
  s.cmd.packets.length * 2 ^ 26 + ceilDiv (replyTotal s) 1024 * 2 ^ 19
    + has 0x04 * 2 ^ 18 + has 0x01 * 2 ^ 17 + has 0x03 * 2 ^ 16 + has 0x02 * 2 ^ 15 + has 0x05 * 2 ^ 14 + sat 0xFF s.cmd.badPacketsRc

def regWakeCause (s : State) : Nat :=
  s.pwr.wakeFrom * 2 ^ 28 + s.pwr.wakeCause * 2 ^ 16 + s.pwr.wakeDomain * 2 ^ 8 + sat 0xFF s.pwr.wakesRc

def regLedger (s : State) : Nat :=
  let r := s.pwr.ledgerSel
  if s.pwr.budgetsSet ∧ 1 ≤ r ∧ r ≤ 4 then
    sat 0x7FF (admittedAll s r) * 2 ^ 21 + sat 0x7FF (budget s r) * 2 ^ 10 + sat 1023 (waitingOn s r)
  else 0

def regFltStatus (s : State) : Nat :=
  b2n s.flt.frozen * 2 ^ 31 + b2n s.flt.selfFrozen * 2 ^ 30 + b2n (recovering s) * 2 ^ 29 + s.twin.state * 2 ^ 26
    + s.twin.partner * 2 ^ 23 + s.flt.lastStatus

def regEcc (s : State) : Nat :=
  sat 0xFF s.flt.sramCeRc * 2 ^ 24 + sat 0xFF s.flt.ddrCeRc * 2 ^ 16 + sat 0xFF s.flt.ddrUeRc * 2 ^ 8 + sat 0xFF s.flt.faultsRc

def regBootStat (s : State) : Nat :=
  s.boot.stage * 2 ^ 28 + s.boot.fwSlot * 2 ^ 27 + s.boot.imageSlot * 2 ^ 26 + b2n s.boot.fwFallback * 2 ^ 25
    + b2n s.boot.imageFallback * 2 ^ 24 + b2n s.boot.profileFactory * 2 ^ 23 + s.boot.lastStatus

def slotMask (f : KeySlot → Bool) (l : List KeySlot) : Nat := maskOf ((List.range 4).filter (fun i => f (nth l i ⟨none, false⟩)))

def regFuse (s : State) : Nat :=
  s.fuses.fwSvn * 2 ^ 24 + s.fuses.imageSvn * 2 ^ 16 + slotMask KeySlot.revoked s.fuses.vendor * 2 ^ 12
    + slotMask (fun k => k.digest.isSome) s.fuses.owner * 2 ^ 8 + slotMask KeySlot.revoked s.fuses.owner * 2 ^ 4
    + 8 * b2n s.fuses.ownerRequired + 4 * b2n s.fuses.identityPresent

def regPinLevels (s : State) : Nat := levelMask s.pins.driven * 2 ^ 16 + levelMask ((List.range 16).map (ballLevel s))

def regClkStat (s : State) : Nat :=
  b2n s.clk.refOk * 2 ^ 31 + b2n s.clk.aonOk * 2 ^ 30 + b2n s.clk.tbLock * 2 ^ 29 + twos 8 s.pwr.tjMax * 2 ^ 16
    + sat 0xFF s.clk.aonLossesRc * 2 ^ 8 + sat 0xFF s.clk.refLossesRc

/-- The value of a debug register (15 R501); any other address reads 0. -/
def regValue (s : State) (a : Nat) : Nat :=
  match a with
  | 0x0100 => s.clk.tb % 2 ^ 32
  | 0x0101 => s.clk.tbHi
  | 0x0102 => regTimeFc s
  | 0x0200 => regPortErr s 0
  | 0x0201 => regPortErr s 1
  | 0x0202 => regPortErr s 2
  | 0x0203 => regPortErr s 3
  | 0x0204 => regPortErr s 4
  | 0x0205 => regPortErr s 5
  | 0x0400 => s.coreSel
  | 0x0401 => regCoreStat s
  | 0x0402 => regCoreEvt s
  | 0x0600 => s.slab.wsel
  | 0x0601 => regSlabWalk s
  | 0x0700 => s.serv.jsel
  | 0x0701 => regServJob s
  | 0x0800 => s.text.gsel
  | 0x0801 => regGmu s
  | 0x0900 => regOutPort s 0
  | 0x0901 => regOutPort s 1
  | 0x0A00 => partId s.variant
  | 0x0A01 => s.cmd.chsel
  | 0x0A02 => regCmdChan s
  | 0x0A03 => regCmdIf s
  | 0x0B00 => regWakeCause s
  | 0x0B01 => s.pwr.ledgerSel
  | 0x0B02 => regLedger s
  | 0x0C00 => regFltStatus s
  | 0x0C01 => if s.flt.frozen then s.flt.frostTb % 2 ^ 32 else 0
  | 0x0C02 => if s.flt.frozen then s.flt.frostTb / 2 ^ 32 % 2 ^ 32 else 0
  | 0x0C03 => regEcc s
  | 0x0D00 => regBootStat s
  | 0x0D01 => regFuse s
  | 0x0E00 => regPinLevels s
  | 0x0E01 => regClkStat s
  | _ => 0

/-! ### What a read clears, and what a write sets (00 R9) -/

/-- RC fields clear; TIME_TB_LO latches. -/
def regClear (a : Nat) (s : State) : State :=
  if 0x0200 ≤ a ∧ a ≤ 0x0205 then
    { s with intk := { s.intk with ports := modNth s.intk.ports (a - 0x0200) (fun _ => ⟨0, 0, 0, 0⟩) } }
  else
    match a with
    | 0x0100 => { s with clk := { s.clk with tbHi := s.clk.tb / 2 ^ 32 % 2 ^ 32 } }
    | 0x0102 => { s with fc := { s.fc with lateRc := 0 } }
    | 0x0402 => modCore s.coreSel (fun k => { k with clipped := 0, nanOut := 0, accSat := 0 }) s
    | 0x0801 => { s with text := { s.text with masks := modNth s.text.masks s.text.gsel (fun u => { u with masksRc := 0 }) } }
    | 0x0900 => modTx 0 (fun t => { t with packetsRc := 0 }) s
    | 0x0901 => modTx 1 (fun t => { t with packetsRc := 0 }) s
    | 0x0A02 => modChan s.cmd.chsel (fun c => { c with lostRc := 0, deniedRc := 0 }) s
    | 0x0A03 => { s with cmd := { s.cmd with badPacketsRc := 0 } }
    | 0x0B00 => { s with pwr := { s.pwr with wakesRc := 0 } }
    | 0x0C03 => { s with flt := { s.flt with sramCeRc := 0, ddrCeRc := 0, ddrUeRc := 0, faultsRc := 0 } }
    | 0x0E01 => { s with clk := { s.clk with aonLossesRc := 0, refLossesRc := 0 } }
    | _ => s

/-- RW fields: the selectors. -/
def regWrite (a v : Nat) (s : State) : State :=
  match a with
  | 0x0400 => { s with coreSel := v % 128 }
  | 0x0600 => modSlabs (fun k => { k with wsel := v % 16 }) s
  | 0x0700 => { s with serv := { s.serv with jsel := v % 16 } }
  | 0x0800 => { s with text := { s.text with gsel := v % 16 } }
  | 0x0A01 => { s with cmd := { s.cmd with chsel := v % 32 } }
  | 0x0B01 => { s with pwr := { s.pwr with ledgerSel := v % 8 } }
  | _ => s

def isSelector (a : Nat) : Bool := [0x0400, 0x0600, 0x0700, 0x0800, 0x0A01, 0x0B01].contains a

def modJtag (f : Jtag → Jtag) (s : State) : State := { s with jtag := f s.jtag }

/-- The register answers: in Sleep only the always-on PWR_WAKE_CAUSE does, and another one returns a free value. -/
def regAnswers (s : State) (a : Nat) : Bool := s.pwr.mode != .sleep || a == 0x0B00

/-- A read: the value is captured, and RC fields clear outside a freeze (15 R480). -/
def regRead (a : Nat) (s : State) : State :=
  if regAnswers s a then
    let v := regValue s a
    modJtag (fun j => { j with dataOut := v }) (if s.flt.frozen then s else regClear a s)
  else
    let d := draw s
    modJtag (fun j => { j with dataOut := Config.freeNat d.1 % 2 ^ 32 }) d.2

/-- A write: outside a freeze each field under R9; in a freeze only the selectors, any other sets BAD_ADDR (15 R481). -/
def regStore (a v : Nat) (s : State) : State :=
  if s.pwr.mode = .sleep then s
  else if s.flt.frozen ∧ !isSelector a then modJtag (fun j => { j with badAddr := true }) s
  else regWrite a v s

/-! ### Freeze address spaces (15 R480) -/

/-- Bytes whose layout the spec leaves open. -/
def openBytes (s : State) (place n : Nat) : Bytes := (List.range n).map (fun i => BitVec.ofNat 8 (Config.frzOpen (place + i) s.flt.frostTb))

/-- The state of a core in the layout of context-block bytes 0 to 4,095 (05 R172; 08 R228). KIND, FLAGS, SAVED_AT, LOOPS, ARRAY,
TWAIT and EXTENTS, which the spec states for a save only or without a layout, are open. -/
def coreBytes (s : State) (c : Nat) : Bytes :=
  let k := coreAt s c
  let at_ := c * 2 ^ 24 + 4 * 2 ^ 56
  let o := fun off n => openBytes s (at_ + off) n
  pack [(2, 1), (1, s.variant.code)] ++ o 3 1 ++ pack [(2, k.job), (1, (k.tile.map TileDesc.lcore).getD 0xFF), (1, c)] ++ o 8 2
  ++ pack [(2, 0), (4, k.tag)] ++ o 16 8 ++ pack [(4, k.r.pc), (4, k.epoch)]
  ++ (match k.tile with | some d => descBytes d | none => o 32 64)
  ++ wordBytes k.r.x ++ (k.r.v.flatMap wordBytes) ++ o 2272 64 ++ wordsBytes k.r.g
  ++ predBytes k.r ++ zeros 7 ++ o 2472 32 ++ dmaqBytes k.r.dmaq ++ o 2792 8 ++ o 2800 128
  ++ (k.r.y.flatMap yBytes) ++ zeros 144

/-- Eight bytes of an accumulator file: tiles in order, row-major. -/
def accBytes (k : Core) (off : Nat) : Bytes :=
  let t := Tab.get k.r.acc (off / 4096) AccTile.zero
  wordBytes [nth t.cells (off % 4096 / 4) 0, nth t.cells (off % 4096 / 4 + 1) 0]

/-- Bytes of DDR4 addresses that exist: 40 bits. -/
def ddrSpan : Nat := 2 ^ 40

/-- The eight bytes at a freeze address; none where the address is bad. In spaces 0x01, 0x06 and 0x07 the address is a number of a
register or record, to which the alignment does not apply (log 85). -/
def freezeRead (s : State) (a : Nat) : Option Bytes :=
  let sp := a / 2 ^ 56
  let lo := a % 2 ^ 56
  let core := lo / 2 ^ 24
  let off := lo % 2 ^ 24
  let al := decide (a % 8 = 0)
  if sp = 0x01 then
    if lo < 2 ^ 16 then some (le 4 (regValue s lo) ++ openBytes s (a + 4) 4) else none
  else if sp = 0x02 then
    if al ∧ core < s.variant.cores ∧ off < s.variant.scratchBytes then some (Memory.readN (coreAt s core).scratch off 8) else none
  else if sp = 0x03 then
    if al ∧ core < s.variant.cores ∧ off < 196608 then some (accBytes (coreAt s core) off) else none
  else if sp = 0x04 then
    if al ∧ core < s.variant.cores ∧ off < 4096 then some (((coreBytes s core).drop off).take 8) else none
  else if sp = 0x05 then
    if al ∧ core < s.variant.clusters ∧ off < 2 ^ 22 then some (Memory.readN (clusterAt s core).commons off 8) else none
  else if sp = 0x06 then
    if lo < 16384 then some (((tallyRecord (tallyAt s lo)).drop (8 * (Config.frzPart a % 4))).take 8) else none
  else if sp = 0x07 then
    if lo < 4096 then
      some (((match slotAt s lo with | some sl => slotRecord sl | none => zeros 32).drop (8 * (Config.frzPart a % 4))).take 8)
    else none
  else if sp = 0x08 then if al ∧ lo < 2 ^ 17 then some (openBytes s a 8) else none
  else if sp = 0x09 then if al ∧ lo < 2 ^ 16 then some (openBytes s a 8) else none
  else if sp = 0x0A then if al ∧ lo < ddrSpan then some (Memory.readN s.ddr lo 8) else none
  else if sp = 0x0B then
    if al ∧ core < s.variant.ioDies ∧ off < 6291456 then some (openBytes s a 8) else none
  else none

/-- Spaces whose addresses need no alignment. -/
def numbered (a : Nat) : Bool := [0x01, 0x06, 0x07].contains (a / 2 ^ 56)

/-- `n` words from an address on, and whether one of them was bad. -/
def freezeWords (s : State) : Nat → Nat → Bytes × Bool
  | _, 0 => ([], false)
  | a, n + 1 =>
    let r := freezeWords s (a + 8) n
    match freezeRead s a with
    | some b => (b ++ r.1, r.2)
    | none => (zeros 8 ++ r.1, true)

/-- FRZ_READ. No word is uncorrectable in the model: memory errors come as commands of their own (log 86). -/
def frzReadBody (p : Packet) (s : State) : Reply :=
  let q := p.params
  let a := leAt q 0 8
  let n := leAt q 8 4
  if q.length ≠ 12 ∨ n < 8 ∨ 65472 < n ∨ n % 8 ≠ 0 ∨ (a % 8 ≠ 0 ∧ !numbered a) then .refuse 0x01C0 []
  else if !s.flt.frozen then .refuse 0x04C2 []
  else
    let r := freezeWords s a (n / 8)
    .ok (r.1 ++ le 4 0) (if r.2 then modJtag (fun j => { j with badAddr := true }) s else s)

/-! ### Rows: registers -/

/-- FRZ_READ. -/
def execFrzRead : Nat → Hdr → Bytes → State → Host.Outcome State Fault Refusal := hostRow 0x0C06 frzReadBody

/-- A read of a debug register. -/
def regRow (a dt : Nat) (s : State) : Host.Outcome State Fault Refusal := .next (regRead a (advance dt s))

/-- TIME_TB_LO (02 R55). -/
def execTimeTbLo (dt : Nat) (s : State) : Host.Outcome State Fault Refusal := regRow 0x0100 dt s
/-- TIME_FC_STATUS (02 R55). -/
def execTimeFcStatus (dt : Nat) (s : State) : Host.Outcome State Fault Refusal := regRow 0x0102 dt s
/-- INTK_PORTp_ERR (03 R95). -/
def execIntkPortErr (dt port : Nat) (s : State) : Host.Outcome State Fault Refusal :=
  if port < 6 then regRow (0x0200 + port) dt s else .next (advance dt s)
/-- CORE_NUM_EVT (06 R207). -/
def execCoreNumEvt (dt : Nat) (s : State) : Host.Outcome State Fault Refusal := regRow 0x0402 dt s
/-- TEXT_GMU (11 R354). -/
def execTextGmu (dt : Nat) (s : State) : Host.Outcome State Fault Refusal := regRow 0x0801 dt s
/-- OUT_PORTp_STAT (12 R387). -/
def execOutPortStat (dt port : Nat) (s : State) : Host.Outcome State Fault Refusal :=
  if port < 2 then regRow (0x0900 + port) dt s else .next (advance dt s)
/-- CMD_CHAN (13 R431). -/
def execCmdChan (dt : Nat) (s : State) : Host.Outcome State Fault Refusal := regRow 0x0A02 dt s
/-- CMD_IF (13 R431). -/
def execCmdIf (dt : Nat) (s : State) : Host.Outcome State Fault Refusal := regRow 0x0A03 dt s
/-- PWR_WAKE_CAUSE (14 R465). -/
def execPwrWakeCause (dt : Nat) (s : State) : Host.Outcome State Fault Refusal := regRow 0x0B00 dt s
/-- FLT_ECC (15 R502). -/
def execFltEcc (dt : Nat) (s : State) : Host.Outcome State Fault Refusal := regRow 0x0C03 dt s
/-- PIN_CLK_STAT (17 R561). -/
def execPinClkStat (dt : Nat) (s : State) : Host.Outcome State Fault Refusal := regRow 0x0E01 dt s
/-- DEBUG_REGISTER_WRITE (00 R9). -/
def execDebugRegisterWrite (dt addr : Nat) (v : Word) (s : State) : Host.Outcome State Fault Refusal :=
  .next (regStore addr v.toNat (advance dt s))

/-! ### Rows: JTAG (15 R481; 17 R548) -/

def setInstr (i : JtagInstr) (s : State) : State := modJtag (fun j => { j with instr := i }) s

/-- FRZ_ADDR: acts on the frozen part. -/
def execFrzAddr (dt : Nat) (a : DWord) (s : State) : Host.Outcome State Fault Refusal :=
  let s := setInstr .frzAddr (advance dt s)
  .next (if s.flt.frozen then modJtag (fun j => { j with frzAddr := a }) s else s)

/-- FRZ_DATA: 8 bytes at the address, which then grows by 8. -/
def execFrzData (dt : Nat) (s : State) : Host.Outcome State Fault Refusal :=
  let s := setInstr .frzData (advance dt s)
  .next (if s.flt.frozen then
      let r := freezeRead s s.jtag.frzAddr.toNat
      modJtag (fun j => { j with
        dataOut := (r.map leNat).getD 0, badAddr := j.badAddr || r.isNone, frzAddr := j.frzAddr + 8 }) s
    else s)

/-- FRZ_STAT: UNCORRECTED clears with the capture. -/
def execFrzStat (dt : Nat) (s : State) : Host.Outcome State Fault Refusal :=
  let s := setInstr .frzStat (advance dt s)
  .next (modJtag (fun j => { j with
    dataOut := b2n s.flt.frozen * 2 ^ 31 + b2n j.badAddr * 2 ^ 30 + b2n j.uncorrected * 2 ^ 29, uncorrected := false }) s)

/-- FRZ_RESET: a new boot. -/
def execFrzReset (dt : Nat) (s : State) : Host.Outcome State Fault Refusal :=
  let s := setInstr .frzReset (advance dt s)
  .next (if s.flt.frozen then askBoot s else s)

/-- DBG_ADDR. -/
def execDbgAddr (dt addr : Nat) (s : State) : Host.Outcome State Fault Refusal :=
  .next (modJtag (fun j => { j with dbgAddr := addr % 2 ^ 16 }) (setInstr .dbgAddr (advance dt s)))

/-- DBG_DATA: the capture reads the register; the update writes it when [32] is 1. -/
def execDbgData (dt : Nat) (write : Bool) (v : Word) (s : State) : Host.Outcome State Fault Refusal :=
  let s := setInstr .dbgData (advance dt s)
  let a := s.jtag.dbgAddr
  let s := regRead a s
  .next (if write then regStore a v.toNat s else s)

/-- BYPASS: one bit through the bypass register. -/
def execBypass (dt : Nat) (tdi : Bool) (s : State) : Host.Outcome State Fault Refusal :=
  .next (modJtag (fun j => { j with dataOut := b2n tdi }) (setInstr .bypass (advance dt s)))

/-- The value of IDCODE. -/
def idcodeValue (v : Variant) : Nat :=
  partId v / 2 ^ 12 % 16 * 2 ^ 28 + (0x9600 + v.code) * 2 ^ 12 + Config.jep106.toNat * 2 + 1

/-- IDCODE. -/
def execIdcode (dt : Nat) (s : State) : Host.Outcome State Fault Refusal :=
  .next (modJtag (fun j => { j with dataOut := idcodeValue s.variant }) (setInstr .idcode (advance dt s)))

/-- The balls are captured, and the cells loaded. -/
def scanCells (i : JtagInstr) (cells : BitVec 16) (s : State) : State :=
  let v := levelMask ((List.range 16).map (ballLevel s))
  modJtag (fun j => { j with instr := i, dataOut := v, cells := cells }) s

/-- SAMPLE/PRELOAD. -/
def execSamplePreload (dt : Nat) (cells : BitVec 16) (s : State) : Host.Outcome State Fault Refusal :=
  .next (scanCells .samplePreload cells (advance dt s))
/-- EXTEST. -/
def execExtest (dt : Nat) (cells : BitVec 16) (s : State) : Host.Outcome State Fault Refusal :=
  .next (scanCells .extest cells (advance dt s))
/-- EXTEST_PULSE. -/
def execExtestPulse (dt : Nat) (cells : BitVec 16) (s : State) : Host.Outcome State Fault Refusal :=
  .next (scanCells .extestPulse cells (advance dt s))
/-- EXTEST_TRAIN. -/
def execExtestTrain (dt : Nat) (cells : BitVec 16) (s : State) : Host.Outcome State Fault Refusal :=
  .next (scanCells .extestTrain cells (advance dt s))

end Sys2Proof.Machine
end

