-- ==== Sys2Proof/Machine/ImageLoad.lean ====
section
/-! DEFINITION. The load of a Jenar image: its own checks and what it puts into the machine (05 R143; 06 R200; 09 R251; 11 R329,
R336 to R345; 13 R415; 16 R508, R517). -/
namespace Sys2Proof.Machine

/-- VOCAB of an image's dictionary (11 R327). -/
def imageVocab (i : Image) : Nat := 0x110 + leAt i.dict 4 4

/-- No key is repeated. -/
def distinct {α : Type} [BEq α] : List α → Bool
  | [] => true
  | a :: l => !l.contains a && distinct l

/-- Class tables, grammars and initial bindings (11 R336, R338, R345). -/
def imageTextOk (i : Image) : Bool :=
  let voc := imageVocab i
  let idx := i.classTables.map (fun t => byteAt t 2)
  i.classTables.all (classTableOk voc) && distinct idx && decide (i.classTables.length ≤ 16)
    && i.grammars.all (fun e => decide (e.1 ≤ 63) && grammarOk voc idx e.2)
    && decide (i.bindings.length ≤ 1024) && distinct (i.bindings.map Prod.fst)
    && i.bindings.all (fun e => (e.2.1 == 0xFF || (Tab.find i.grammars e.2.1).isSome) && (e.2.2 == 0xFF || decide (e.2.2 ≤ 63)))

/-- Bytes of its grammars and class tables. -/
def imageTextBytes (i : Image) : Nat :=
  i.grammars.foldl (fun n e => n + e.2.length) 0 + i.classTables.foldl (fun n t => n + t.length) 0

/-- The image's own load checks: the first that fails, in ascending class (13 R395). -/
def imageRefusal (s : State) (i : Image) : Option Nat :=
  let t := { s with image := some i }
  if i.jobs.any (fun j => match j.2.geom with | some g => !g.ok | none => false) then some 0x0164
  else if !dictOk i.dict then some 0x0180
  else if !imageTextOk i then some 0x0182
  else if (List.range (ddrRegions t (par t)).length).any (fun n => decide (5 ≤ n) && regionMeets (ddrRegions t (par t)) n) then some 0x02A0
  else if par t 0x08000001 * 1024 < imageTextBytes i ∨ !commonsFit t (par t) then some 0x0380
  else none

/-- A declared quantisation point as the load sets it (06 R200): four entries of step 0. -/
def qpAtLoad (d : QpDecl) : Qp where
  job := d.job
  mode := d.mode
  adjMin := d.adjMin
  adjMax := d.adjMax
  relax := d.relax
  thresh := d.thresh
  limitSent := false
  adapted := false
  clean := 0
  stale := 0
  elem := 0
  clip := 0
  nan := 0
  high := 0
  hist := List.replicate 4 (0, d.adj)
  changes := 0
  lastFold := 0
  next := none

/-- Every prefix of the registry is dropped. -/
def dropPrefixes (s : State) : State := s.slab.prefixes.foldl (fun s e => dropPrefix e.1 e.2 s) s

/-- The image comes into force (16 R517): jobs, points, tables, grammars, bindings and stop sets replace the old ones; prefixes and
adapters are released; the resident content is loaded. -/
def loadImage (i : Image) (s : State) : State :=
  let s := dropPrefixes s
  let s := { s with
    image := some i
    qps := i.qps.map (fun e => (e.1, qpAtLoad e.2))
    coreMaps := List.replicate 16 ((List.range 128).map some)
    cmd := { s.cmd with jobParams := List.replicate 16 (s.cmd.posted.filter (fun e => e.1 / 0x1000000 == 0x07 || e.1 / 0x1000000 == 0x08)) }
    serv := { s.serv with jobs := List.replicate 16 Job.reset, counts := List.replicate 7 0, adapters := [] }
    text := { s.text with
      dict := i.dict, classTables := i.classTables.foldl (fun t x => Tab.set t (byteAt x 2) x) [], grammars := i.grammars
      bindings := i.bindings, stops := i.stops, carries := List.replicate 16 [], counts := List.replicate 6 0 } }
  reloadCommons (reloadResident (List.range 128) s)

/-- The active image's identity (16 R521). -/
def noteImage (slot : Nat) (c : Bytes) (s : State) : State :=
  { s with boot := { s.boot with imageSlot := slot - 2, imageDigest := containerDigest c, imageSvn := byteAt c 4 } }

/-- IMAGE_COMMIT. -/
def execImageCommit : Nat → Hdr → Bytes → State → Host.Outcome State Fault Refusal := hostRow 0x0D04 (imageCommitBody imageRefusal)

end Sys2Proof.Machine
end

