-- ==== Sys2Proof/Machine/TwinOps.lean ====
section
/-! DEFINITION. The twin pair as shared operations: role and partner, items, snapshots, takeover; and the TWIN commands
(15 R485 to R498). -/
namespace Sys2Proof.Machine

def modTwin (f : Twin → Twin) (s : State) : State := { s with twin := f s.twin }

/-! ### Role and partner (15 R489, R490) -/

/-- The partner as TWIN_STATUS codes it: 0 unknown, 1 up, 2 HB_FAULT, 3 LINK_FAULT, 4 lost. -/
def partnerNow (s : State) : Nat :=
  if s.twin.lastPulse = 0 ∧ s.twin.lastItem = 0 then 0
  else if s.twin.hbLost ∧ s.twin.linkLost then 4
  else if s.twin.hbLost then 2
  else if s.twin.linkLost then 3
  else 1

/-- The digest of the loaded image, 64 bytes; 0 if none. -/
def loadedDigest (s : State) : Bytes := if s.image.isSome then fit 64 s.boot.imageDigest else zeros 64

/-- Both parts hold the same loaded image. -/
def sameImage (s : State) : Bool := s.twin.partnerImage == loadedDigest s

/-- The state that the part is in now. A primary is synced while its snapshot has been acknowledged, the partner reports no syncing and
neither heartbeat nor link is lost; a standby is ready once it has acknowledged a snapshot and holds the same image (15 R487, R490). -/
def roleNow (s : State) : Nat :=
  if isPrimary s then
    if s.twin.snapEnd ≠ 0 ∧ s.twin.snapEnd ≤ s.twin.acked ∧ sameImage s ∧ !s.twin.hbLost ∧ !s.twin.linkLost ∧ s.twin.pulseCode ≠ 4
    then 1 else 2
  else if isStandby s then (if s.twin.snapDone ∧ !s.twin.snapshot ∧ sameImage s then 3 else 4)
  else s.twin.state

/-- The state changes, with event 4, and TWIN_ACTIVE follows. -/
def setRole (n : Nat) (s : State) : State :=
  if s.twin.state = n then s else funcPins (fltEvent 4 0 (modTwin (fun t => { t with state := n }) s))

/-- The partner's state changes, with event 5. -/
def setPartner (s : State) : State :=
  let n := partnerNow s
  if s.twin.partner = n then s else fltEvent 5 0 (modTwin (fun t => { t with partner := n }) s)

/-- What the latest pulses, items and judgements make of role and partner. -/
def settleTwin (s : State) : State :=
  let s := setPartner s
  setRole (roleNow s) s

/-! ### Judgements (15 R490) -/

/-- HB_MISS × HB_PERIOD. -/
def judgeSpan (s : State) : Nat := par s 0x0C000016 * par s 0x0C000015

/-- A judgement's DEADLINE is posted anew, due a window after the stamp; one already handed over finds the arrival. -/
def postJudge (u : SlotUse) (st : Nat) (s : State) : State :=
  let s := (slotsFor s u).foldl (fun s n =>
    match slotAt s n with
    | some sl => if handedOver s sl then modSlot n (fun x => { x with arrival := x.arrival.or (some st) }) s else freeSlot n s
    | none => s) s
  addSlot (newSlot s (st + judgeSpan s) 0x06 1 0x10 0 (Config.unitTally 0 % 1024) .housekeeping u) s

/-! ### Items a part sends (15 R486, R487) -/

/-- HELLO: identity, variant, role, digests of the loaded and the staged image (log 83). -/
def helloBody (s : State) : Bytes :=
  pack [(2, identityLow), (1, s.variant.code), (1, s.twin.state)] ++ loadedDigest s ++ fit 64 (stagedDigest s)

/-- A link starts: items count from 1 again, and HELLO is the first. -/
def startLink (s : State) : State :=
  mirror 1 (helloBody s) (modTwin (fun t => { t with mseq := 0, acked := 0, sentItems := [], received := 0, nakFrom := none, snapEnd := 0 }) s)

/-- A part of a snapshot's state: its type, length, and bytes (log 83). -/
def part (t : Nat) (b : Bytes) : Bytes := pack [(1, t), (3, 0), (4, b.length)] ++ b

/-- Latest epoch and history, and the epoch in use by each stream and job. -/
def epochPart (s : State) : Bytes :=
  (List.range 16).flatMap (fun i =>
    let e := nth s.cmd.epochs i ⟨0, 0, 0⟩
    pack [(4, e.epoch), (4, e.changed), (8, e.stamp)])
  ++ s.cmd.streamEpochs.flatMap (le 4) ++ s.cmd.jobEpochs.flatMap (le 4)

/-- FLAT_LOAD of a table of an open stream. -/
def flatParams (k c : Nat) (f : FlatTable) : Bytes :=
  pack [(1, k), (1, c), (2, 0)] ++ f.entries.flatMap (fun e => pack [(2, e.2), (2, e.1)])

/-- The open set of a primary: its open streams, then their flat-field tables. -/
def openCommands (s : State) : List (Nat × Bytes) :=
  (openStreams s).map (fun k => (0x0201, pack [(1, k), (3, 0)]))
  ++ (openStreams s).flatMap (fun k => (streamAt s k).flats.map (fun e => (0x0203, flatParams k (e.1 % 8) e.2)))

/-- What SNAPSHOT_BEGIN carries: epochs, posted parameters but for those of twin operation itself, the open set, grammars with their
class tables, bindings, stop sets. -/
def snapshotBody (s : State) : Bytes :=
  part 1 (epochPart s)
  ++ (s.cmd.posted.filter (fun e => changeOf s e.1 != .t)).flatMap (fun e => part 2 (pack [(4, e.1), (4, 0), (8, e.2)]))
  ++ (openCommands s).flatMap (fun e => part 3 (le 2 e.1 ++ e.2))
  ++ s.text.classTables.flatMap (fun e => part 4 (le 1 e.1 ++ e.2))
  ++ s.text.grammars.flatMap (fun e => part 5 (le 1 e.1 ++ e.2))
  ++ s.text.bindings.flatMap (fun e => part 6 (pack [(2, e.1.1), (2, e.1.2), (1, e.2.1), (1, e.2.2)]))
  ++ s.text.stops.flatMap (fun e => part 7 (le 1 e.1 ++ e.2))

/-- The BLOB item of adapters being activated. -/
def mirrorAdapters (reading learn : Nat) (s : State) : State :=
  let d := draw s
  mirror 7 (pack [(1, 3), (1, learn), (1, reading), (1, 0)] ++ Config.adapterWeights learn d.1) d.2

/-- A record goes again in a snapshot, and waits for its new acknowledgement. -/
def mirrorAgain (r : OutRecord) (s : State) : State :=
  let s := mirror 5 r.bytes s
  modRecord r (fun x => { x with mirrored := s.twin.mseq }) s

/-- A full resynchronisation. -/
def sendSnapshot (s : State) : State :=
  let s := mirror 10 (snapshotBody s) s
  let s := mirror 1 (helloBody s) s
  let s := s.slab.prefixes.foldl (fun s e => mirror 7 (blobShare s e.1) s) s
  let s := s.serv.adapters.foldl (fun s e => mirrorAdapters e.1 e.2 s) s
  let s := (s.out.records.filter (fun r => r.kind != 0)).foldl (fun s r => mirrorAgain r s) s
  let s := mirror 11 [] s
  modTwin (fun t => { t with snapEnd := t.mseq }) s

/-! ### Takeover (15 R492, R493) -/

/-- A side of the mirror has no record of its own, or one that leaves something pending. -/
def MirroredSide.owes (m : MirroredSide) : Bool := !m.recorded || m.pending

/-- The side stands for its notice with 0x07C5. -/
def noticeSide (m : MirroredSide) (s : State) : State :=
  let e : EdgeRec :=
    { sheet := m.sheet, epoch := nth s.cmd.streamEpochs m.stream 0, t0 := m.t0, trail := 0, skewLead := none, skewTrail := none
      xMin := none, xMax := none, length := 0, skewFinal := false, skewOver := false, speedLow := false, subst := false
      replay := m.replayOf != 0, frameEndMissing := false, substLines := 0, replayOf := m.replayOf }
  { s with prep := { s.prep with sheets := s.prep.sheets ++ [newSheet s m.stream e (some 0x07C5)] } }

/-- A retained record goes out unchanged. -/
def queueRetained (r : Retained) (s : State) : State :=
  let x : OutRecord :=
    { no := r.recordNo, kind := byteAt r.bytes 0, sheet := leAt r.bytes 8 4, stream := r.stream, port := opar s r.stream 0x00
      vc := opar s r.stream 0x01, commit := leAt r.bytes 32 8, bytes := r.bytes, launched := true, queued := true, sentBytes := 0
      frame := 0, mirrored := 0 }
  modEntries (fun k => k == .record r.recordNo) (fun e => { e with retained := false })
    { s with out := { s.out with records := s.out.records ++ [x] } }

/-- The record number is above the last one sent. -/
def aboveSent (s : State) (no : Nat) : Bool := s.twin.lastSent == 0 || earlier s.twin.lastSent no

/-- The stream commands of the open set. -/
def openBody (opcode : Nat) : Body :=
  if opcode = 0x0201 then streamOpenBody else if opcode = 0x0203 then flatLoadBody else speedSetBody

/-- The standby becomes primary and solo. -/
def takeOver (s : State) : State :=
  let t := s.twin
  let s := setRole 2 s
  let s := { s with
    flt := { s.flt with takeovers := inc32 s.flt.takeovers 1 }
    out := { s.out with nextRecord := if t.topRecord = 0 then s.out.nextRecord else nextNumber t.topRecord }
    intk := { s.intk with nextSheet := if t.topSheet = 0 then s.intk.nextSheet else Nat.max s.intk.nextSheet (t.topSheet + 256) } }
  let s := (t.sides.filter MirroredSide.owes).foldl (fun s m => noticeSide m s) s
  let s := (t.retained.filter (fun r => aboveSent s r.recordNo)).foldl (fun s r => queueRetained r s) s
  let s := modTwin (fun x => { x with
    handover := false, lastBeat := 0, sides := [], retained := [], openSet := [], snapshot := false, snapDone := false, snapEnd := 0 }) s
  t.openSet.foldl (fun s e => runPacket (openBody e.1) ⟨0x02, e.1, 0, 0, e.2, stamp s, none⟩ s) s

/-! ### TWIN commands (15 R496, R498) -/

/-- KiB that a part retains: a standby's records, a primary's unacknowledged items. -/
def retainedKib (s : State) : Nat :=
  ceilDiv (if isStandby s then s.twin.retained.foldl (fun n r => n + r.bytes.length) 0
    else s.twin.sentItems.foldl (fun n i => n + i.body.length) 0) 1024

/-- TWIN_STATUS. -/
def twinStatusBody (p : Packet) (s : State) : Reply :=
  if p.params ≠ [] then .refuse 0x01C0 []
  else
    let t := s.twin
    .ok (pack [(1, t.state), (1, t.partner), (2, 0), (4, t.mseq), (4, t.acked), (4, t.received), (8, t.lastPulse), (8, t.lastItem),
      (4, retainedKib s), (2, t.partnerId), (2, 0)]) s

/-- TWIN_TAKEOVER: a standby takes over at once, ready or not. -/
def twinTakeoverBody (p : Packet) (s : State) : Reply :=
  if p.params ≠ [] then .refuse 0x01C0 []
  else if !isStandby s then .refuse 0x04C4 []
  else .ok [] (takeOver s)

/-- TWIN_HANDOVER: a synced primary refuses new sides from now on. -/
def twinHandoverBody (p : Packet) (s : State) : Reply :=
  if p.params ≠ [] then .refuse 0x01C0 []
  else if s.twin.state ≠ 1 then .refuse 0x04C4 []
  else .ok [] (modTwin (fun t => { t with handover := true }) s)

/-- TWIN_STATUS. -/
def execTwinStatus : Nat → Hdr → Bytes → State → Host.Outcome State Fault Refusal := hostRow 0x0C03 twinStatusBody
/-- TWIN_TAKEOVER. -/
def execTwinTakeover : Nat → Hdr → Bytes → State → Host.Outcome State Fault Refusal := hostRow 0x0C04 twinTakeoverBody
/-- TWIN_HANDOVER. -/
def execTwinHandover : Nat → Hdr → Bytes → State → Host.Outcome State Fault Refusal := hostRow 0x0C05 twinHandoverBody

end Sys2Proof.Machine
end

