-- ==== Sys2Proof/Machine/CmdDispatch.lean ====
section
/-! DEFINITION. Opcodes and their bodies, the packets that wait, and REPLY_READ (13 R396, R399, R402; 16 R510). -/
namespace Sys2Proof.Machine

/-- The body of an opcode (13 R402). -/
def bodyOf (opcode : Nat) : Body :=
  match opcode with
  | 0x0101 => timeReadBody
  | 0x0102 => slotPostBody
  | 0x0103 => slotCancelBody
  | 0x0104 => slotQueryBody
  | 0x0201 => streamOpenBody
  | 0x0202 => streamCloseBody
  | 0x0203 => flatLoadBody
  | 0x0204 => speedSetBody
  | 0x0205 => streamStatusBody
  | 0x0301 => regionPostBody
  | 0x0302 => augPostBody
  | 0x0303 => steerSetBody
  | 0x0304 => prepStatusBody
  | 0x0401 => coreStatusBody
  | 0x0402 => tallyQueryBody
  | 0x0403 => tallySignalBody
  | 0x0404 => tallyArmBody
  | 0x0405 => tallySetBody
  | 0x0410 => qpQueryBody
  | 0x0411 => qpSetBody
  | 0x0601 => seqOpenBody
  | 0x0602 => seqCloseBody
  | 0x0603 => seqCommitBody
  | 0x0604 => seqEnterBody
  | 0x0605 => stepRetireBody
  | 0x0606 => slabReserveBody
  | 0x0607 => prefixShareBody
  | 0x0608 => prefixDropBody
  | 0x0609 => seqQueryBody
  | 0x060A => slabQueryBody
  | 0x060B => slabStatusBody
  | 0x0701 => jobStatusBody
  | 0x0702 => lineQueryBody
  | 0x0703 => learnPostBody
  | 0x0704 => learnControlBody
  | 0x0801 => textTokenizeBody
  | 0x0802 => textDetokenizeBody
  | 0x0803 => grammarBindBody
  | 0x0804 => stopSetBody
  | 0x0805 => grammarLoadBody
  | 0x0806 => grammarQueryBody
  | 0x0901 => outStatusBody
  | 0x0A01 => paramReadBody
  | 0x0A02 => paramWriteBody
  | 0x0A03 => epochPostBody
  | 0x0A04 => epochDiscardBody
  | 0x0A05 => epochStatusBody
  | 0x0A06 => adapterActivateBody
  | 0x0A07 => resourceQueryBody
  | 0x0A10 => mboxWriteBody
  | 0x0A11 => mboxReadBody
  | 0x0A12 => mboxRingBody
  | 0x0A13 => mboxDbReadBody
  | 0x0A14 => mboxConfigBody
  | 0x0A15 => mboxQueryBody
  | 0x0A16 => mboxFlushBody
  | 0x0B01 => pwrStateBody
  | 0x0B02 => pwrStatusBody
  | 0x0B03 => ageQueryBody
  | 0x0B04 => ageReplanBody
  | 0x0C01 => faultLogBody
  | 0x0C02 => faultInjectBody
  | 0x0C03 => twinStatusBody
  | 0x0C04 => twinTakeoverBody
  | 0x0C05 => twinHandoverBody
  | 0x0C06 => frzReadBody
  | 0x0D01 => secIdentityBody
  | 0x0D02 => secAttestBody
  | 0x0D03 => imageWriteBody
  | 0x0D04 => imageCommitBody imageRefusal
  | 0x0D05 => imageActivateBody
  | 0x0D06 => profileStoreBody
  | 0x0D07 => secRebootBody
  | 0x0D08 => svnCommitBody
  | 0x0D09 => keyUpdateBody
  | 0x0E01 => pinStatusBody
  | 0x0E02 => clockStatusBody
  | _ => fun _ _ => .refuse 0x01A3 []

/-- Packets execute in arrival order while the first can; PWR_STATE Sleep completes once it is answered. -/
def pumpPackets : Nat → State → State
  | 0, s => s
  | n + 1, s =>
    match s.cmd.packets with
    | [] => s
    | p :: ps =>
      if !hears s || cannotRun p s then touchFront s
      else
        let t := { s with cmd := { s.cmd with packets := ps } }
        pumpPackets n (finishSleep (runPacket (bodyOf p.opcode) p t))

/-- The packets that wait get their turn. -/
def runHeld (s : State) : State := pumpPackets s.cmd.packets.length s

/-- A command of firmware, and the status of its reply (16 R510). -/
def runFirmware (opcode : Nat) (params : Bytes) (s : State) : State :=
  runPacket (bodyOf opcode) ⟨0x10, opcode, 0, 0, params, stamp s, none⟩ s
def firmwareStatus (s : State) : Nat := leAt s.cmd.fwReply 8 2

/-- The target answers a read: under its dynamic address, or under its static one until it has had a dynamic one (13 R389). -/
def answersRead (s : State) : Bool := hears s && (s.cmd.dynAddr != 0 || !s.cmd.everAssigned)

/-- REPLY_READ (13 R399): bytes of the oldest reply, at most `max` and the maximum read length. An empty queue NACKs. -/
def execReplyRead (dt max : Nat) (s : State) : Host.Outcome State Fault Refusal :=
  let s := advance dt s
  .next (match s.cmd.replies with
    | [] => s
    | r :: rs =>
      if !answersRead s then s
      else
        let n := Nat.min max s.cmd.mrl
        let left := if r.length ≤ n then rs else r.drop n :: rs
        let t := { s with cmd := { s.cmd with lastRead := r.take n, replies := left } }
        runHeld (if left.isEmpty then rearmIbi 0x01 0 t else t))

/-- DOMAIN_READY (14 R435): the exit latency has passed, and commands that stalled on the domain go on (13 R396). -/
def execDomainReady (dt domain : Nat) (s : State) : Host.Outcome State Fault Refusal :=
  let s := advance dt s
  .next (if awake s then runHeld (domainReady domain s) else s)

end Sys2Proof.Machine
end

