-- ==== Sys2Proof/Machine/Boot.lean ====
section
/-! DEFINITION. Resets, the boot sequence and its profile, stream discovery, and the application of a quiet epoch
(02 R18, R20; 13 R411, R418; 16 R509 to R517; 17 R534). -/
namespace Sys2Proof.Machine

/-! ### Resets -/

/-- POWER_ON_RESET (17 R534; 13 R389): only the flash and the fuses keep their contents; `asel` is {I3C_ASEL1, I3C_ASEL0}. -/
def execPowerOnReset (_dt asel : Nat) (s : State) : Host.Outcome State Fault Refusal :=
  .next { State.reset with
    pending := s.pending
    variant := s.variant
    freeCtr := s.freeCtr
    flash := s.flash
    fuses := s.fuses
    cmd := { Command.reset with staticAddr := 0x2C + asel % 4 } }

/-- The block as a new boot finds it (02 R20): what lies outside the boot's reach is kept (log 88). -/
def newBoot (s : State) : State :=
  { State.reset with
    pending := s.pending
    variant := s.variant
    freeCtr := s.freeCtr
    flash := s.flash
    fuses := s.fuses
    ddr := s.ddr
    jtag := s.jtag
    cmd := { Command.reset with
      staticAddr := s.cmd.staticAddr, dynAddr := s.cmd.dynAddr, everAssigned := s.cmd.everAssigned
      enint := s.cmd.enint, mwl := s.cmd.mwl, mrl := s.cmd.mrl }
    pwr := { Power.reset with
      mode := .running
      wakeFrom := s.pwr.wakeFrom, wakeCause := s.pwr.wakeCause, wakeDomain := s.pwr.wakeDomain, wakesRc := s.pwr.wakesRc
      ages := (s.flash.plan.map Prod.fst).getD Power.reset.ages
      poweredNs := (s.flash.plan.map (fun p => p.2.1)).getD 0
      poweredTotal := (s.flash.plan.map (fun p => p.2.2)).getD 0 }
    flt := { Faults.reset with prior := s.flt.prior }
    pins := { Pins.reset with
      levels := (List.range 16).map (fun p => nth s.pins.levels p false && !nth s.pins.driven p false)
      outHold := s.pins.outHold }
    clk := { Clock.reset with
      tbRun := true, tbLock := true, refOk := true, cold := false
      aonOk := s.clk.aonOk || s.clk.cold, calOpen := s.clk.aonOk || s.clk.cold, ticks := s.clk.ticks } }

/-- A boot is due and its PLL has not locked: after a reset, or behind an action-B fault. -/
def lockDue (s : State) : Bool := s.boot.due && (!s.clk.tbLock || (s.boot.stage != 0 && !s.flt.frozen))

/-- PLL_LOCK (02 R18, R20): TB starts at 0. -/
def execPllLock (dt : Nat) (s : State) : Host.Outcome State Fault Refusal :=
  let s := advance dt s
  .next (if lockDue s then newBoot s else s)

/-! ### Firmware and image (16 R509, R511) -/

def modBoot (f : BootState → BootState) (s : State) : State := { s with boot := f s.boot }

/-- A verification at boot that fails leaves its status. -/
def noteFailure (r : Option Nat) (s : State) : State :=
  match r with
  | some st => modBoot (fun b => { b with lastStatus := st }) s
  | none => s

/-- The boot ROM stays in control, and answers what R511 lets it. -/
def recoveryMode (s : State) : State := runHeld (modBoot (fun b => { b with stage := 7, due := false }) s)

/-- Firmware of the slot runs. -/
def runSlot (i : Nat) (fallback : Bool) (s : State) : State :=
  let c := slotContainer s i
  modBoot (fun b => { b with stage := 2, fwSlot := i, fwFallback := fallback, fwDigest := containerDigest c, fwSvn := byteAt c 4 }) s

/-- Step 2: the preferred firmware, else the other; none where neither verifies. -/
def chooseFirmware (s : State) : Option State :=
  let p := (dirNow s).preferredFw
  let first := slotRefusal imageRefusal 1 p s
  if first.isNone then some (runSlot p false s)
  else
    let s := noteFailure first s
    if (slotRefusal imageRefusal 1 (1 - p) s).isNone then some (runSlot (1 - p) true s) else none

/-- An image slot holds a committed image that verifies: the status of the failure otherwise, 0 where it is not committed. -/
def imageSlotRefusal (i : Nat) (s : State) : Option Nat :=
  if slotMark s i ≠ .committed then some 0 else slotRefusal imageRefusal 2 i s

/-- LAST_STATUS after an image slot that is not taken. -/
def noteImageFailure (r : Option Nat) (s : State) : State := noteFailure (r.filter (· ≠ 0)) s

/-- Step 5: the slot of the active image, else the other, which then becomes the active one. -/
def chooseImage (s : State) : Option Nat × State :=
  let a := 2 + (dirNow s).activeImage
  let o := inactiveSlot s 2
  let first := imageSlotRefusal a s
  if first.isNone then (some a, s)
  else
    let s := noteImageFailure first s
    let second := imageSlotRefusal o s
    if second.isNone then
      (some o, writeDir (fun d => { d with activeImage := o - 2 }) (modBoot (fun b => { b with imageFallback := true }) s))
    else (none, noteImageFailure second s)

/-- The image of a slot is loaded. -/
def loadSlot (i : Nat) (s : State) : State :=
  let c := slotContainer s i
  noteImage i c (loadImage (Config.imageBody (containerBody c)) s)

/-! ### The machine that firmware sets up -/

/-- Step 4: standing charges under the budgets of the table defaults (14 R445, R446). -/
def powerUp (s : State) : State :=
  standingCharges { s with pwr := { s.pwr with budgetsSet := true, budgets := postedBudgets s } }

/-- Step 6: a compute stack is woken. -/
def wakeStack (s : State) (k : Nat) : State :=
  let s := setStack k .awake (hold 1 16 (.dieStanding k) (setSram k (sramUnits s) s))
  { (List.range 32).foldl (fun s i => modCore (32 * k + i) (fun c => { c with state := 1 }) s) s with
    clk := { s.clk with replicaOk := setNth s.clk.replicaOk k true } }

def wakeStacks (s : State) : State := (List.range s.variant.stackDies).foldl wakeStack s

/-- Bits of an ACL, from stamped sender IDs (13 R417). -/
def aclOf (l : List Nat) : Nat := maskOf (l.filterMap aclBit)

def controlCores : List Nat := [0x10, 0x11, 0x12, 0x13]
def allAgents : List Nat := (List.range 16).map (0x20 + ·)
def deviceSenders : List Nat := [0x02, 0x10, 0x11, 0x12, 0x13, 0x14, 0x15, 0x16, 0x18] ++ allAgents

/-- RECEIVER, ACL and DEPTH of a channel at boot (13 R418). -/
def bootChannel (half : Bool) (c : Nat) : Nat × List Nat × Nat :=
  if c = 0 then (0x01, deviceSenders, 64)
  else if c = 1 then (0x01, [0x16], 64)
  else if c ≤ 7 then (0x01, controlCores, 64)
  else if c ≤ 11 then (0x10 + (c - 8), 0x01 :: deviceSenders, 64)
  else if c = 12 then (0x18, 0x01 :: 0x16 :: controlCores, 64)
  else if c ≤ 28 then (if half && decide (21 ≤ c) then 0 else 0x20 + (c - 13), 0x16 :: controlCores, 32)
  else if c = 29 then (0x02, controlCores, 64)
  else (0, [], 64)

/-- Firmware configures the channels. -/
def setChannels (s : State) : State :=
  { s with cmd := { s.cmd with chans := (List.range 32).map (fun c =>
      let b := bootChannel s.variant.half c
      { Channel.reset with receiver := b.1, acl := aclOf b.2.1, depth := b.2.2, ibi := decide (c ≤ 1) }) } }

/-- The WATCH slot of supervisor 3 (02 R36). -/
def watchControlCores (s : State) : State :=
  addSlot { newSlot s (stamp s + 10000000) 0x0C 3 0x10 0 0 .housekeeping (.watch 3) with period := 10000000, count := 0xFFFF }
    { s with flt := { s.flt with watchdog := List.replicate 4 (stamp s) } }

/-- Epoch 1 is the table defaults (16 R510). -/
def firstEpoch (s : State) : State :=
  { s with
    cmd := { s.cmd with
      epochs := [⟨1, 0, stamp s⟩], deviceEpoch := 1, streamEpochs := List.replicate 12 1
      jobEpochs := List.replicate 16 1, classEpochs := List.replicate 16 1 }
    intk := { s.intk with streams := s.intk.streams.map (fun t => { t with epoch := 1 }) } }

/-! ### The profile (16 R512, R513) -/

/-- One entry of R404. -/
def paramEntry (id v : Nat) : Bytes := pack [(4, id), (4, 0), (8, v)]

/-- The factory profile: IMAGE, LINES and TEXT of every stream; AUTO_OPEN. -/
def factoryProfile : Bytes :=
  let b := pack [(2, 1), (2, 1), (2, 12), (2, 0), (8, 0)] ++ (List.range 12).flatMap (fun k => paramEntry (0x09000004 + k * 0x10000) 0x98)
  b ++ le 4 (crc32c b)

def profileOk (b : Bytes) : Bool := profileRange b && profileFormat b

/-- A command of firmware is issued; one that is refused is reported by event 5 with its status. -/
def tryFirmware (opcode : Nat) (params : Bytes) (s : State) : State :=
  let t := runFirmware opcode params s
  if firmwareStatus t = 0 then t else secEvent 5 (firmwareStatus t) t

/-- One-entry PARAM_WRITEs, in order. -/
def applyProfile (b : Bytes) (s : State) : State :=
  (List.range (leAt b 4 2)).foldl (fun s i => tryFirmware 0x0A02 (pack [(2, 1), (2, 0)] ++ (b.drop (16 + 16 * i)).take 16) s) s

/-- The epoch of what the profile has staged. -/
def postProfile (s : State) : State := if s.cmd.staged = [] then s else runFirmware 0x0A03 (zeros 16) s

/-- Steps 3 and 4: the streams of OPEN_MASK, then AUTO_OPEN, unless the host has taken the intake (R515). -/
def finishProfile (mask : Nat) (auto : Bool) (s : State) : State :=
  let s := if s.image.isNone then s else
    (bitsOf 12 mask).foldl (fun s k => tryFirmware 0x0201 (pack [(1, k), (3, 0)]) s) s
  let v := b2n (auto && !s.boot.hostTookIntake)
  { s with cmd := { s.cmd with
      posted := Tab.set s.cmd.posted 0x0D000005 v, inForce := Tab.set s.cmd.inForce 0x0D000005 v } }

/-- The ready stamp; with twin operation, the part listens before steps 3 and 4 (15 R495). -/
def getReady (mask : Nat) (auto : Bool) (s : State) : State :=
  let s := modBoot (fun b => { b with ready := true, readyTb := stamp s, due := false, stage := if s.image.isSome then 6 else 8 }) s
  let s := if s.twin.listening.isSome then
      { modTwin (fun t => { t with listening := some (stamp s + 3 * par s 0x0C000015) }) s with
        boot := { s.boot with awaitRole := some (mask, auto) } }
    else finishProfile mask auto s
  runHeld (funcPins s)

/-- Event 4 where a condition holds. -/
def fallbackEvent (c : Bool) (st : Nat) (s : State) : State := if c then secEvent 4 st s else s

/-- Step 7: profile and ready stamp. `prof` is the record applied. -/
def profileStep (s : State) : State :=
  let good := profileOk s.flash.profile
  let b := if good then s.flash.profile else factoryProfile
  let s := modBoot (fun x => { x with profileFactory := !good, profileDigest := sha3 b }) s
  let s := fallbackEvent s.boot.fwFallback s.boot.lastStatus s
  let s := fallbackEvent (s.boot.imageFallback || s.image.isNone) s.boot.lastStatus s
  let s := fallbackEvent (!good) 0x06D1 s
  getReady (leAt b 6 2) (bit (leAt b 2 2) 0) (postProfile (applyProfile b s))

/-- Firmware's part of the boot. -/
def firmwareBoot (s : State) : State :=
  let s := { s with clk := { s.clk with tbValid := true } }
  let s := watchControlCores (setChannels (firstEpoch (powerUp s)))
  let c := chooseImage s
  let s := wakeStacks c.2
  profileStep (match c.1 with | some i => loadSlot i s | none => s)

/-- BOOT (16 R509): the boot number is written, and the sequence runs to the ready stamp or to recovery. -/
def execBoot (dt : Nat) (s : State) : Host.Outcome State Fault Refusal :=
  let s := advance dt s
  .next (if awake s && s.clk.tbLock && s.boot.due && s.boot.stage == 0 then
      match directory s with
      | none => recoveryMode s
      | some _ =>
        let s := writeDir (fun d => { d with bootNumber := (d.bootNumber + 1) % 2 ^ 32 }) s
        (match chooseFirmware s with
        | some t => firmwareBoot t
        | none => recoveryMode (noteFailure (slotRefusal imageRefusal 1 (1 - (dirNow s).preferredFw) s) s))
    else s)

/-! ### Discovery (16 R514, R515) -/

/-- The default pair of a stream. -/
def defaultPair (s : State) (k : Nat) : Nat × Nat := if s.variant.half then (k / 4, k % 4) else (k / 2, k % 2)

/-- Discovery watches the default pair of the stream. -/
def discovers (s : State) (k : Nat) : Bool :=
  let p := defaultPair s k
  awake s && s.boot.ready && s.image.isSome && par s 0x0D000005 == 1 && !s.boot.hostTookIntake && s.boot.awaitRole.isNone
    && !isStandby s && decide (k < 12) && (streamAt s k).state == 0 && (rxOwner s p.1 p.2).1 != 4

/-- The C writes of discovery: ID and value. -/
def seenWrites (s : State) (k : Nat) (x : PairSeen) : List (Nat × Nat) :=
  let port := (defaultPair s k).1
  let lane := if (onPort s port).isEmpty then
      [(0x02F00001 + port * 0x100, x.lanes), (0x02F00002 + port * 0x100, 10 * ceilDiv (2 * x.clock) 10000)] else []
  let ch : Nat × Nat := if x.dataType = 0x24 then (0, 3) else if 2 ≤ x.group ∧ x.group ≤ 4 then (1, x.group) else (0, 1)
  let id := 0x02000000 + k * 0x10000
  lane ++ [(id, b2n x.frame), (id + 3, x.dataType), (id + 4, ch.2), (id + 5, ch.1), (id + 6, 0)]

/-- A pair that carries traffic is set and opened: event 1, or event 5 and a retry after 1 s. -/
def discover (k : Nat) (x : PairSeen) (s : State) : State :=
  let refused := fun (t : State) =>
    secEvent 5 (firmwareStatus t) (modBoot (fun b => { b with discovery := setNth b.discovery k ⟨some (stamp t)⟩ }) t)
  let w := seenWrites s k x
  let s := runFirmware 0x0A02 (pack [(2, w.length), (2, 0)] ++ w.flatMap (fun e => paramEntry e.1 e.2)) s
  if firmwareStatus s ≠ 0 then refused s
  else
    let s := runFirmware 0x0201 (pack [(1, k), (3, 0)]) s
    if firmwareStatus s ≠ 0 then refused s
    else secEvent 1 0 (modBoot (fun b => { b with discovery := setNth b.discovery k ⟨none⟩ }) s)

def refusedAt (s : State) (k : Nat) : Option Nat := (nth s.boot.discovery k ⟨none⟩).refusedAt

/-- STREAM_DISCOVERY: 16 complete lines on a pair that has not been refused. -/
def execStreamDiscovery (dt k : Nat) (x : PairSeen) (s : State) : Host.Outcome State Fault Refusal :=
  let s := advance dt s
  .next (if discovers s k && decide (16 ≤ x.lines) && (refusedAt s k).isNone then discover k x s else s)

/-- DISCOVERY_RETRY: 1 s after the refusal. -/
def execDiscoveryRetry (dt k : Nat) (x : PairSeen) (s : State) : Host.Outcome State Fault Refusal :=
  let s := advance dt s
  .next (match refusedAt s k with
    | some t => if discovers s k && decide (16 ≤ x.lines) && decide (t + 1000000000 ≤ s.clk.tb) then discover k x s else s
    | none => s)

/-! ### The quiet epoch (13 R411; 16 R517) -/

/-- The side holds the window open: its record, or its notice after a discard that no fault made, is still owed. -/
def holdsWindow (h : Sheet) : Bool :=
  !h.refusedSide && (match h.dead with
    | none => !h.recorded
    | some st => !h.noticed && st / 0x100 != 7)

/-- The window is open and nothing holds it. -/
def quietReady (s : State) : Bool :=
  match s.cmd.quiet with
  | some q => q.state == 2 && !s.prep.sheets.any holdsWindow && !stepInFlight s
  | none => false

/-- A quiet item is applied. -/
def applyItem (i : QuietItem) (s : State) : State :=
  match i with
  | .adapters learn reading =>
    let s := { s with serv := { s.serv with adapters := s.serv.adapters.filter (fun e => e.1 != reading) ++ [(reading, learn)] } }
    if isPrimary s then mirrorAdapters reading learn s else s
  | .image =>
    let i := s.boot.stagedImage.getD (inactiveSlot s 2)
    let s := modBoot (fun b => { b with stagedImage := none }) (loadSlot i s)
    secEvent 3 0 (writeDir (fun d => { d with activeImage := i - 2 }) s)

/-- Every unit adopts the epoch at one stamp. -/
def adoptAll (n : Nat) (s : State) : State :=
  let v := s.cmd.posted.filter (fun e => e.1 / 0x1000000 == 0x07 || e.1 / 0x1000000 == 0x08)
  let s := postText s
  { s with
    cmd := { s.cmd with
      inForce := s.cmd.posted, deviceEpoch := n, streamEpochs := List.replicate 12 n, jobEpochs := List.replicate 16 n
      classEpochs := List.replicate 16 n, jobParams := List.replicate 16 v }
    intk := { s.intk with streams := s.intk.streams.map (fun t => { t with epoch := n }) }
    pwr := { s.pwr with budgetDue := if postedBudgets s = s.pwr.budgets then s.pwr.budgetDue else some (stamp s) } }

/-- The window ends: items, adoption, event 3. -/
def endWindow (q : Quiet) (s : State) : State :=
  let s := adoptAll q.epoch (q.items.foldl (fun s i => applyItem i s) s)
  let ch := ((s.cmd.epochs.find? (fun e => e.epoch == q.epoch)).map EpochRec.changed).getD 0
  cmdEvent 3 0xFF 0 q.epoch ch q.refused { s with cmd := { s.cmd with quiet := none } }

/-- QUIET_APPLY. -/
def execQuietApply (dt : Nat) (s : State) : Host.Outcome State Fault Refusal :=
  let s := advance dt s
  .next (match s.cmd.quiet with
    | some q => if awake s && quietReady s then endWindow q s else s
    | none => s)

end Sys2Proof.Machine
end

