-- ==== Sys2Proof/Machine/Deadline.lean ====
section
/-! DEFINITION. DEADLINE actions: who wins, and what a timeout does to its owner (02 R49; 03 R86; 10 R312, R314, R317; 15 R490). -/
namespace Sys2Proof.Machine

/-- The stamp of the awaited arrival, where one has come: that of a tally is REACHED (05 R148). -/
def arrivalOf (s : State) (sl : Slot) : Option Nat :=
  if sl.index = 1 then (let r := (tallyAt s sl.arg0).reached; if r = 0 then none else some r) else sl.arrival

/-- The arrival wins where it is stamped at or before D (02 R49). -/
def arrivalWins (s : State) (sl : Slot) : Bool :=
  match arrivalOf s sl with
  | some a => decide (a ≤ sl.now)
  | none => false

/-- A side whose trailing edge has not been confirmed by `d` is discarded (03 R86). -/
def edgeTimedOut (k d : Nat) (s : State) : State :=
  match (streamAt s k).side with
  | some x =>
    let stall := match (streamAt s k).lastComplete, linePeriod s k with
      | some l, some p => decide (l + 4 * p < d)
      | _, _ => true
    intakeDiscard x.edge.sheet (if stall then 0x0622 else 0x0621) (x.lines - 1) d s
  | none => s

/-- What the owner of the deadline does at a timeout at D. -/
def timedOut (sl : Slot) (s : State) : State :=
  let d := sl.now
  match sl.use with
  | .edgeTimeout k => edgeTimedOut k d s
  | .releaseCheck _ id => modSheet id (fun h => if h.committed.isNone then { h with checkHit := some d } else h) s
  | .secondDeadline _ id => modSheet id (fun h => { h with secondHit := some d }) s
  | .lineDeadline h =>
    (match lineOfHandle s h with
     | some l => modLine l (fun x => if x.state = 2 then { x with deadlineHit := true } else x) s
     | none => s)
  | .hbJudge => settleTwin (modTwin (fun t => { t with hbLost := true }) s)
  | .linkJudge => settleTwin (modTwin (fun t => { t with linkLost := true }) s)
  | _ => s

/-- The evaluation of a DEADLINE: its timeout signals the tally of ARG1 by 1. The launch lies 64 ns before it. -/
def evaluateDeadline (n : Nat) (sl : Slot) (s : State) : State :=
  let won := arrivalWins s sl
  let t := if won then s else timedOut sl (signalTally sl.arg1 1 s)
  finishAt sl.launchAt (sl.launchAt + 64) n sl (!won) won (if won then (arrivalOf s sl).getD 0 else 0) t

/-- DEADLINE (02 R49): evaluated 64 ns after its launch. -/
def execDeadline (dt n : Nat) (s : State) : Host.Outcome State Fault Refusal :=
  let s := advance dt s
  .next (match launchable s 0x06 n with
    | some sl => if sl.launchAt + 64 ≤ s.clk.tb then evaluateDeadline n sl s else s
    | none => s)

end Sys2Proof.Machine
end

