-- ==== Sys2Proof/Machine/I3c.lean ====
section
/-! DEFINITION. The I3C target: addresses, common command codes, in-band interrupts (13 R388 to R391, R401). -/
namespace Sys2Proof.Machine

def modCmd (f : Command → Command) (s : State) : State := { s with cmd := f s.cmd }

/-- The clocked part of the target runs: not in Sleep, nor on the way out of it (13 R390). -/
def targetOn (s : State) : Bool := hears s

/-- A dynamic address may be assigned. -/
def assignable (s : State) (a : Nat) : Bool := targetOn s && s.cmd.dynAddr == 0 && decide (0x08 ≤ a) && decide (a ≤ 0x7D)

def assign (a : Nat) (s : State) : State :=
  if assignable s a then modCmd (fun c => { c with dynAddr := a, everAssigned := true }) s else s

/-- ENTDAA (13 R389). -/
def execEntdaa (dt a : Nat) (s : State) : Host.Outcome State Fault Refusal := .next (assign a (advance dt s))
/-- SETDASA (13 R389). -/
def execSetdasa (dt a : Nat) (s : State) : Host.Outcome State Fault Refusal := .next (assign a (advance dt s))

/-- A code that is heard by broadcast. -/
def broadcast (f : Command → Command) (s : State) : State := if targetOn s then modCmd f s else s

/-- RSTDAA (13 R389). -/
def execRstdaa (dt : Nat) (s : State) : Host.Outcome State Fault Refusal :=
  .next (broadcast (fun c => { c with dynAddr := 0 }) (advance dt s))
/-- ENEC (13 R391): the ENINT bit is bit 0. -/
def execEnec (dt bits : Nat) (s : State) : Host.Outcome State Fault Refusal :=
  .next (broadcast (fun c => { c with enint := c.enint || bit bits 0 }) (advance dt s))
/-- DISEC (13 R391). -/
def execDisec (dt bits : Nat) (s : State) : Host.Outcome State Fault Refusal :=
  .next (broadcast (fun c => { c with enint := c.enint && !bit bits 0 }) (advance dt s))
/-- SETMWL (13 R391). -/
def execSetmwl (dt n : Nat) (s : State) : Host.Outcome State Fault Refusal :=
  .next (broadcast (fun c => { c with mwl := sat 65535 n }) (advance dt s))
/-- SETMRL (13 R391). -/
def execSetmrl (dt n : Nat) (s : State) : Host.Outcome State Fault Refusal :=
  .next (broadcast (fun c => { c with mrl := sat 65535 n }) (advance dt s))
/-- ENTHDR0 (13 R388, R391): HDR-DDR, which a freeze does not offer (15 R481). -/
def execEnthdr0 (dt : Nat) (s : State) : Host.Outcome State Fault Refusal :=
  let s := advance dt s
  .next (if s.flt.frozen then s else broadcast (fun c => { c with hdr := true }) s)

/-- A code that reads from the dynamic address: the bytes go to the bus. -/
def answerCcc (f : State → Bytes) (s : State) : State :=
  if targetOn s ∧ s.cmd.dynAddr ≠ 0 then modCmd (fun c => { c with lastRead := f s }) s else s

/-- Bytes most significant first, as I3C sends numbers (log 13). -/
def be (n v : Nat) : Bytes := (le n v).reverse

/-- The provisioned ID (13 R391). The low 16 bits of the identity digest are bytes 62 and 63, byte 62 high (16 R519). -/
def pid (idLow : Nat) (v : Variant) : Nat := 0x03A6 * 2 ^ 33 + (0x9600 + v.code) * 2 ^ 16 + idLow % 2 ^ 16

/-- GETPID (13 R391). -/
def execGetpid (dt : Nat) (s : State) : Host.Outcome State Fault Refusal :=
  .next (answerCcc (fun s => be 6 (pid identityLow s.variant)) (advance dt s))
/-- GETBCR (13 R388). -/
def execGetbcr (dt : Nat) (s : State) : Host.Outcome State Fault Refusal := .next (answerCcc (fun _ => [0x2E]) (advance dt s))
/-- GETDCR (13 R391). -/
def execGetdcr (dt : Nat) (s : State) : Host.Outcome State Fault Refusal := .next (answerCcc (fun _ => [0x00]) (advance dt s))
/-- GETSTATUS (13 R391): the spec does not state its bits, so they are free (log 2). -/
def execGetstatus (dt : Nat) (s : State) : Host.Outcome State Fault Refusal :=
  let s := advance dt s
  let d := draw s
  .next (if targetOn s ∧ s.cmd.dynAddr ≠ 0 then
    modCmd (fun c => { c with lastRead := be 2 (Config.getStatus d.1).toNat }) d.2 else s)
/-- GETMWL. -/
def execGetmwl (dt : Nat) (s : State) : Host.Outcome State Fault Refusal := .next (answerCcc (fun s => be 2 s.cmd.mwl) (advance dt s))
/-- GETMRL: the maximum read length, then the maximum IBI payload of 4 bytes (13 R388; log 13). -/
def execGetmrl (dt : Nat) (s : State) : Host.Outcome State Fault Refusal :=
  .next (answerCcc (fun s => be 2 s.cmd.mrl ++ [4]) (advance dt s))
/-- GETMXDS. -/
def execGetmxds (dt : Nat) (s : State) : Host.Outcome State Fault Refusal := .next (answerCcc (fun _ => Config.mxds) (advance dt s))
/-- GETCAPS (13 R391). -/
def execGetcaps (dt : Nat) (s : State) : Host.Outcome State Fault Refusal :=
  .next (answerCcc (fun _ => [0x01, BitVec.ofNat 8 Config.i3cVersion.toNat]) (advance dt s))

/-! ### In-band interrupts (13 R401) -/

/-- The order in which causes wait. -/
def ibiRank (mdb : Nat) : Nat := if mdb = 0x04 then 0 else if mdb = 0x01 then 1 else if mdb = 0x03 then 2 else if mdb = 0x02 then 3 else 4

/-- Causes that wait for a request. -/
def pendingIbis (s : State) : List Ibi := s.cmd.ibis.filter (fun i => !i.sent)

/-- The first in that order among those that meet a condition. -/
def firstIbi (p : Ibi → Bool) (s : State) : Option Ibi := (sortBy (fun i => ibiRank i.mdb) ((pendingIbis s).filter p)).head?

/-- The four payload bytes. -/
def ibiPayload (i : Ibi) : Bytes :=
  if i.mdb = 0x02 then pack [(1, i.mdb), (1, i.chan), (1, i.info), (1, 0)]
  else if i.mdb = 0x03 then pack [(1, i.mdb), (1, i.chan), (2, 0)]
  else if i.mdb = 0x01 then pack [(1, i.mdb), (3, 0)]
  else pack [(1, i.mdb), (1, i.info), (2, 0)]

/-- A request is made: the controller takes it, or NACKs it. -/
def requestIbi (p : Ibi → Bool) (nack : Bool) (s : State) : State :=
  if targetOn s ∧ s.cmd.enint ∧ s.cmd.dynAddr ≠ 0 ∧ !s.flt.frozen then
    match firstIbi p s with
    | none => s
    | some i =>
      let j := if nack then { i with nacked := some (stamp s) } else { i with sent := true, nacked := none }
      modCmd (fun c => { c with
        ibis := c.ibis.map (fun x => if x = i then j else x)
        ibiCount := if nack then c.ibiCount else inc32 c.ibiCount 1
        lastRead := if nack then c.lastRead else ibiPayload i }) s
  else s

/-- BUS_FREE (13 R401): the highest pending cause is requested; HDR mode has been left (log 13). -/
def execBusFree (dt : Nat) (nack : Bool) (s : State) : Host.Outcome State Fault Refusal :=
  .next (requestIbi (fun i => i.nacked.isNone) nack (modCmd (fun c => { c with hdr := false }) (advance dt s)))

/-- IBI_RETRY (13 R401): a request that was NACKed is repeated while its cause stands. -/
def execIbiRetry (dt : Nat) (nack : Bool) (s : State) : Host.Outcome State Fault Refusal :=
  .next (requestIbi (fun i => i.nacked.isSome) nack (advance dt s))

end Sys2Proof.Machine
end

