-- ==== Sys2Proof/Machine/Twin.lean ====
section
/-! DEFINITION. The twin pair: heartbeats, items of the mirror, snapshots, role, takeover and handover (15 R485 to R497). -/
namespace Sys2Proof.Machine

def twinOn (s : State) : Bool := awake s && s.twin.state != 0

/-! ### Heartbeat (15 R489, R490, R497) -/

/-- HEARTBEAT: a pulse whose width codes the state, every HB_PERIOD. -/
def execHeartbeat (dt : Nat) (s : State) : Host.Outcome State Fault Refusal :=
  let s := advance dt s
  .next (if twinOn s && (s.twin.lastBeat == 0 || decide (s.twin.lastBeat + par s 0x0C000015 ≤ s.clk.tb)) then
      { s with
        twin := { s.twin with lastBeat := s.clk.tb }
        pins := { s.pins with hbOut := true, hbEnds := some (s.clk.tb + 5000 * s.twin.state) } }
    else s)

/-- The code of a received width in ns: within 1.5 µs of a listed one. -/
def pulseCodeOf (width : Nat) : Option Nat :=
  [1, 2, 3, 4].find? (fun k => decide (5000 * k ≤ width + 1500) && decide (width ≤ 5000 * k + 1500))

/-- A valid pulse: a standby whose synced primary turns to syncing standby is handed the part (R496); a solo primary that has no link
with a syncing standby starts one. -/
def pulseIn (code : Nat) (s : State) : State :=
  let was := s.twin.pulseCode
  let s := modTwin (fun t => { t with pulseCode := code, lastPulse := stamp s, hbLost := false }) s
  if s.twin.state = 0 then s
  else
    let s := postJudge .hbJudge (stamp s) s
    let s := if s.twin.state = 3 ∧ was = 1 ∧ code = 4 then modTwin (fun t => { t with handover := true }) s else s
    let s := if s.twin.state = 2 ∧ code = 4 ∧ s.twin.snapEnd = 0 then sendSnapshot (startLink s) else s
    settleTwin s

/-- HEARTBEAT_RECEIVED: the row's TB is that of the rising edge. With twin disabled and HB_WAKE, an edge wakes the part from Sleep. -/
def execHeartbeatReceived (dt width : Nat) (s : State) : Host.Outcome State Fault Refusal :=
  let s := advance dt s
  .next (if s.pwr.mode = .sleep then (if par s 0x0C000010 = 0 ∧ par s 0x0C000019 = 1 then wakeCauseIn 0x07 s else s)
    else if awake s && (s.twin.state != 0 || s.twin.listening.isSome) then
      (match pulseCodeOf width with | some c => pulseIn c s | none => s)
    else s)

/-! ### Arrival of items (15 R486, R487, R490) -/

/-- An intact item: the link is heard, and what the partner has acknowledged is let go. -/
def itemHeard (m : ItemHdr) (s : State) : State :=
  let ack := if m.acked ≤ s.twin.mseq then Nat.max s.twin.acked m.acked else s.twin.acked
  postJudge .linkJudge (stamp s) (modTwin (fun t => { t with
    lastItem := stamp s, linkLost := false, acked := ack, sentItems := t.sentItems.filter (fun i => decide (ack < i.mseq)) }) s)

/-- The item is in order. A HELLO that starts a link and the start of a snapshot set the count anew; a primary takes what comes. -/
def inOrder (kind : Nat) (m : ItemHdr) (s : State) : Bool :=
  m.mseq == s.twin.received + 1 || kind == 10 || (kind == 1 && m.mseq == 1) || isPrimary s

/-- NAK: the MSEQ to resend from. -/
def sendNak (s : State) : State :=
  let n := s.twin.received + 1
  mirror 9 (le 4 n) (modTwin (fun t => { t with nakFrom := some n }) s)

/-- An item is applied, or it shows a gap and a standby asks for a resend. -/
def takeItem (kind : Nat) (m : ItemHdr) (f : State → State) (s : State) : State :=
  if inOrder kind m s then f (modTwin (fun t => { t with received := m.mseq, nakFrom := none }) s)
  else if isStandby s && decide (s.twin.received + 1 < m.mseq) && s.twin.nakFrom.isNone then sendNak s
  else s

/-- The row of an item. -/
def itemRow (kind dt : Nat) (m : ItemHdr) (f : State → State) (s : State) : Host.Outcome State Fault Refusal :=
  let s := advance dt s
  .next (if twinOn s then settleTwin (takeItem kind m f (itemHeard m s)) else s)

/-- Only a standby applies what the mirror says. -/
def atStandby (f : State → State) (s : State) : State := if isStandby s then f s else s

/-- MIRROR_ITEM_DISCARDED (R487): `reason` is 0 a bad header CRC, 1 a bad body CRC, 2 an MSEQ gap. -/
def execMirrorItemDiscarded (dt reason : Nat) (s : State) : Host.Outcome State Fault Refusal :=
  let s := advance dt s
  .next (if twinOn s && isStandby s && (decide (reason < 2) || s.twin.nakFrom.isNone) then sendNak s else s)

/-! ### The items -/

/-- Roles meet (R487, R495): a standby's HELLO begins the link anew with a snapshot; of two primaries the one with the lower identity
stays, and equal ones both become syncing standby. -/
def helloIn (m : ItemHdr) (body : Bytes) (s : State) : State :=
  let id := leAt body 0 2
  let role := byteAt body 3
  let s := modTwin (fun t => { t with partnerId := id, partnerRole := role, partnerImage := (body.drop 4).take 64 }) s
  let yield := fun s => startLink (setRole 4 (modTwin (fun t => { t with snapDone := false, snapshot := false, snapEnd := 0 }) s))
  if isPrimary s then
    if role = 1 ∨ role = 2 then (if id ≤ identityLow then yield s else s)
    else if m.mseq = 1 then
      let s := startLink s
      sendSnapshot (modTwin (fun t => { t with received := 1 }) s)
    else s
  else if (role = 1 ∨ role = 2) ∧ !s.twin.snapshot then modTwin (fun t => { t with snapDone := true }) s
  else s

/-- HELLO. -/
def execHello (dt : Nat) (m : ItemHdr) (body : Bytes) (s : State) : Host.Outcome State Fault Refusal := itemRow 1 dt m (helloIn m body) s

/-- LINK. -/
def execLinkItem (dt : Nat) (m : ItemHdr) (_body : Bytes) (s : State) : Host.Outcome State Fault Refusal := itemRow 2 dt m id s

/-- A stream command joins the open set, in place of an earlier one of the same object; a close takes out its stream's. -/
def recordOpen (op : Nat) (q : Bytes) (s : State) : State :=
  let old := s.twin.openSet.filter (fun e =>
    if op = 0x0202 ∨ op = 0x0201 then byteAt e.2 0 != byteAt q 0
    else if op = 0x0203 then !(e.1 == 0x0203 && e.2.take 2 == q.take 2)
    else true)
  modTwin (fun t => { t with openSet := if op = 0x0202 then old else old ++ [(op, q)] }) s

/-- QUIET_DUE of a quiet epoch, in this part's TB: as far after its execution as after the primary's (log 89). -/
def localDue (op exec : Nat) (q : Bytes) (s : State) : Bytes :=
  if op = 0x0A03 ∧ bit (leAt q 0 4) 0 then q.take 8 ++ le 8 (stamp s + (leAt q 8 8 - exec)) else q

/-- A command of the primary is applied under the standby's own rules. -/
def commandIn (body : Bytes) (s : State) : State :=
  let op := leAt body 0 2
  let n := leAt body 4 4
  let q := (body.drop 16).take n
  if 0x0201 ≤ op ∧ op ≤ 0x0204 then recordOpen op q s
  else runPacket (bodyOf op) ⟨0x02, op, leAt body 2 2, leAt body 8 4, localDue op (leAt body (20 + n) 8) q s, stamp s, none⟩ s

/-- COMMAND. -/
def execCommandItem (dt : Nat) (m : ItemHdr) (body : Bytes) (s : State) : Host.Outcome State Fault Refusal :=
  itemRow 3 dt m (atStandby (commandIn body)) s

/-- An accepted side. -/
def sideIn (body : Bytes) (s : State) : State :=
  let x : MirroredSide := ⟨leAt body 0 4, leAt body 4 4, leAt body 8 4, leAt body 16 8, false, false⟩
  modTwin (fun t => { t with sides := t.sides ++ [x], topSheet := Nat.max t.topSheet x.sheet }) s

/-- SIDE. -/
def execSideItem (dt : Nat) (m : ItemHdr) (body : Bytes) (s : State) : Host.Outcome State Fault Refusal :=
  itemRow 4 dt m (atStandby (sideIn body)) s

/-- A record is kept, retained and untransmitted; it shows what its side still owes (R486, R492). -/
def recordIn (body : Bytes) (s : State) : State :=
  let no := leAt body 52 4
  let pending := leAt body 46 2 != 0 || leAt body 48 2 != 0
  let id := leAt body 8 4
  let s := putEntries [⟨.record no, body.length, false, true⟩]
    { s with out := { s.out with ring := s.out.ring.filter (fun e => e.kind != .record no) } }
  modTwin (fun t => { t with
    retained := t.retained.filter (fun r => r.recordNo != no) ++ [⟨no, leAt body 40 1, body⟩]
    topRecord := if t.topRecord = 0 ∨ earlier t.topRecord no then no else t.topRecord
    sides := (t.sides.map (fun x => if x.sheet = id then { x with recorded := true, pending := pending } else x)).filter MirroredSide.owes }) s

/-- RECORD. -/
def execRecordItem (dt : Nat) (m : ItemHdr) (body : Bytes) (s : State) : Host.Outcome State Fault Refusal :=
  itemRow 5 dt m (atStandby (recordIn body)) s

/-- What the primary has transmitted is let go. -/
def sentIn (no : Nat) (s : State) : State :=
  let gone := (s.twin.retained.filter (fun r => !earlier no r.recordNo)).map Retained.recordNo
  refreshHigh (modTwin (fun t => { t with lastSent := no, retained := t.retained.filter (fun r => earlier no r.recordNo) })
    { s with out := { s.out with ring := s.out.ring.filter (fun e => !gone.any (fun n => e.kind == .record n)) } })

/-- SENT. -/
def execSent (dt : Nat) (m : ItemHdr) (body : Bytes) (s : State) : Host.Outcome State Fault Refusal :=
  itemRow 6 dt m (atStandby (sentIn (leAt body 0 4))) s

/-- A slab of a mirrored prefix takes the lowest free slab and tally; none where either is out (log 7). -/
def slabIn (job : Nat) (b : Bytes) (s : State) : Option (Nat × State) :=
  match (List.range (poolSlots s)).find? (fun n => (slabAt s n).isNone), freeRefTallies s with
  | some n, t :: _ =>
    let x : Slab :=
      { seq := 0, layer := leAt b 0 2, group := leAt b 2 2, index := leAt b 4 2, state := 2, promoted := false, registered := true
        fill := leAt b 6 2, refTally := t, pins := 0, job := job, commons := 0, lastUse := 0 }
    let s := putSlab n (some x) (setTally t { Tally.zero with count := 1 } s)
    some (n, { s with ddr := Memory.writeN s.ddr (slabHomeAddr s n) ((b.drop 8).take (slotBytes s)) })
  | _, _ => none

/-- The slabs of a mirrored prefix, in order. -/
def slabsIn (job : Nat) : Nat → Bytes → State → List Nat × State
  | 0, _, s => ([], s)
  | k + 1, b, s =>
    match slabIn job b s with
    | some (n, t) => let r := slabsIn job k (b.drop (8 + slotBytes s)) t; (n :: r.1, r.2)
    | none => ([], s)

/-- A mirrored prefix is registered under the primary's ID. -/
def shareIn (body : Bytes) (s : State) : State :=
  let id := leAt body 2 2
  let s := match Tab.find s.slab.prefixes id with | some x => dropPrefix id x s | none => s
  let r := slabsIn (byteAt body 1) (leAt body 8 4) (body.drop 16) s
  modSlabs (fun k => { k with prefixes := Tab.set k.prefixes id ⟨byteAt body 1, leAt body 4 4, r.1⟩ }) r.2

/-- A share, a drop, or adapters (log 83). -/
def blobIn (body : Bytes) (s : State) : State :=
  match byteAt body 0 with
  | 1 => shareIn body s
  | 2 => (match Tab.find s.slab.prefixes (leAt body 2 2) with | some x => dropPrefix (leAt body 2 2) x s | none => s)
  | 3 =>
    let r := byteAt body 2
    { s with serv := { s.serv with adapters := s.serv.adapters.filter (fun e => e.1 != r) ++ [(r, byteAt body 1)] } }
  | _ => s

/-- BLOB. -/
def execBlob (dt : Nat) (m : ItemHdr) (body : Bytes) (s : State) : Host.Outcome State Fault Refusal :=
  itemRow 7 dt m (atStandby (blobIn body)) s

/-- MBOX: the message, after its envelope, comes on channel 8 from sender 0x02. -/
def execMboxItem (dt : Nat) (m : ItemHdr) (body : Bytes) (s : State) : Host.Outcome State Fault Refusal :=
  itemRow 8 dt m (post 8 0x02 true ((body.drop 16).take 64)) s

/-- The primary resends from the MSEQ asked for, or runs a snapshot. -/
def nakIn (n : Nat) (s : State) : State :=
  if !isPrimary s then s
  else if s.twin.sentItems.any (fun i => i.mseq == n) then
    (s.twin.sentItems.filter (fun i => decide (n ≤ i.mseq))).foldl (fun s i => sendItem i s) s
  else sendSnapshot s

/-- NAK. -/
def execNak (dt : Nat) (m : ItemHdr) (body : Bytes) (s : State) : Host.Outcome State Fault Refusal :=
  itemRow 9 dt m (nakIn (leAt body 0 4)) s

/-! ### Snapshots (15 R487; log 83) -/

/-- The parts of a snapshot: type and bytes. -/
def snapshotParts : Nat → Bytes → List (Nat × Bytes)
  | 0, _ => []
  | k + 1, b =>
    if b.length < 8 then []
    else (byteAt b 0, (b.drop 8).take (leAt b 4 4)) :: snapshotParts k (b.drop (8 + leAt b 4 4))

/-- Epochs and history replace the standby's own. -/
def epochsIn (b : Bytes) (s : State) : State :=
  let words := fun (at_ n : Nat) => (List.range n).map (fun i => leAt b (at_ + 4 * i) 4)
  { s with cmd := { s.cmd with
      epochs := ((List.range 16).map (fun i => (⟨leAt b (16 * i) 4, leAt b (16 * i + 4) 4, leAt b (16 * i + 8) 8⟩ : EpochRec))).filter
        (fun e => e.epoch != 0)
      streamEpochs := words 256 12, jobEpochs := words 304 16, deviceEpoch := leAt b 0 4 } }

/-- One part. -/
def partIn (s : State) (p : Nat × Bytes) : State :=
  let b := p.2
  match p.1 with
  | 1 => epochsIn b s
  | 2 => applyNow (leAt b 0 4) (leAt b 8 8) s
  | 3 => modTwin (fun t => { t with openSet := t.openSet ++ [(leAt b 0 2, b.drop 2)] }) s
  | 4 => { s with text := { s.text with classTables := Tab.set s.text.classTables (byteAt b 0) (b.drop 1) } }
  | 5 => { s with text := { s.text with grammars := Tab.set s.text.grammars (byteAt b 0) (b.drop 1) } }
  | 6 => { s with text := { s.text with bindings := s.text.bindings ++ [((leAt b 0 2, leAt b 2 2), (byteAt b 4, byteAt b 5))] } }
  | 7 => { s with text := { s.text with stops := Tab.set s.text.stops (byteAt b 0) (b.drop 1) } }
  | _ => s

/-- What a snapshot replaces is put aside: mirrored records and open set, posted values, grammars, prefixes, adapters. -/
def clearMirror (s : State) : State :=
  let gone := s.twin.retained.map Retained.recordNo
  let keep := fun (t : Tab Nat) => t.filter (fun e => changeOf s e.1 == .t)
  let s := dropPrefixes s
  refreshHigh { s with
    twin := { s.twin with retained := [], openSet := [], snapshot := true }
    out := { s.out with ring := s.out.ring.filter (fun e => !gone.any (fun n => e.kind == .record n)) }
    cmd := { s.cmd with posted := keep s.cmd.posted, inForce := keep s.cmd.inForce, staged := [], stagedItems := [], quiet := none }
    text := { s.text with classTables := [], grammars := [], bindings := [], stops := [] }
    serv := { s.serv with adapters := [] } }

def snapshotIn (body : Bytes) (s : State) : State := (snapshotParts body.length body).foldl partIn (clearMirror s)

/-- SNAPSHOT_BEGIN. -/
def execSnapshotBegin (dt : Nat) (m : ItemHdr) (body : Bytes) (s : State) : Host.Outcome State Fault Refusal :=
  itemRow 10 dt m (atStandby (snapshotIn body)) s

/-- SNAPSHOT_END. -/
def execSnapshotEnd (dt : Nat) (m : ItemHdr) (_body : Bytes) (s : State) : Host.Outcome State Fault Refusal :=
  itemRow 11 dt m (atStandby (modTwin (fun t => { t with snapshot := false, snapDone := true }))) s

/-! ### What a part sends by itself (15 R486) -/

/-- LINK_ITEM_SEND: a message on channel 29 as MBOX, else LINK where nothing has been sent for half an HB_PERIOD. -/
def execLinkItemSend (dt : Nat) (s : State) : Host.Outcome State Fault Refusal :=
  let s := advance dt s
  .next (if !twinOn s then s
    else match (chanAt s 29).queue with
      | x :: xs => roomMade 29 (mirror 8 (envelope 29 x) (modChan 29 (fun c => { c with queue := xs }) s))
      | [] => if s.twin.lastSend + par s 0x0C000015 / 2 ≤ s.clk.tb then mirror 2 [] s else s)

/-! ### Role (15 R495) -/

/-- The role settles: a part that heard a primary is standby, any other takes TWIN_ROLE, and starts solo as primary. -/
def settleRole (s : State) : State :=
  let heard := s.twin.pulseCode = 1 ∨ s.twin.pulseCode = 2
  let role := if heard ∨ par s 0x0C000011 = 1 then 4 else 2
  let s := modTwin (fun t => { t with listening := none, lastBeat := 0 }) s
  let s := startLink (setRole role s)
  let s := postJudge .linkJudge (stamp s) (postJudge .hbJudge (stamp s) s)
  match s.boot.awaitRole with
  | some (mask, auto) =>
    let s := modBoot (fun b => { b with awaitRole := none }) s
    if role = 2 then finishProfile mask auto s else s
  | none => s

/-- ROLE_SETTLE: 3 × HB_PERIOD after the listening began. -/
def execRoleSettle (dt : Nat) (s : State) : Host.Outcome State Fault Refusal :=
  let s := advance dt s
  .next (match s.twin.listening with
    | some t => if awake s && decide (t ≤ s.clk.tb) then settleRole s else s
    | none => s)

/-! ### Takeover and handover (15 R488, R491, R492, R496) -/

/-- A ready standby has lost heartbeat and link, or has been handed the part. -/
def takesOver (s : State) : Bool :=
  s.twin.state == 3 &&
    ((par s 0x0C00001A == 1 && s.twin.hbLost && s.twin.linkLost && s.twin.pulseCode != 2) || s.twin.handover)

/-- TAKEOVER. -/
def execTakeover (dt : Nat) (s : State) : Host.Outcome State Fault Refusal :=
  let s := advance dt s
  .next (if awake s && takesOver s then takeOver s else s)

/-- The last side in flight has its final record, and the standby has acknowledged every record. -/
def handedAll (s : State) : Bool :=
  !s.prep.sheets.any (fun h => (h.alive && !h.recorded) || (h.dead.isSome && !h.noticed))
    && !s.out.records.any (fun r => r.kind != 0 && decide (s.twin.acked < r.mirrored))

/-- HANDOVER_COMPLETE: the old primary becomes a syncing standby, and its streams close. -/
def execHandoverComplete (dt : Nat) (s : State) : Host.Outcome State Fault Refusal :=
  let s := advance dt s
  .next (if awake s && isPrimary s && s.twin.handover && handedAll s then
      let s := modTwin (fun t => { t with handover := false, snapDone := false, snapshot := false, snapEnd := 0, lastBeat := 0 }) s
      let s := setRole 4 s
      startLink ((openStreams s).foldl (fun s k => closeStream k 0 s) s)
    else s)

/-- A record waits for its acknowledgement beyond TWIN_ACK_WAIT. -/
def ackLate (s : State) : Bool :=
  s.out.records.any (fun r => r.kind != 0 && !r.launched && decide (s.twin.acked < r.mirrored)
    && decide (r.commit + par s 0x0C000017 < s.clk.tb))

/-- ACK_WAIT_EXPIRY: the primary declares the link lost, and is solo. -/
def execAckWaitExpiry (dt : Nat) (s : State) : Host.Outcome State Fault Refusal :=
  let s := advance dt s
  .next (if awake s && s.twin.state == 1 && ackLate s then settleTwin (modTwin (fun t => { t with linkLost := true }) s) else s)

end Sys2Proof.Machine
end

