-- ==== Sys2Proof/Machine/Dispatch.lean ====
section
/-! DEFINITION. One arm for each row of the opcode table: the one place that gives a command to its meaning. -/
namespace Sys2Proof.Machine

/-- A command's effect on everything but the queue. -/
def exec (i : Instr) (s : State) : Host.Outcome State Fault Refusal :=
  match i with
  | .timeRead dt h p => Sys2Proof.Machine.execTimeRead dt h p s
  | .slotPost dt h p => Sys2Proof.Machine.execSlotPost dt h p s
  | .slotCancel dt h p => Sys2Proof.Machine.execSlotCancel dt h p s
  | .slotQuery dt h p => Sys2Proof.Machine.execSlotQuery dt h p s
  | .preDispatch dt slot => Sys2Proof.Machine.execPreDispatch dt slot s
  | .shareGrant dt => Sys2Proof.Machine.execShareGrant dt s
  | .strobe dt slot => Sys2Proof.Machine.execStrobe dt slot s
  | .lineTrig dt slot => Sys2Proof.Machine.execLineTrig dt slot s
  | .pinSet dt slot => Sys2Proof.Machine.execPinSet dt slot s
  | .stepStart dt slot => Sys2Proof.Machine.execStepStart dt slot s
  | .outRelease dt slot => Sys2Proof.Machine.execOutRelease dt slot s
  | .deadline dt slot => Sys2Proof.Machine.execDeadline dt slot s
  | .wake dt slot => Sys2Proof.Machine.execWake dt slot s
  | .tallySignalAction dt slot => Sys2Proof.Machine.execTallySignalAction dt slot s
  | .doorbell dt slot => Sys2Proof.Machine.execDoorbell dt slot s
  | .quietPoint dt slot => Sys2Proof.Machine.execQuietPoint dt slot s
  | .tbMark dt slot => Sys2Proof.Machine.execTbMark dt slot s
  | .watch dt slot => Sys2Proof.Machine.execWatch dt slot s
  | .packetGap dt header => Sys2Proof.Machine.execPacketGap dt header s
  | .ibiRetry dt nack => Sys2Proof.Machine.execIbiRetry dt nack s
  | .controlWatchdog dt core served => Sys2Proof.Machine.execControlWatchdog dt core served s
  | .learningTargetExpiry dt => Sys2Proof.Machine.execLearningTargetExpiry dt s
  | .missingLine dt stream => Sys2Proof.Machine.execMissingLine dt stream s
  | .frameStart dt fix port vc => Sys2Proof.Machine.execFrameStart dt fix port vc s
  | .frameEnd dt fix port vc => Sys2Proof.Machine.execFrameEnd dt fix port vc s
  | .lineStart dt fix port vc data => Sys2Proof.Machine.execLineStart dt fix port vc data s
  | .longPacket dt k => Sys2Proof.Machine.execLongPacket dt k s
  | .lineEnd dt fix port vc => Sys2Proof.Machine.execLineEnd dt fix port vc s
  | .uncorrectableHeaderError dt port => Sys2Proof.Machine.execUncorrectableHeaderError dt port s
  | .genericShortPacket dt fix port vc code data => Sys2Proof.Machine.execGenericShortPacket dt fix port vc code data s
  | .tachEdge dt pin => Sys2Proof.Machine.execTachEdge dt pin s
  | .streamStart dt stream => Sys2Proof.Machine.execStreamStart dt stream s
  | .streamOpen dt h p => Sys2Proof.Machine.execStreamOpen dt h p s
  | .streamClose dt h p => Sys2Proof.Machine.execStreamClose dt h p s
  | .flatLoad dt h p => Sys2Proof.Machine.execFlatLoad dt h p s
  | .speedSet dt h p => Sys2Proof.Machine.execSpeedSet dt h p s
  | .streamStatus dt h p => Sys2Proof.Machine.execStreamStatus dt h p s
  | .streamDiscovery dt stream seen => Sys2Proof.Machine.execStreamDiscovery dt stream seen s
  | .discoveryRetry dt stream seen => Sys2Proof.Machine.execDiscoveryRetry dt stream seen s
  | .bandPrepared dt stream => Sys2Proof.Machine.execBandPrepared dt stream s
  | .batchFilled dt cls => Sys2Proof.Machine.execBatchFilled dt cls s
  | .splitAdvice dt stream => Sys2Proof.Machine.execSplitAdvice dt stream s
  | .regionPost dt h p => Sys2Proof.Machine.execRegionPost dt h p s
  | .augPost dt h p => Sys2Proof.Machine.execAugPost dt h p s
  | .steerSet dt h p => Sys2Proof.Machine.execSteerSet dt h p s
  | .prepStatus dt h p => Sys2Proof.Machine.execPrepStatus dt h p s
  | .addI dt core w => Sys2Proof.Machine.execAddI dt core w s
  | .subI dt core w => Sys2Proof.Machine.execSubI dt core w s
  | .mulI dt core w => Sys2Proof.Machine.execMulI dt core w s
  | .andI dt core w => Sys2Proof.Machine.execAndI dt core w s
  | .orI dt core w => Sys2Proof.Machine.execOrI dt core w s
  | .xorI dt core w => Sys2Proof.Machine.execXorI dt core w s
  | .shl dt core w => Sys2Proof.Machine.execShl dt core w s
  | .shr dt core w => Sys2Proof.Machine.execShr dt core w s
  | .sra dt core w => Sys2Proof.Machine.execSra dt core w s
  | .minI dt core w => Sys2Proof.Machine.execMinI dt core w s
  | .maxI dt core w => Sys2Proof.Machine.execMaxI dt core w s
  | .cmp dt core w => Sys2Proof.Machine.execCmp dt core w s
  | .br dt core w => Sys2Proof.Machine.execBr dt core w s
  | .loop dt core w => Sys2Proof.Machine.execLoop dt core w s
  | .tbrd dt core w => Sys2Proof.Machine.execTbrd dt core w s
  | .halt dt core w => Sys2Proof.Machine.execHalt dt core w s
  | .gset dt core w => Sys2Proof.Machine.execGset dt core w s
  | .ld dt core w => Sys2Proof.Machine.execLd dt core w s
  | .st dt core w => Sys2Proof.Machine.execSt dt core w s
  | .ldv dt core w => Sys2Proof.Machine.execLdv dt core w s
  | .stv dt core w => Sys2Proof.Machine.execStv dt core w s
  | .ldvc dt core w => Sys2Proof.Machine.execLdvc dt core w s
  | .stvc dt core w => Sys2Proof.Machine.execStvc dt core w s
  | .dma dt core w => Sys2Proof.Machine.execDma dt core w s
  | .dmaComplete dt core entry => Sys2Proof.Machine.execDmaComplete dt core entry s
  | .mmI8 dt core w => Sys2Proof.Machine.execMmI8 dt core w s
  | .mmE4 dt core w => Sys2Proof.Machine.execMmE4 dt core w s
  | .mmE5 dt core w => Sys2Proof.Machine.execMmE5 dt core w s
  | .mmBf dt core w => Sys2Proof.Machine.execMmBf dt core w s
  | .mmtI8 dt core w => Sys2Proof.Machine.execMmtI8 dt core w s
  | .mmtE4 dt core w => Sys2Proof.Machine.execMmtE4 dt core w s
  | .tload dt core w => Sys2Proof.Machine.execTload dt core w s
  | .vectorAdd dt core w => Sys2Proof.Machine.execVectorAdd dt core w s
  | .vectorMul dt core w => Sys2Proof.Machine.execVectorMul dt core w s
  | .fma dt core w => Sys2Proof.Machine.execFma dt core w s
  | .vectorMax dt core w => Sys2Proof.Machine.execVectorMax dt core w s
  | .vectorMin dt core w => Sys2Proof.Machine.execVectorMin dt core w s
  | .exp dt core w => Sys2Proof.Machine.execExp dt core w s
  | .rcp dt core w => Sys2Proof.Machine.execRcp dt core w s
  | .rsqrt dt core w => Sys2Proof.Machine.execRsqrt dt core w s
  | .rsum dt core w => Sys2Proof.Machine.execRsum dt core w s
  | .rmax dt core w => Sys2Proof.Machine.execRmax dt core w s
  | .cvt dt core w => Sys2Proof.Machine.execCvt dt core w s
  | .drain dt core w => Sys2Proof.Machine.execDrain dt core w s
  | .ssoft dt core w => Sys2Proof.Machine.execSsoft dt core w s
  | .spvBf dt core w => Sys2Proof.Machine.execSpvBf dt core w s
  | .spvE4 dt core w => Sys2Proof.Machine.execSpvE4 dt core w s
  | .snorm dt core w => Sys2Proof.Machine.execSnorm dt core w s
  | .sstat dt core w => Sys2Proof.Machine.execSstat dt core w s
  | .sldst dt core w => Sys2Proof.Machine.execSldst dt core w s
  | .smerge dt core w => Sys2Proof.Machine.execSmerge dt core w s
  | .sapp dt core w => Sys2Proof.Machine.execSapp dt core w s
  | .sbwd dt core w => Sys2Proof.Machine.execSbwd dt core w s
  | .strn dt core w => Sys2Proof.Machine.execStrn dt core w s
  | .sxlt dt core w => Sys2Proof.Machine.execSxlt dt core w s
  | .walkerReply dt cluster => Sys2Proof.Machine.execWalkerReply dt cluster s
  | .copyOnWriteComplete dt slab => Sys2Proof.Machine.execCopyOnWriteComplete dt slab s
  | .gmask dt core w => Sys2Proof.Machine.execGmask dt core w s
  | .maskRequest dt cluster => Sys2Proof.Machine.execMaskRequest dt cluster s
  | .sargm dt core w => Sys2Proof.Machine.execSargm dt core w s
  | .tsig dt core w => Sys2Proof.Machine.execTsig dt core w s
  | .twait dt core w => Sys2Proof.Machine.execTwait dt core w s
  | .ttry dt core w => Sys2Proof.Machine.execTtry dt core w s
  | .twaitge dt core w => Sys2Proof.Machine.execTwaitge dt core w s
  | .tset dt core w => Sys2Proof.Machine.execTset dt core w s
  | .tarm dt core w => Sys2Proof.Machine.execTarm dt core w s
  | .tread dt core w => Sys2Proof.Machine.execTread dt core w s
  | .fence dt core w => Sys2Proof.Machine.execFence dt core w s
  | .waitu dt core w => Sys2Proof.Machine.execWaitu dt core w s
  | .send dt core w => Sys2Proof.Machine.execSend dt core w s
  | .wmmI8 dt core w => Sys2Proof.Machine.execWmmI8 dt core w s
  | .wmmE4 dt core w => Sys2Proof.Machine.execWmmE4 dt core w s
  | .wmmE5 dt core w => Sys2Proof.Machine.execWmmE5 dt core w s
  | .wmmBf dt core w => Sys2Proof.Machine.execWmmBf dt core w s
  | .wmmtI8 dt core w => Sys2Proof.Machine.execWmmtI8 dt core w s
  | .wmmtE4 dt core w => Sys2Proof.Machine.execWmmtE4 dt core w s
  | .wdrain dt core w => Sys2Proof.Machine.execWdrain dt core w s
  | .wpool dt core w => Sys2Proof.Machine.execWpool dt core w s
  | .wres dt core w => Sys2Proof.Machine.execWres dt core w s
  | .wunz dt core w => Sys2Proof.Machine.execWunz dt core w s
  | .preemptionRequest dt cluster mask stops => Sys2Proof.Machine.execPreemptionRequest dt cluster mask stops s
  | .contextValid dt core => Sys2Proof.Machine.execContextValid dt core s
  | .restore dt core ctx => Sys2Proof.Machine.execRestore dt core ctx s
  | .restoreComplete dt core => Sys2Proof.Machine.execRestoreComplete dt core s
  | .coreStatus dt h p => Sys2Proof.Machine.execCoreStatus dt h p s
  | .tallyQuery dt h p => Sys2Proof.Machine.execTallyQuery dt h p s
  | .tallySignal dt h p => Sys2Proof.Machine.execTallySignal dt h p s
  | .tallyArm dt h p => Sys2Proof.Machine.execTallyArm dt h p s
  | .tallySet dt h p => Sys2Proof.Machine.execTallySet dt h p s
  | .qpQuery dt h p => Sys2Proof.Machine.execQpQuery dt h p s
  | .qpSet dt h p => Sys2Proof.Machine.execQpSet dt h p s
  | .seqOpen dt h p => Sys2Proof.Machine.execSeqOpen dt h p s
  | .seqClose dt h p => Sys2Proof.Machine.execSeqClose dt h p s
  | .seqCommit dt h p => Sys2Proof.Machine.execSeqCommit dt h p s
  | .seqEnter dt h p => Sys2Proof.Machine.execSeqEnter dt h p s
  | .stepRetire dt h p => Sys2Proof.Machine.execStepRetire dt h p s
  | .slabReserve dt h p => Sys2Proof.Machine.execSlabReserve dt h p s
  | .prefixShare dt h p => Sys2Proof.Machine.execPrefixShare dt h p s
  | .prefixDrop dt h p => Sys2Proof.Machine.execPrefixDrop dt h p s
  | .seqQuery dt h p => Sys2Proof.Machine.execSeqQuery dt h p s
  | .slabQuery dt h p => Sys2Proof.Machine.execSlabQuery dt h p s
  | .slabStatus dt h p => Sys2Proof.Machine.execSlabStatus dt h p s
  | .promotion dt slab => Sys2Proof.Machine.execPromotion dt slab s
  | .stepBuild dt job plan => Sys2Proof.Machine.execStepBuild dt job plan s
  | .acceptance dt job facts => Sys2Proof.Machine.execAcceptance dt job facts s
  | .releaseCheckTimeout dt sheet fields => Sys2Proof.Machine.execReleaseCheckTimeout dt sheet fields s
  | .secondDeadlineTimeout dt sheet => Sys2Proof.Machine.execSecondDeadlineTimeout dt sheet s
  | .jobWaiting dt job => Sys2Proof.Machine.execJobWaiting dt job s
  | .jobStatus dt h p => Sys2Proof.Machine.execJobStatus dt h p s
  | .lineQuery dt h p => Sys2Proof.Machine.execLineQuery dt h p s
  | .learnPost dt h p => Sys2Proof.Machine.execLearnPost dt h p s
  | .learnControl dt h p => Sys2Proof.Machine.execLearnControl dt h p s
  | .textTokenize dt h p => Sys2Proof.Machine.execTextTokenize dt h p s
  | .textDetokenize dt h p => Sys2Proof.Machine.execTextDetokenize dt h p s
  | .grammarBind dt h p => Sys2Proof.Machine.execGrammarBind dt h p s
  | .stopSet dt h p => Sys2Proof.Machine.execStopSet dt h p s
  | .grammarLoad dt h p => Sys2Proof.Machine.execGrammarLoad dt h p s
  | .grammarQuery dt h p => Sys2Proof.Machine.execGrammarQuery dt h p s
  | .recordCommit dt kind sheet fields => Sys2Proof.Machine.execRecordCommit dt kind sheet fields s
  | .transmitPacket dt port => Sys2Proof.Machine.execTransmitPacket dt port s
  | .outHoldFall dt => Sys2Proof.Machine.execOutHoldFall dt s
  | .outHoldRise dt => Sys2Proof.Machine.execOutHoldRise dt s
  | .outStatus dt h p => Sys2Proof.Machine.execOutStatus dt h p s
  | .framingRefusal dt k => Sys2Proof.Machine.execFramingRefusal dt k s
  | .replyRead dt max => Sys2Proof.Machine.execReplyRead dt max s
  | .paramRead dt h p => Sys2Proof.Machine.execParamRead dt h p s
  | .paramWrite dt h p => Sys2Proof.Machine.execParamWrite dt h p s
  | .epochPost dt h p => Sys2Proof.Machine.execEpochPost dt h p s
  | .epochDiscard dt h p => Sys2Proof.Machine.execEpochDiscard dt h p s
  | .epochStatus dt h p => Sys2Proof.Machine.execEpochStatus dt h p s
  | .epochAdoption dt => Sys2Proof.Machine.execEpochAdoption dt s
  | .quietApply dt => Sys2Proof.Machine.execQuietApply dt s
  | .adapterActivate dt h p => Sys2Proof.Machine.execAdapterActivate dt h p s
  | .resourceQuery dt h p => Sys2Proof.Machine.execResourceQuery dt h p s
  | .mboxWrite dt h p => Sys2Proof.Machine.execMboxWrite dt h p s
  | .mboxRead dt h p => Sys2Proof.Machine.execMboxRead dt h p s
  | .mboxRing dt h p => Sys2Proof.Machine.execMboxRing dt h p s
  | .mboxDbRead dt h p => Sys2Proof.Machine.execMboxDbRead dt h p s
  | .mboxConfig dt h p => Sys2Proof.Machine.execMboxConfig dt h p s
  | .mboxQuery dt h p => Sys2Proof.Machine.execMboxQuery dt h p s
  | .mboxFlush dt h p => Sys2Proof.Machine.execMboxFlush dt h p s
  | .entdaa dt addr => Sys2Proof.Machine.execEntdaa dt addr s
  | .setdasa dt addr => Sys2Proof.Machine.execSetdasa dt addr s
  | .rstdaa dt => Sys2Proof.Machine.execRstdaa dt s
  | .enec dt bits => Sys2Proof.Machine.execEnec dt bits s
  | .disec dt bits => Sys2Proof.Machine.execDisec dt bits s
  | .getpid dt => Sys2Proof.Machine.execGetpid dt s
  | .getbcr dt => Sys2Proof.Machine.execGetbcr dt s
  | .getdcr dt => Sys2Proof.Machine.execGetdcr dt s
  | .getstatus dt => Sys2Proof.Machine.execGetstatus dt s
  | .setmwl dt n => Sys2Proof.Machine.execSetmwl dt n s
  | .getmwl dt => Sys2Proof.Machine.execGetmwl dt s
  | .setmrl dt n => Sys2Proof.Machine.execSetmrl dt n s
  | .getmrl dt => Sys2Proof.Machine.execGetmrl dt s
  | .getmxds dt => Sys2Proof.Machine.execGetmxds dt s
  | .getcaps dt => Sys2Proof.Machine.execGetcaps dt s
  | .enthdr0 dt => Sys2Proof.Machine.execEnthdr0 dt s
  | .sleepWakeWrite dt addr => Sys2Proof.Machine.execSleepWakeWrite dt addr s
  | .pwrState dt h p => Sys2Proof.Machine.execPwrState dt h p s
  | .pwrStatus dt h p => Sys2Proof.Machine.execPwrStatus dt h p s
  | .ageQuery dt h p => Sys2Proof.Machine.execAgeQuery dt h p s
  | .ageReplan dt h p => Sys2Proof.Machine.execAgeReplan dt h p s
  | .replan dt => Sys2Proof.Machine.execReplan dt s
  | .wakeComparator dt ticks => Sys2Proof.Machine.execWakeComparator dt ticks s
  | .wakeFromSleep dt ticks => Sys2Proof.Machine.execWakeFromSleep dt ticks s
  | .deviceReady dt => Sys2Proof.Machine.execDeviceReady dt s
  | .dozeEntry dt stack => Sys2Proof.Machine.execDozeEntry dt stack s
  | .domainReady dt domain => Sys2Proof.Machine.execDomainReady dt domain s
  | .clusterHoldExpiry dt cluster => Sys2Proof.Machine.execClusterHoldExpiry dt cluster s
  | .budgetChange dt => Sys2Proof.Machine.execBudgetChange dt s
  | .downshift dt slot => Sys2Proof.Machine.execDownshift dt slot s
  | .ledgerWaitReport dt slot => Sys2Proof.Machine.execLedgerWaitReport dt slot s
  | .thermalSample dt temps => Sys2Proof.Machine.execThermalSample dt temps s
  | .coreSenseSample dt microvolt => Sys2Proof.Machine.execCoreSenseSample dt microvolt s
  | .pathMonitorSample dt cluster ps => Sys2Proof.Machine.execPathMonitorSample dt cluster ps s
  | .ringOscillatorCount dt cluster counts => Sys2Proof.Machine.execRingOscillatorCount dt cluster counts s
  | .brownOut dt rail => Sys2Proof.Machine.execBrownOut dt rail s
  | .recoveryResume dt => Sys2Proof.Machine.execRecoveryResume dt s
  | .sramScrub dt at_ bits => Sys2Proof.Machine.execSramScrub dt at_ bits s
  | .patrolScrub dt addr err => Sys2Proof.Machine.execPatrolScrub dt addr err s
  | .linkUncorrected dt place => Sys2Proof.Machine.execLinkUncorrected dt place s
  | .clockLost dt => Sys2Proof.Machine.execClockLost dt s
  | .refInterruption dt ns => Sys2Proof.Machine.execRefInterruption dt ns s
  | .aonClockLost dt => Sys2Proof.Machine.execAonClockLost dt s
  | .aonClockRestored dt => Sys2Proof.Machine.execAonClockRestored dt s
  | .aonCalibration dt ns => Sys2Proof.Machine.execAonCalibration dt ns s
  | .tbSync dt die => Sys2Proof.Machine.execTbSync dt die s
  | .faultLog dt h p => Sys2Proof.Machine.execFaultLog dt h p s
  | .faultInject dt h p => Sys2Proof.Machine.execFaultInject dt h p s
  | .twinStatus dt h p => Sys2Proof.Machine.execTwinStatus dt h p s
  | .twinTakeover dt h p => Sys2Proof.Machine.execTwinTakeover dt h p s
  | .twinHandover dt h p => Sys2Proof.Machine.execTwinHandover dt h p s
  | .handoverComplete dt => Sys2Proof.Machine.execHandoverComplete dt s
  | .frzRead dt h p => Sys2Proof.Machine.execFrzRead dt h p s
  | .freeze dt => Sys2Proof.Machine.execFreeze dt s
  | .heartbeat dt => Sys2Proof.Machine.execHeartbeat dt s
  | .heartbeatReceived dt width => Sys2Proof.Machine.execHeartbeatReceived dt width s
  | .takeover dt => Sys2Proof.Machine.execTakeover dt s
  | .roleSettle dt => Sys2Proof.Machine.execRoleSettle dt s
  | .ackWaitExpiry dt => Sys2Proof.Machine.execAckWaitExpiry dt s
  | .linkItemSend dt => Sys2Proof.Machine.execLinkItemSend dt s
  | .hello dt m body => Sys2Proof.Machine.execHello dt m body s
  | .linkItem dt m body => Sys2Proof.Machine.execLinkItem dt m body s
  | .commandItem dt m body => Sys2Proof.Machine.execCommandItem dt m body s
  | .sideItem dt m body => Sys2Proof.Machine.execSideItem dt m body s
  | .recordItem dt m body => Sys2Proof.Machine.execRecordItem dt m body s
  | .sent dt m body => Sys2Proof.Machine.execSent dt m body s
  | .blob dt m body => Sys2Proof.Machine.execBlob dt m body s
  | .mboxItem dt m body => Sys2Proof.Machine.execMboxItem dt m body s
  | .nak dt m body => Sys2Proof.Machine.execNak dt m body s
  | .snapshotBegin dt m body => Sys2Proof.Machine.execSnapshotBegin dt m body s
  | .snapshotEnd dt m body => Sys2Proof.Machine.execSnapshotEnd dt m body s
  | .powerOnReset dt asel => Sys2Proof.Machine.execPowerOnReset dt asel s
  | .boot dt => Sys2Proof.Machine.execBoot dt s
  | .pllLock dt => Sys2Proof.Machine.execPllLock dt s
  | .secIdentity dt h p => Sys2Proof.Machine.execSecIdentity dt h p s
  | .secAttest dt h p => Sys2Proof.Machine.execSecAttest dt h p s
  | .imageWrite dt h p => Sys2Proof.Machine.execImageWrite dt h p s
  | .imageCommit dt h p => Sys2Proof.Machine.execImageCommit dt h p s
  | .imageActivate dt h p => Sys2Proof.Machine.execImageActivate dt h p s
  | .profileStore dt h p => Sys2Proof.Machine.execProfileStore dt h p s
  | .secReboot dt h p => Sys2Proof.Machine.execSecReboot dt h p s
  | .svnCommit dt h p => Sys2Proof.Machine.execSvnCommit dt h p s
  | .keyUpdate dt h p => Sys2Proof.Machine.execKeyUpdate dt h p s
  | .pinStatus dt h p => Sys2Proof.Machine.execPinStatus dt h p s
  | .clockStatus dt h p => Sys2Proof.Machine.execClockStatus dt h p s
  | .hostInEdge dt pin level => Sys2Proof.Machine.execHostInEdge dt pin level s
  | .wakeInEdge dt pin level => Sys2Proof.Machine.execWakeInEdge dt pin level s
  | .timeTbLo dt => Sys2Proof.Machine.execTimeTbLo dt s
  | .timeFcStatus dt => Sys2Proof.Machine.execTimeFcStatus dt s
  | .intkPortErr dt port => Sys2Proof.Machine.execIntkPortErr dt port s
  | .coreNumEvt dt => Sys2Proof.Machine.execCoreNumEvt dt s
  | .textGmu dt => Sys2Proof.Machine.execTextGmu dt s
  | .outPortStat dt port => Sys2Proof.Machine.execOutPortStat dt port s
  | .cmdChan dt => Sys2Proof.Machine.execCmdChan dt s
  | .cmdIf dt => Sys2Proof.Machine.execCmdIf dt s
  | .pwrWakeCause dt => Sys2Proof.Machine.execPwrWakeCause dt s
  | .fltEcc dt => Sys2Proof.Machine.execFltEcc dt s
  | .pinClkStat dt => Sys2Proof.Machine.execPinClkStat dt s
  | .debugRegisterWrite dt addr v => Sys2Proof.Machine.execDebugRegisterWrite dt addr v s
  | .frzAddr dt a => Sys2Proof.Machine.execFrzAddr dt a s
  | .frzData dt => Sys2Proof.Machine.execFrzData dt s
  | .frzStat dt => Sys2Proof.Machine.execFrzStat dt s
  | .frzReset dt => Sys2Proof.Machine.execFrzReset dt s
  | .dbgAddr dt addr => Sys2Proof.Machine.execDbgAddr dt addr s
  | .dbgData dt write v => Sys2Proof.Machine.execDbgData dt write v s
  | .bypass dt tdi => Sys2Proof.Machine.execBypass dt tdi s
  | .idcode dt => Sys2Proof.Machine.execIdcode dt s
  | .samplePreload dt cells => Sys2Proof.Machine.execSamplePreload dt cells s
  | .extest dt cells => Sys2Proof.Machine.execExtest dt cells s
  | .extestPulse dt cells => Sys2Proof.Machine.execExtestPulse dt cells s
  | .extestTrain dt cells => Sys2Proof.Machine.execExtestTrain dt cells s
  | .opcodeUnknown dt h opcode p => Sys2Proof.Machine.execOpcodeUnknown dt h opcode p s
  | .shareReturn dt => Sys2Proof.Machine.execShareReturn dt s
  | .mirrorItemDiscarded dt reason => Sys2Proof.Machine.execMirrorItemDiscarded dt reason s
  | .busFree dt nack => Sys2Proof.Machine.execBusFree dt nack s
  | .reverseBias dt cluster => Sys2Proof.Machine.execReverseBias dt cluster s

end Sys2Proof.Machine
end

