-- ==== Sys2Proof/Safety.lean ====
section
/-! DEFINITION. What counts as a safe run, in the terms that statements use: which commands may end a boot, and what the fuses
may become. -/
namespace Sys2Proof.Machine

/-- The time since the command before, in ns: the first operand of every command (log 9). -/
def elapsed (i : Instr) : Nat :=
  match i with
  | .timeRead dt _ _ => dt
  | .slotPost dt _ _ => dt
  | .slotCancel dt _ _ => dt
  | .slotQuery dt _ _ => dt
  | .preDispatch dt _ => dt
  | .shareGrant dt => dt
  | .strobe dt _ => dt
  | .lineTrig dt _ => dt
  | .pinSet dt _ => dt
  | .stepStart dt _ => dt
  | .outRelease dt _ => dt
  | .deadline dt _ => dt
  | .wake dt _ => dt
  | .tallySignalAction dt _ => dt
  | .doorbell dt _ => dt
  | .quietPoint dt _ => dt
  | .tbMark dt _ => dt
  | .watch dt _ => dt
  | .packetGap dt _ => dt
  | .ibiRetry dt _ => dt
  | .controlWatchdog dt _ _ => dt
  | .learningTargetExpiry dt => dt
  | .missingLine dt _ => dt
  | .frameStart dt _ _ _ => dt
  | .frameEnd dt _ _ _ => dt
  | .lineStart dt _ _ _ _ => dt
  | .longPacket dt _ => dt
  | .lineEnd dt _ _ _ => dt
  | .uncorrectableHeaderError dt _ => dt
  | .genericShortPacket dt _ _ _ _ _ => dt
  | .tachEdge dt _ => dt
  | .streamStart dt _ => dt
  | .streamOpen dt _ _ => dt
  | .streamClose dt _ _ => dt
  | .flatLoad dt _ _ => dt
  | .speedSet dt _ _ => dt
  | .streamStatus dt _ _ => dt
  | .streamDiscovery dt _ _ => dt
  | .discoveryRetry dt _ _ => dt
  | .bandPrepared dt _ => dt
  | .batchFilled dt _ => dt
  | .splitAdvice dt _ => dt
  | .regionPost dt _ _ => dt
  | .augPost dt _ _ => dt
  | .steerSet dt _ _ => dt
  | .prepStatus dt _ _ => dt
  | .addI dt _ _ => dt
  | .subI dt _ _ => dt
  | .mulI dt _ _ => dt
  | .andI dt _ _ => dt
  | .orI dt _ _ => dt
  | .xorI dt _ _ => dt
  | .shl dt _ _ => dt
  | .shr dt _ _ => dt
  | .sra dt _ _ => dt
  | .minI dt _ _ => dt
  | .maxI dt _ _ => dt
  | .cmp dt _ _ => dt
  | .br dt _ _ => dt
  | .loop dt _ _ => dt
  | .tbrd dt _ _ => dt
  | .halt dt _ _ => dt
  | .gset dt _ _ => dt
  | .ld dt _ _ => dt
  | .st dt _ _ => dt
  | .ldv dt _ _ => dt
  | .stv dt _ _ => dt
  | .ldvc dt _ _ => dt
  | .stvc dt _ _ => dt
  | .dma dt _ _ => dt
  | .dmaComplete dt _ _ => dt
  | .mmI8 dt _ _ => dt
  | .mmE4 dt _ _ => dt
  | .mmE5 dt _ _ => dt
  | .mmBf dt _ _ => dt
  | .mmtI8 dt _ _ => dt
  | .mmtE4 dt _ _ => dt
  | .tload dt _ _ => dt
  | .vectorAdd dt _ _ => dt
  | .vectorMul dt _ _ => dt
  | .fma dt _ _ => dt
  | .vectorMax dt _ _ => dt
  | .vectorMin dt _ _ => dt
  | .exp dt _ _ => dt
  | .rcp dt _ _ => dt
  | .rsqrt dt _ _ => dt
  | .rsum dt _ _ => dt
  | .rmax dt _ _ => dt
  | .cvt dt _ _ => dt
  | .drain dt _ _ => dt
  | .ssoft dt _ _ => dt
  | .spvBf dt _ _ => dt
  | .spvE4 dt _ _ => dt
  | .snorm dt _ _ => dt
  | .sstat dt _ _ => dt
  | .sldst dt _ _ => dt
  | .smerge dt _ _ => dt
  | .sapp dt _ _ => dt
  | .sbwd dt _ _ => dt
  | .strn dt _ _ => dt
  | .sxlt dt _ _ => dt
  | .walkerReply dt _ => dt
  | .copyOnWriteComplete dt _ => dt
  | .gmask dt _ _ => dt
  | .maskRequest dt _ => dt
  | .sargm dt _ _ => dt
  | .tsig dt _ _ => dt
  | .twait dt _ _ => dt
  | .ttry dt _ _ => dt
  | .twaitge dt _ _ => dt
  | .tset dt _ _ => dt
  | .tarm dt _ _ => dt
  | .tread dt _ _ => dt
  | .fence dt _ _ => dt
  | .waitu dt _ _ => dt
  | .send dt _ _ => dt
  | .wmmI8 dt _ _ => dt
  | .wmmE4 dt _ _ => dt
  | .wmmE5 dt _ _ => dt
  | .wmmBf dt _ _ => dt
  | .wmmtI8 dt _ _ => dt
  | .wmmtE4 dt _ _ => dt
  | .wdrain dt _ _ => dt
  | .wpool dt _ _ => dt
  | .wres dt _ _ => dt
  | .wunz dt _ _ => dt
  | .preemptionRequest dt _ _ _ => dt
  | .contextValid dt _ => dt
  | .restore dt _ _ => dt
  | .restoreComplete dt _ => dt
  | .coreStatus dt _ _ => dt
  | .tallyQuery dt _ _ => dt
  | .tallySignal dt _ _ => dt
  | .tallyArm dt _ _ => dt
  | .tallySet dt _ _ => dt
  | .qpQuery dt _ _ => dt
  | .qpSet dt _ _ => dt
  | .seqOpen dt _ _ => dt
  | .seqClose dt _ _ => dt
  | .seqCommit dt _ _ => dt
  | .seqEnter dt _ _ => dt
  | .stepRetire dt _ _ => dt
  | .slabReserve dt _ _ => dt
  | .prefixShare dt _ _ => dt
  | .prefixDrop dt _ _ => dt
  | .seqQuery dt _ _ => dt
  | .slabQuery dt _ _ => dt
  | .slabStatus dt _ _ => dt
  | .promotion dt _ => dt
  | .stepBuild dt _ _ => dt
  | .acceptance dt _ _ => dt
  | .releaseCheckTimeout dt _ _ => dt
  | .secondDeadlineTimeout dt _ => dt
  | .jobWaiting dt _ => dt
  | .jobStatus dt _ _ => dt
  | .lineQuery dt _ _ => dt
  | .learnPost dt _ _ => dt
  | .learnControl dt _ _ => dt
  | .textTokenize dt _ _ => dt
  | .textDetokenize dt _ _ => dt
  | .grammarBind dt _ _ => dt
  | .stopSet dt _ _ => dt
  | .grammarLoad dt _ _ => dt
  | .grammarQuery dt _ _ => dt
  | .recordCommit dt _ _ _ => dt
  | .transmitPacket dt _ => dt
  | .outHoldFall dt => dt
  | .outHoldRise dt => dt
  | .outStatus dt _ _ => dt
  | .framingRefusal dt _ => dt
  | .replyRead dt _ => dt
  | .paramRead dt _ _ => dt
  | .paramWrite dt _ _ => dt
  | .epochPost dt _ _ => dt
  | .epochDiscard dt _ _ => dt
  | .epochStatus dt _ _ => dt
  | .epochAdoption dt => dt
  | .quietApply dt => dt
  | .adapterActivate dt _ _ => dt
  | .resourceQuery dt _ _ => dt
  | .mboxWrite dt _ _ => dt
  | .mboxRead dt _ _ => dt
  | .mboxRing dt _ _ => dt
  | .mboxDbRead dt _ _ => dt
  | .mboxConfig dt _ _ => dt
  | .mboxQuery dt _ _ => dt
  | .mboxFlush dt _ _ => dt
  | .entdaa dt _ => dt
  | .setdasa dt _ => dt
  | .rstdaa dt => dt
  | .enec dt _ => dt
  | .disec dt _ => dt
  | .getpid dt => dt
  | .getbcr dt => dt
  | .getdcr dt => dt
  | .getstatus dt => dt
  | .setmwl dt _ => dt
  | .getmwl dt => dt
  | .setmrl dt _ => dt
  | .getmrl dt => dt
  | .getmxds dt => dt
  | .getcaps dt => dt
  | .enthdr0 dt => dt
  | .sleepWakeWrite dt _ => dt
  | .pwrState dt _ _ => dt
  | .pwrStatus dt _ _ => dt
  | .ageQuery dt _ _ => dt
  | .ageReplan dt _ _ => dt
  | .replan dt => dt
  | .wakeComparator dt _ => dt
  | .wakeFromSleep dt _ => dt
  | .deviceReady dt => dt
  | .dozeEntry dt _ => dt
  | .domainReady dt _ => dt
  | .clusterHoldExpiry dt _ => dt
  | .budgetChange dt => dt
  | .downshift dt _ => dt
  | .ledgerWaitReport dt _ => dt
  | .thermalSample dt _ => dt
  | .coreSenseSample dt _ => dt
  | .pathMonitorSample dt _ _ => dt
  | .ringOscillatorCount dt _ _ => dt
  | .brownOut dt _ => dt
  | .recoveryResume dt => dt
  | .sramScrub dt _ _ => dt
  | .patrolScrub dt _ _ => dt
  | .linkUncorrected dt _ => dt
  | .clockLost dt => dt
  | .refInterruption dt _ => dt
  | .aonClockLost dt => dt
  | .aonClockRestored dt => dt
  | .aonCalibration dt _ => dt
  | .tbSync dt _ => dt
  | .faultLog dt _ _ => dt
  | .faultInject dt _ _ => dt
  | .twinStatus dt _ _ => dt
  | .twinTakeover dt _ _ => dt
  | .twinHandover dt _ _ => dt
  | .handoverComplete dt => dt
  | .frzRead dt _ _ => dt
  | .freeze dt => dt
  | .heartbeat dt => dt
  | .heartbeatReceived dt _ => dt
  | .takeover dt => dt
  | .roleSettle dt => dt
  | .ackWaitExpiry dt => dt
  | .linkItemSend dt => dt
  | .hello dt _ _ => dt
  | .linkItem dt _ _ => dt
  | .commandItem dt _ _ => dt
  | .sideItem dt _ _ => dt
  | .recordItem dt _ _ => dt
  | .sent dt _ _ => dt
  | .blob dt _ _ => dt
  | .mboxItem dt _ _ => dt
  | .nak dt _ _ => dt
  | .snapshotBegin dt _ _ => dt
  | .snapshotEnd dt _ _ => dt
  | .powerOnReset dt _ => dt
  | .boot dt => dt
  | .pllLock dt => dt
  | .secIdentity dt _ _ => dt
  | .secAttest dt _ _ => dt
  | .imageWrite dt _ _ => dt
  | .imageCommit dt _ _ => dt
  | .imageActivate dt _ _ => dt
  | .profileStore dt _ _ => dt
  | .secReboot dt _ _ => dt
  | .svnCommit dt _ _ => dt
  | .keyUpdate dt _ _ => dt
  | .pinStatus dt _ _ => dt
  | .clockStatus dt _ _ => dt
  | .hostInEdge dt _ _ => dt
  | .wakeInEdge dt _ _ => dt
  | .timeTbLo dt => dt
  | .timeFcStatus dt => dt
  | .intkPortErr dt _ => dt
  | .coreNumEvt dt => dt
  | .textGmu dt => dt
  | .outPortStat dt _ => dt
  | .cmdChan dt => dt
  | .cmdIf dt => dt
  | .pwrWakeCause dt => dt
  | .fltEcc dt => dt
  | .pinClkStat dt => dt
  | .debugRegisterWrite dt _ _ => dt
  | .frzAddr dt _ => dt
  | .frzData dt => dt
  | .frzStat dt => dt
  | .frzReset dt => dt
  | .dbgAddr dt _ => dt
  | .dbgData dt _ _ => dt
  | .bypass dt _ => dt
  | .idcode dt => dt
  | .samplePreload dt _ => dt
  | .extest dt _ => dt
  | .extestPulse dt _ => dt
  | .extestTrain dt _ => dt
  | .opcodeUnknown dt _ _ _ => dt
  | .shareReturn dt => dt
  | .mirrorItemDiscarded dt _ => dt
  | .busFree dt _ => dt
  | .reverseBias dt _ => dt

/-- The commands after which TB need not be the old TB plus the elapsed time: the PLL's lock sets TB to 0 (02 R18), a rise of
power is a new boot (16 R509), and the thaw restores TB from the always-on clock (02 R26). -/
def setsTb : Instr → Bool
  | .pllLock _ => true
  | .powerOnReset _ _ => true
  | .wakeFromSleep _ _ => true
  | _ => false

/-- The packet executes at once and none of the checks that come before its opcode's own refuses it (13 R395, R396; 15 R494):
it is whole, its turn has come, the part is neither frozen nor in recovery, its EPOCH is 0 or the next one, and a standby's host
does not send what a standby refuses. -/
def executes (p : Packet) (s : State) : Bool :=
  p.framing.isNone && !s.flt.frozen && opcodeKnown p.opcode && s.boot.stage != 7 && (p.epoch == 0 || p.epoch == latestEpoch s + 1)
    && (p.sender != 0x01 || (hears s && !mustWait p s && !(isStandby s && standbyRefuses p.opcode)))

/-- The state after a packet that executed at state `a`, left `t` behind, and was answered with status 0 and `data` (13 R398). -/
def answered (p : Packet) (a : State) (data : Bytes) (t : State) : State :=
  reply p 0 (latestEpoch t) (stamp a) data (mirrorCommand p t)

/-- The state after a packet that executed at state `a` and was refused with a status. -/
def refusedWith (p : Packet) (a : State) (st : Nat) : State := reply p st (latestEpoch a) (stamp a) [] a

/-- Where the packet of an opcode's row executes at once, its command answers status 0 with `data` and leaves `t` behind. -/
def Answers (i : Instr) (op dt : Nat) (h : Hdr) (ps : Bytes) (s : State) (data : Bytes) (t : State) : Prop :=
  executes (packetOf op h ps (advance dt s)) (advance dt s) = true →
    exec i s = .next (answered (packetOf op h ps (advance dt s)) (advance dt s) data t)

/-- Where the packet of an opcode's row executes at once, its command is refused with status `st` and has no effect but the reply. -/
def Declines (i : Instr) (op dt : Nat) (h : Hdr) (ps : Bytes) (s : State) (st : Nat) : Prop :=
  executes (packetOf op h ps (advance dt s)) (advance dt s) = true →
    exec i s = .next (refusedWith (packetOf op h ps (advance dt s)) (advance dt s) st)

/-- Where the packet of an opcode's row executes at once, its command is refused with status `st` and reply data, and leaves `t` behind. -/
def DeclinesWith (i : Instr) (op dt : Nat) (h : Hdr) (ps : Bytes) (s : State) (st : Nat) (data : Bytes) (t : State) : Prop :=
  executes (packetOf op h ps (advance dt s)) (advance dt s) = true →
    exec i s = .next (reply (packetOf op h ps (advance dt s)) st (latestEpoch (advance dt s)) (stamp (advance dt s)) data t)

/-- The slot's occurrence has been handed to its target and its launch time has come (02 R39, R40), while TB counts. -/
structure Due (a : State) (cls n : Nat) (sl : Slot) : Prop where
  slot : slotAt a n = some sl
  valid : a.clk.tbValid = true
  counts : awake a = true
  dispatched : sl.state = 2
  kind : sl.cls = cls
  come : sl.launchAt ≤ a.clk.tb

/-- The word is one of the row's instruction, with no bit set that the row gives no meaning, the core issues it now, and its
predicate holds (05 R155, R156). -/
structure Runs (a : State) (c : Nat) (w : DWord) (g o none_ : Nat) : Prop where
  turn : issues a c w = true
  group : field w.toNat 63 60 = g
  op : field w.toNat 59 54 = o
  pred : pr a c (field w.toNat 53 51) = true
  clean : w.toNat &&& none_ = 0

/-- An instruction of core `c`, issued in state `a`, has left `t` behind, and the next one follows. -/
def andNext (c : Nat) (a t : State) : State := goto c ((coreAt a c).r.pc + 1) t

/-- At most an event has been told: nothing but the mailboxes, the slots that wait for a message, and the free counter differ. -/
def Told (s t : State) : Prop := ∃ c f n, t = { s with cmd := c, fc := f, freeCtr := n }

/-- Nothing but core `c` differs. -/
structure OnlyCore (c : Nat) (s t : State) : Prop where
  rest : t = { s with cores := t.cores }
  others : ∀ k, k ≠ c → coreAt t k = coreAt s k

/-- Nothing but cluster `c` (its shared L2 and its counters) differs. -/
structure OnlyCluster (c : Nat) (s t : State) : Prop where
  rest : t = { s with clusters := t.clusters }
  others : ∀ k, k ≠ c → clusterAt t k = clusterAt s k

/-- A fused key slot only gains: its digest stays, and its revoke bit stays set (16 R507). -/
def KeySlot.Gains (a b : KeySlot) : Prop :=
  (a.digest ≠ none → b.digest = a.digest) ∧ (a.revoked = true → b.revoked = true)

/-- The fuses only gain (16 R507: a fuse is never undone). -/
structure Fuses.Gains (a b : Fuses) : Prop where
  vendor : ∀ i : Nat, (nth a.vendor i ⟨none, false⟩).Gains (nth b.vendor i ⟨none, false⟩)
  owner : ∀ i : Nat, (nth a.owner i ⟨none, false⟩).Gains (nth b.owner i ⟨none, false⟩)
  fwSvn : a.fwSvn ≤ b.fwSvn
  imageSvn : a.imageSvn ≤ b.imageSvn
  ownerRequired : a.ownerRequired = true → b.ownerRequired = true
  identityPresent : a.identityPresent = true → b.identityPresent = true

end Sys2Proof.Machine
end

