-- ==== Sys2Proof/Certificates/Slice0/Obligations.lean ====
section
/-! DEFINITION. The statements for the provers, each with the rules of spec/ that it rests on. -/
section
open Sys2Proof Sys2Proof.Machine

/-- For every command c, queue r and state s, a step of the state whose queue is c followed by r is exec of c on the state whose queue is r. The
queue is the model's own (log 9). (00_scope.md; 95_what_each_step_holds.md) -/
def Obligations.StepRunsFront : Prop :=
  ∀ (c : Instr) (r : List Instr) (s : State), step { s with pending := c :: r } = exec c { s with pending := r }

/-- A step of a state whose queue is empty answers that state. The idle step is the model's choice (log 9). (00_scope.md) -/
def Obligations.StepIdles : Prop :=
  ∀ s : State, s.pending = [] → step s = .next s

/-- For every state s there is a state t such that a step of s answers next t, t's queue is s's queue without its front, t's variant is that of
s, and what the fuses of t hold is at least what those of s hold: no command of the table ends in a fault or a refusal of the model, none
puts a command in the queue, and none changes the variant (R1). (00_scope.md R1; 16_boot_security_defaults.md R507;
95_what_each_step_holds.md) -/
def Obligations.EveryStepCompletes : Prop :=
  ∀ s : State, ∃ t : State, step s = .next t ∧ t.pending = s.pending.tail ∧ t.variant = s.variant ∧ s.fuses.Gains t.fuses

/-- Whatever fuse contents F were once programmed, a state whose fuses hold at least F steps to a state whose fuses hold at least F: a programmed
digest stays, a revoke bit stays set, no SVN counter falls, OWNER_REQUIRED stays set. This is the last sentence of R507, over every command.
(16_boot_security_defaults.md R507) -/
def Obligations.FusesKeepWhatTheyHold : Prop :=
  ∀ (F : Fuses) (s t : State), F.Gains s.fuses → step s = .next t → F.Gains t.fuses

/-- In the reset state no vendor and no owner key slot is programmed or revoked, both SVN counters are 0, and OWNER_REQUIRED is clear; fuse
contents that hold at least this are all fuse contents, so the invariant of the fuses starts here. Blank fuses are the model's choice (log
6). (16_boot_security_defaults.md R507) -/
def Obligations.FusesBlankAtReset : Prop :=
  (∀ i : Nat, nth State.reset.fuses.vendor i ⟨none, false⟩ = ⟨none, false⟩ ∧ nth State.reset.fuses.owner i ⟨none, false⟩ = ⟨none, false⟩) ∧
  State.reset.fuses.fwSvn = 0 ∧ State.reset.fuses.imageSvn = 0 ∧ State.reset.fuses.ownerRequired = false ∧
  (∀ F : Fuses, State.reset.fuses.Gains F)

/-- A step that takes a command other than the PLL's lock, a power-on reset or the wake from Sleep leaves TB at its old value plus the time since
the command before where TB runs, and at its old value where it does not: no command, parameter or debug access writes TB. A lock of the
timebase PLL that a new boot waits for sets TB to 0 and starts it. (TB is a natural number in the model: it does not wrap, as R18 says no
rule provides for.) (02_timebase_and_forecast.md R18) -/
def Obligations.TbOnlyCounts : Prop :=
  (∀ (c : Instr) (r : List Instr) (s t : State), s.pending = c :: r → setsTb c = false → step s = .next t →
      t.clk.tb = if s.clk.tbRun then s.clk.tb + elapsed c else s.clk.tb) ∧
  (∀ (dt : Nat) (s : State), lockDue (advance dt s) = true →
      ∃ t, exec (.pllLock dt) s = .next t ∧ t.clk.tb = 0 ∧ t.clk.tbRun = true ∧ t.clk.tbLock = true)

/-- A state whose static address is one of 0x2C to 0x2F (0b010_11ab) steps to such a state, and any step but a power-on reset keeps the address
itself; a power-on reset samples {I3C_ASEL1, I3C_ASEL0} into its two low bits. (13_commands_and_mailboxes.md R389) -/
def Obligations.StaticAddressStays : Prop :=
  (∀ s t : State, 0x2C ≤ s.cmd.staticAddr → s.cmd.staticAddr ≤ 0x2F → step s = .next t →
      0x2C ≤ t.cmd.staticAddr ∧ t.cmd.staticAddr ≤ 0x2F) ∧
  (∀ (c : Instr) (s t : State), (∀ dt a, c ≠ .powerOnReset dt a) → exec c s = .next t → t.cmd.staticAddr = s.cmd.staticAddr) ∧
  (∀ (dt asel : Nat) (s : State), asel < 4 →
      ∃ t, exec (.powerOnReset dt asel) s = .next t ∧ t.cmd.staticAddr = 0x2C + asel)

/-- A power-on reset answers a state in which: TB, TB_VALID, P_AON's last sleep values are as at time zero (TB 0, TB_VALID 0, P_AON the nominal
30,517.578125 ns in units of 2^-24 ns); the next sheet identifier is 1 and the next record number is 1; no dynamic address is held and ENINT
is set; the read-cleared fields and the counters since boot of the clocks, the command interface, the faults and the wakes are 0; no Forecast
slot, stream, sheet, record, epoch, posted parameter or held charge exists; flash and fuses are those of before. What R534 and the chapters
give no value for is the model's choice (log 1), and not stated here. (02_timebase_and_forecast.md R18; 02_timebase_and_forecast.md R28;
01_device_and_sheet_flow.md R15; 13_commands_and_mailboxes.md R389; 13_commands_and_mailboxes.md R391; 17_pins_clocks_electrical.md R561;
13_commands_and_mailboxes.md R431; 15_faults_freeze_and_twin.md R502; 14_power_and_current.md R465; 16_boot_security_defaults.md R507;
12_results_output.md) -/
def Obligations.ResetLeaves : Prop :=
  ∀ (dt asel : Nat) (s : State), ∃ t, exec (.powerOnReset dt asel) s = .next t ∧
    t.clk.tb = 0 ∧ t.clk.tbValid = false ∧ t.clk.pAon = 512000000000000 ∧ t.clk.lastSleepTicks = 0 ∧ t.clk.lastSleepTb = 0 ∧
    t.intk.nextSheet = 1 ∧ t.out.nextRecord = 1 ∧ t.cmd.dynAddr = 0 ∧ t.cmd.enint = true ∧
    t.clk.aonLossesRc = 0 ∧ t.clk.refLossesRc = 0 ∧ t.clk.aonLosses = 0 ∧ t.fc.lateRc = 0 ∧ t.fc.lateLaunches = 0 ∧
    t.cmd.badPacketsRc = 0 ∧ t.cmd.packetsCount = 0 ∧ t.cmd.refusedCount = 0 ∧ t.cmd.ibiCount = 0 ∧ t.cmd.deniedCount = 0 ∧
    t.cmd.lostCount = 0 ∧ t.flt.faults = 0 ∧ t.flt.faultsRc = 0 ∧ t.flt.sramCeRc = 0 ∧ t.flt.ddrCeRc = 0 ∧ t.flt.ddrUeRc = 0 ∧
    t.pwr.wakes = 0 ∧ t.pwr.wakesRc = 0 ∧ t.pwr.ledgerWaits = 0 ∧
    t.fc.slots = [] ∧ openStreams t = [] ∧ t.prep.sheets = [] ∧ t.out.records = [] ∧ t.cmd.epochs = [] ∧ t.cmd.posted = [] ∧
    t.pwr.charges = [] ∧ t.flash = s.flash ∧ t.fuses = s.fuses

/-- Where the target hears the host and no packet waits before it, a packet that fails the CRC of its header, its LENGTH limit, its transfer or
the CRC of its parameters (R395 steps 1 to 4) is answered with that step's status, an abandoned one (R392) with 0x01A2, and each such reply
carries EXEC 0 and no data; OPCODE and TAG are the header's, or 0 where the header cannot be trusted. A packet with an opcode outside R402
that executes at once is refused with 0x01A3 at its execution stamp. Nothing but the reply and its counts changes.
(13_commands_and_mailboxes.md R392; 13_commands_and_mailboxes.md R395; 13_commands_and_mailboxes.md R402) -/
def Obligations.FramingIsAnswered : Prop :=
  (∀ (dt : Nat) (k : BadPacket) (s a : State) (st op tag : Nat), a = advance dt s →
    framingFailure k.header k.params k.crc.toNat k.extra = some (st, op, tag) →
    hears a = true → mustWait ⟨0x01, op, tag, latestEpoch a, [], stamp a, some st⟩ a = false →
    exec (.framingRefusal dt k) s = .next (reply ⟨0x01, op, tag, latestEpoch a, [], stamp a, some st⟩ st (latestEpoch a) 0 [] a)) ∧
  (∀ (header params : Bytes) (crc : Nat) (extra : Bool),
    (leAt header 12 4 ≠ crc32c (header.take 12) → framingFailure header params crc extra = some (0x01A0, 0, 0)) ∧
    (leAt header 12 4 = crc32c (header.take 12) →
      (16777216 < leAt header 4 4 → framingFailure header params crc extra = some (0x01A2, leAt header 0 2, leAt header 2 2)) ∧
      (leAt header 4 4 ≤ 16777216 →
        (extra = true → framingFailure header params crc extra = some (0x01A2, leAt header 0 2, leAt header 2 2)) ∧
        (extra = false → crc ≠ crc32c params → framingFailure header params crc extra = some (0x01A1, leAt header 0 2, leAt header 2 2)) ∧
        (extra = false → crc = crc32c params → framingFailure header params crc extra = none)))) ∧
  (∀ (dt : Nat) (hd : Bytes) (s a : State), a = advance dt s → hd.length = 16 → leAt hd 12 4 = crc32c (hd.take 12) →
    hears a = true → mustWait ⟨0x01, leAt hd 0 2, leAt hd 2 2, latestEpoch a, [], stamp a, some 0x01A2⟩ a = false →
    exec (.packetGap dt (some hd)) s =
      .next (reply ⟨0x01, leAt hd 0 2, leAt hd 2 2, latestEpoch a, [], stamp a, some 0x01A2⟩ 0x01A2 (latestEpoch a) 0 [] a)) ∧
  (∀ (dt : Nat) (s a : State), a = advance dt s →
    hears a = true → mustWait ⟨0x01, 0, 0, latestEpoch a, [], stamp a, some 0x01A2⟩ a = false →
    exec (.packetGap dt none) s = .next (reply ⟨0x01, 0, 0, latestEpoch a, [], stamp a, some 0x01A2⟩ 0x01A2 (latestEpoch a) 0 [] a)) ∧
  (∀ (dt op : Nat) (h : Hdr) (ps : Bytes) (s a : State), a = advance dt s → opcodeKnown op = false → a.flt.frozen = false →
    (h.sender.toNat = 0x01 → hears a = true ∧ mustWait (packetOf op h ps a) a = false) →
    exec (.opcodeUnknown dt h op ps) s = .next (refusedWith (packetOf op h ps a) a 0x01A3))

/-- The reply to a packet of the host joins the end of the reply queue as one entry of 36 bytes and its data. Its bytes are OPCODE, TAG, LENGTH,
STATUS, 2 reserved bytes, EPOCH, EXEC, 4 reserved bytes, the CRC-32C of those 28 bytes, the data, and the CRC-32C of the data, as R398 lays
them out; one more packet is counted, and one more refused packet where STATUS is not 0; everything of the command interface but the queue,
the interrupt causes and the counts is unchanged, and so is the rest of the state. (13_commands_and_mailboxes.md R398;
13_commands_and_mailboxes.md R399; 13_commands_and_mailboxes.md R428; 13_commands_and_mailboxes.md R401) -/
def Obligations.ReplyForm : Prop :=
  ∀ (p : Packet) (st ep ex : Nat) (data : Bytes) (s : State), p.sender = 0x01 → p.opcode < 2 ^ 16 → p.tag < 2 ^ 16 → st < 2 ^ 16 →
    data.length < 2 ^ 32 → ep < 2 ^ 32 → ex < 2 ^ 64 →
    ∃ r : Bytes, (reply p st ep ex data s).cmd.replies = s.cmd.replies ++ [r] ∧ r.length = 36 + data.length ∧
      leAt r 0 2 = p.opcode ∧ leAt r 2 2 = p.tag ∧ leAt r 4 4 = data.length ∧ leAt r 8 2 = st ∧ leAt r 10 2 = 0 ∧ leAt r 12 4 = ep ∧
      leAt r 16 8 = ex ∧ leAt r 24 4 = 0 ∧ leAt r 28 4 = crc32c (r.take 28) ∧ (r.drop 32).take data.length = data ∧
      leAt r (32 + data.length) 4 = crc32c data ∧
      (reply p st ep ex data s).cmd.packetsCount = inc32 s.cmd.packetsCount 1 ∧
      (reply p st ep ex data s).cmd.refusedCount = (if st = 0 then s.cmd.refusedCount else inc32 s.cmd.refusedCount 1) ∧
      reply p st ep ex data s = { s with cmd := { s.cmd with
        replies := s.cmd.replies ++ [r]
        ibis := (if s.cmd.replies.isEmpty then raiseIbi 0x01 0 0 s else s).cmd.ibis
        packetsCount := inc32 s.cmd.packetsCount 1
        refusedCount := (if st = 0 then s.cmd.refusedCount else inc32 s.cmd.refusedCount 1)
        badPacketsRc := (if p.framing.isSome then sat 0xFF (s.cmd.badPacketsRc + 1) else s.cmd.badPacketsRc) } }

/-- For every opcode row, on a part that is neither frozen nor in recovery: a packet that executes at once with an EPOCH that is neither 0 nor
the latest posted epoch plus 1 is refused with 0x04A0, with no other effect; with EPOCH 0 or with the latest posted epoch plus 1, no check
before the opcode's own refuses it. (13_commands_and_mailboxes.md R397) -/
def Obligations.EpochIsChecked : Prop :=
  ∀ (op dt : Nat) (body : Body) (h : Hdr) (ps : Bytes) (s a : State), a = advance dt s → opcodeKnown op = true → a.flt.frozen = false →
    a.boot.stage ≠ 7 → (h.sender.toNat = 0x01 → hears a = true ∧ mustWait (packetOf op h ps a) a = false) →
    (h.epoch.toNat ≠ 0 → h.epoch.toNat ≠ latestEpoch a + 1 →
      hostRow op body dt h ps s = .next (refusedWith (packetOf op h ps a) a 0x04A0)) ∧
    (h.epoch.toNat = 0 ∨ h.epoch.toNat = latestEpoch a + 1 → refusedFirst (packetOf op h ps a) a = none)

/-- For every opcode row but FRZ_READ, a packet that a frozen part hears in its turn is refused with 0x04C1; for every opcode row, a packet that
a part in recovery (boot stage 7) hears in its turn is refused with 0x04D1, unless it is SEC_IDENTITY, SEC_REBOOT, or IMAGE_WRITE or
IMAGE_COMMIT of firmware (KIND 1). Nothing but the reply and its counts changes; a reply of a frozen part carries the frozen TB.
(15_faults_freeze_and_twin.md R481; 16_boot_security_defaults.md R511) -/
def Obligations.FrozenAndRecoveryRefuse : Prop :=
  (∀ (op dt : Nat) (body : Body) (h : Hdr) (ps : Bytes) (s a : State), a = advance dt s → h.sender = 0x01 → opcodeKnown op = true →
    op ≠ 0x0C06 → a.flt.frozen = true → hears a = true → mustWait (packetOf op h ps a) a = false →
    hostRow op body dt h ps s = .next (reply (packetOf op h ps a) 0x04C1 (latestEpoch a) a.flt.frostTb [] a)) ∧
  (∀ (op dt : Nat) (body : Body) (h : Hdr) (ps : Bytes) (s a : State), a = advance dt s → h.sender = 0x01 → opcodeKnown op = true →
    a.flt.frozen = false → a.boot.stage = 7 → hears a = true → mustWait (packetOf op h ps a) a = false →
    op ≠ 0x0D01 → op ≠ 0x0D07 → ((op = 0x0D03 ∨ op = 0x0D04) → byteAt ps 0 ≠ 1) →
    hostRow op body dt h ps s = .next (refusedWith (packetOf op h ps a) a 0x04D1))

/-- Where no packet waits and the target answers reads, a read of at most n bytes returns the first min(n, MRL) bytes of the oldest reply; a
reply cut short stays in front with the rest of its bytes, a reply read whole leaves the queue, and where the queue is then empty the cause
of MDB 0x01 is re-armed. On an empty queue nothing is returned and only time passes. (13_commands_and_mailboxes.md R399;
13_commands_and_mailboxes.md R401; 13_commands_and_mailboxes.md R391) -/
def Obligations.ReplyReadReturns : Prop :=
  (∀ (dt n : Nat) (s a : State), a = advance dt s → a.cmd.replies = [] → exec (.replyRead dt n) s = .next a) ∧
  (∀ (dt n : Nat) (s a : State) (r : Bytes) (rs : List Bytes), a = advance dt s → a.cmd.replies = r :: rs → a.cmd.packets = [] →
    answersRead a = true →
    (Nat.min n a.cmd.mrl < r.length → exec (.replyRead dt n) s = .next { a with cmd := { a.cmd with
      lastRead := r.take (Nat.min n a.cmd.mrl), replies := r.drop (Nat.min n a.cmd.mrl) :: rs } }) ∧
    (r.length ≤ Nat.min n a.cmd.mrl → rs ≠ [] → exec (.replyRead dt n) s = .next { a with cmd := { a.cmd with lastRead := r, replies := rs } }) ∧
    (r.length ≤ Nat.min n a.cmd.mrl → rs = [] → exec (.replyRead dt n) s = .next { a with cmd := { a.cmd with
      lastRead := r, replies := [], ibis := a.cmd.ibis.filter (fun i => !(i.mdb == 0x01 && i.chan == 0)) } }))

/-- TIME_READ answers the TB sampled with the packet's last bit and changes nothing. SLOT_POST of a 32-byte record that passes R34, and, where it
comes from the host, R37, answers the lowest free slot number (the lowest is the model's choice, log 7) and puts there a waiting slot with
the record's fields, RELATIVE converted to the absolute due time, and the charge of one occurrence; the charge of a transmit port follows its
slots. A record that fails R34 is refused with 0x0111 before R37 is looked at, a full host pool with 0x0310. SLOT_QUERY answers the slot
record of a live slot, and refuses a number that names none with 0x0112. (02_timebase_and_forecast.md R30; 02_timebase_and_forecast.md R33;
02_timebase_and_forecast.md R34; 02_timebase_and_forecast.md R37; 02_timebase_and_forecast.md R52) -/
def Obligations.TimeCommandsAnswer : Prop :=
  (∀ (dt : Nat) (h : Hdr) (s a : State), a = advance dt s → Answers (.timeRead dt h []) 0x0101 dt h [] s (le 8 (stamp a)) a) ∧
  (∀ (dt : Nat) (h : Hdr) (ps : Bytes) (s a : State), a = advance dt s → ps ≠ [] → Declines (.timeRead dt h ps) 0x0101 dt h ps s 0x0111) ∧
  (∀ (dt n : Nat) (h : Hdr) (ps : Bytes) (s a : State), a = advance dt s → slotFormatOk a.variant ps = true →
    (h.sender.toNat = 0x01 → slotDenied a (leAt ps 14 1) (leAt ps 16 2) (leAt ps 20 4) (leAt ps 24 4) = none) →
    poolUsed a .host < poolSize a .host → Tab.free a.fc.slots 4096 = some n →
    ∀ sl : Slot,
      sl = withCharge a
        { newSlot a (if bit (leAt ps 15 1) 6 then stamp a + leAt ps 0 8 else leAt ps 0 8) (leAt ps 14 1) (leAt ps 16 2) h.sender.toNat
            (leAt ps 20 4) (leAt ps 24 4) .host .posted with
          period := leAt ps 8 4, count := leAt ps 12 2, notify := bit (leAt ps 15 1) 7 } →
      Answers (.slotPost dt h ps) 0x0102 dt h ps s (le 2 n)
        (refreshPorts { a with fc := { a.fc with slots := Tab.set a.fc.slots n sl } })) ∧
  (∀ (dt : Nat) (h : Hdr) (ps : Bytes) (s a : State), a = advance dt s → slotFormatOk a.variant ps = false →
    Declines (.slotPost dt h ps) 0x0102 dt h ps s 0x0111) ∧
  (∀ (dt st : Nat) (h : Hdr) (ps : Bytes) (s a : State), a = advance dt s → slotFormatOk a.variant ps = true → h.sender = 0x01 →
    slotDenied a (leAt ps 14 1) (leAt ps 16 2) (leAt ps 20 4) (leAt ps 24 4) = some st → Declines (.slotPost dt h ps) 0x0102 dt h ps s st) ∧
  (∀ (dt : Nat) (h : Hdr) (ps : Bytes) (s a : State), a = advance dt s → slotFormatOk a.variant ps = true → h.sender ≠ 0x01 →
    poolSize a .host ≤ poolUsed a .host → Declines (.slotPost dt h ps) 0x0102 dt h ps s 0x0310) ∧
  (∀ (dt : Nat) (h : Hdr) (ps : Bytes) (s a : State) (sl : Slot), a = advance dt s → ps.length = 2 → slotAt a (leAt ps 0 2) = some sl →
    Answers (.slotQuery dt h ps) 0x0104 dt h ps s (slotRecord sl) a) ∧
  (∀ (dt : Nat) (h : Hdr) (ps : Bytes) (s a : State), a = advance dt s → ps.length = 2 → slotAt a (leAt ps 0 2) = none →
    Declines (.slotQuery dt h ps) 0x0104 dt h ps s 0x0112)

/-- SLOT_CANCEL of a live slot from any sender that is neither its owner nor one of the control cores (0x10 to 0x13) is refused with 0x0503. From
its owner or a control core, a cancel before the hand-over of the waiting occurrence answers status 0 and frees the slot, so that the number
then names none; one at or after the hand-over is refused with 0x0402, leaves the slot there, and marks it so that nothing follows the
occurrence. A number that names no slot is refused with 0x0112. (02_timebase_and_forecast.md R38) -/
def Obligations.OwnerCancels : Prop :=
  ∀ (dt : Nat) (h : Hdr) (ps : Bytes) (s a : State), a = advance dt s → ps.length = 2 →
    (slotAt a (leAt ps 0 2) = none → Declines (.slotCancel dt h ps) 0x0103 dt h ps s 0x0112) ∧
    (∀ sl : Slot, slotAt a (leAt ps 0 2) = some sl →
      (sl.owner ≠ h.sender.toNat → ¬ (0x10 ≤ h.sender.toNat ∧ h.sender.toNat ≤ 0x13) → Declines (.slotCancel dt h ps) 0x0103 dt h ps s 0x0503) ∧
      (sl.owner = h.sender.toNat ∨ (0x10 ≤ h.sender.toNat ∧ h.sender.toNat ≤ 0x13) →
        (handedOver a sl = false → Answers (.slotCancel dt h ps) 0x0103 dt h ps s [] (refreshPorts (freeSlot (leAt ps 0 2) a)) ∧
          slotAt (refreshPorts (freeSlot (leAt ps 0 2) a)) (leAt ps 0 2) = none) ∧
        (handedOver a sl = true → DeclinesWith (.slotCancel dt h ps) 0x0103 dt h ps s 0x0402 [] (modSlot (leAt ps 0 2) (fun x => { x with last := true }) a) ∧
          slotAt (modSlot (leAt ps 0 2) (fun x => { x with last := true }) a) (leAt ps 0 2) = some { sl with last := true })))

/-- A slot that has been handed over and whose launch time has come, in a part whose TB counts, has the effect of its class when its launch is
commanded: STROBE and LINE_TRIG drive their pin to the active level for the width of ARG0; PIN_SET drives its pin to ARG0's bit 0;
TALLY_SIGNAL adds ARG1 to its tally; a DOORBELL that the channel's ACL allows rings the channel; a QUIET_POINT opens the quiet window and
sends event 2; a TB_MARK joins its port's marks; a WATCH has no effect of its own here; a WAKE of a dozing or Off die starts its wake; an
OUT_RELEASE whose record the standby has acknowledged, or needs not, releases it; a STEP_START whose stacks are awake starts its step; and
the launch is recorded with finishLaunch, which LaunchEnds states. (02_timebase_and_forecast.md R35; 02_timebase_and_forecast.md R36;
02_timebase_and_forecast.md R39; 13_commands_and_mailboxes.md R411; 13_commands_and_mailboxes.md R420; 12_results_output.md;
14_power_and_current.md R435) -/
def Obligations.LaunchesAct : Prop :=
  (∀ (dt n : Nat) (s a : State) (sl : Slot), a = advance dt s → Due a 0x01 n sl →
    exec (.strobe dt n) s = .next (finishLaunch n sl false false 0 (pulsePin sl.index sl.arg0 (bit sl.arg1 0) a))) ∧
  (∀ (dt n : Nat) (s a : State) (sl : Slot), a = advance dt s → Due a 0x02 n sl →
    exec (.lineTrig dt n) s = .next (finishLaunch n sl false false 0 (pulsePin sl.index sl.arg0 (bit sl.arg1 0) a))) ∧
  (∀ (dt n : Nat) (s a : State) (sl : Slot), a = advance dt s → Due a 0x03 n sl →
    exec (.pinSet dt n) s = .next (finishLaunch n sl false false 0 (drive sl.index (bit sl.arg0 0) a))) ∧
  (∀ (dt n : Nat) (s a : State) (sl : Slot), a = advance dt s → Due a 0x08 n sl →
    exec (.tallySignalAction dt n) s = .next (finishLaunch n sl false false 0 (signalTally sl.arg0 sl.arg1 a))) ∧
  (∀ (dt n : Nat) (s a : State) (sl : Slot), a = advance dt s → Due a 0x09 n sl → allowed a sl.index sl.owner = true →
    exec (.doorbell dt n) s = .next (finishLaunch n sl false false 0 (ringAndWake sl.index sl.arg0 a))) ∧
  (∀ (dt n : Nat) (s a : State) (sl : Slot) (q : Quiet), a = advance dt s → Due a 0x0A n sl → a.cmd.quiet = some q →
    exec (.quietPoint dt n) s = .next (finishLaunch n sl false false 0
      (cmdEvent 2 0xFF 0 sl.arg0 0 0 { a with cmd := { a.cmd with quiet := some { q with state := 2, openedAt := a.clk.tb } } }))) ∧
  (∀ (dt n : Nat) (s a : State) (sl : Slot), a = advance dt s → Due a 0x0B n sl →
    exec (.tbMark dt n) s = .next (finishLaunch n sl false false 0
      (modTx sl.index (fun p => { p with marks := p.marks ++ [⟨sl.arg0, n, sl.now, a.clk.tb⟩] }) a))) ∧
  (∀ (dt n : Nat) (s a : State) (sl : Slot), a = advance dt s → Due a 0x0C n sl →
    exec (.watch dt n) s = .next (finishLaunch n sl false false 0 a)) ∧
  (∀ (dt n : Nat) (s a : State) (sl : Slot), a = advance dt s → Due a 0x07 n sl → sl.index < 0x10 → sl.use = .posted →
    (stackAt a (sl.index - 1) = .doze ∨ stackAt a (sl.index - 1) = .off) →
    exec (.wake dt n) s = .next (finishLaunch n sl false false 0 (setStack (sl.index - 1) .waking (recordWake 3 0x03 sl.index a)))) ∧
  (∀ (dt n : Nat) (s a : State) (sl : Slot), a = advance dt s → Due a 0x05 n sl → (∀ r, recordNo a sl.arg0 = some r → ackFree a r = true) →
    exec (.outRelease dt n) s =
      .next (sweepSheets (refreshHigh (pumpReleases (finishLaunch n sl false false 0 (releaseRecord n sl a)))))) ∧
  (∀ (dt n : Nat) (s a : State) (sl : Slot), a = advance dt s → Due a 0x04 n sl → asleepStacks a sl.index = [] →
    exec (.stepStart dt n) s = .next (finishLaunch n sl false false 0 (startStep sl a)))

/-- A launch at TB t counts one more late launch where it starts more than 24 ns after the occurrence's due time, where that time is earlier than
admission + 256 ns, or where the action is beyond the limits of the same-due guarantee; otherwise it counts none. A one-shot slot, a slot
whose last occurrence this is, and a slot that a cancel reached too late are freed; otherwise the slot waits for its next occurrence, index
one higher, its LATE field 0 or the lateness in microseconds rounded up and held at 0xFF. Every other slot is as before but for the arrival
that the completion message may be to it. With NOTIFY a 64-byte completion message with the fields of R43 goes to the owner's channel. The
next due time is the scheduled one plus PERIOD. (02_timebase_and_forecast.md R39; 02_timebase_and_forecast.md R40;
02_timebase_and_forecast.md R41; 02_timebase_and_forecast.md R42; 02_timebase_and_forecast.md R43; 02_timebase_and_forecast.md R44) -/
def Obligations.LaunchEnds : Prop :=
  (∀ (t e n : Nat) (sl x : Slot) (timeout won : Bool) (arrival : Nat) (s : State), slotAt s n = some x →
    (finishAt t e n sl timeout won arrival s).fc.lateLaunches =
      (if sl.now + 24 < t ∨ sl.now < sl.admitted + 256 ∨ sl.crowded = true then inc32 s.fc.lateLaunches 1 else s.fc.lateLaunches) ∧
    (sl.period = 0 ∨ sl.last = true ∨ (sl.count ≠ 0xFFFF ∧ sl.count ≤ sl.k + 1) → slotAt (finishAt t e n sl timeout won arrival s) n = none) ∧
    (sl.period ≠ 0 → sl.last = false → (sl.count = 0xFFFF ∨ sl.k + 1 < sl.count) →
      slotAt (finishAt t e n sl timeout won arrival s) n = some { x with
        state := 1, k := x.k + 1, arrival := none, handed := 0, crowded := false
        late := if sl.now + 24 < t ∨ sl.now < sl.admitted + 256 ∨ sl.crowded = true then Nat.min 0xFF ((t - sl.now + 999) / 1000) else 0 }) ∧
    (∀ m : Nat, m ≠ n → (slotAt (finishAt t e n sl timeout won arrival s) m).map (fun y => { y with arrival := none })
      = (slotAt s m).map (fun y => { y with arrival := none }))) ∧
  (∀ (x : Slot), ({ x with k := x.k + 1 } : Slot).now = x.now + x.period) ∧
  (∀ (n e : Nat) (sl : Slot) (late timeout won : Bool) (arrival : Nat), (completion n sl late e timeout won arrival).length = 64)

/-- Where a DEADLINE has launched at L and TB is at least L + 64, its command decides it: an awaited arrival stamped at or before its due time D
leaves everything but the slot and its message as it was (WON, with the arrival's stamp); with no arrival, or one stamped after D, the tally
of ARG1 is signalled by 1 and the owner's timeout follows (TIMEOUT). Before L + 64 only time passes. For an awaited tally (kind 1) the
arrival's stamp is the tally's REACHED. (02_timebase_and_forecast.md R49; 02_timebase_and_forecast.md R43; 05_clove_cores.md R148) -/
def Obligations.DeadlineDecides : Prop :=
  ∀ (dt n : Nat) (s a : State) (sl : Slot), a = advance dt s → Due a 0x06 n sl →
    (a.clk.tb < sl.launchAt + 64 → exec (.deadline dt n) s = .next a) ∧
    (sl.launchAt + 64 ≤ a.clk.tb →
      (∀ v : Nat, arrivalOf a sl = some v → v ≤ sl.now →
        exec (.deadline dt n) s = .next (finishAt sl.launchAt (sl.launchAt + 64) n sl false true v a)) ∧
      ((∀ v : Nat, arrivalOf a sl = some v → sl.now < v) →
        exec (.deadline dt n) s = .next (finishAt sl.launchAt (sl.launchAt + 64) n sl true false 0 (timedOut sl (signalTally sl.arg1 1 a)))))

/-- An occurrence due before its admission + 256 ns launches at the admission + 256 ns, is late at every launch, and its launch counts one more
late launch. A slot admitted now with a due time less than 256 ns ahead, or already past, is such an action, and is admitted at this stamp.
PIN_SET completes so: from admission + 256 ns on it drives its pin and ends as a late launch, and before that it changes only the time.
(02_timebase_and_forecast.md R40) -/
def Obligations.ShortDueIsLate : Prop :=
  (∀ sl : Slot, sl.now < sl.admitted + 256 → sl.launchAt = sl.admitted + 256 ∧ ∀ t, sl.isLate t = true) ∧
  (∀ (t e n : Nat) (sl : Slot) (timeout won : Bool) (arrival : Nat) (s : State), sl.now < sl.admitted + 256 →
    (finishAt t e n sl timeout won arrival s).fc.lateLaunches = inc32 s.fc.lateLaunches 1) ∧
  (∀ (s : State) (cls ix owner a0 a1 : Nat) (p : Pool) (u : SlotUse),
    (∀ d, d < 256 → (newSlot s (stamp s + d) cls ix owner a0 a1 p u).now < (newSlot s (stamp s + d) cls ix owner a0 a1 p u).admitted + 256) ∧
    (∀ d, d ≤ stamp s → (newSlot s d cls ix owner a0 a1 p u).now < (newSlot s d cls ix owner a0 a1 p u).admitted + 256) ∧
    (∀ d, (newSlot s d cls ix owner a0 a1 p u).admitted = stamp s)) ∧
  (∀ (dt n : Nat) (sl : Slot) (s a : State), a = advance dt s → slotAt a n = some sl → a.clk.tbValid = true → awake a = true → sl.state = 2 → sl.cls = 0x03 → sl.now < sl.admitted + 256 →
    (sl.admitted + 256 ≤ a.clk.tb → exec (.pinSet dt n) s = .next (finishAt a.clk.tb a.clk.tb n sl false false 0 (drive sl.index (bit sl.arg0 0) a))) ∧
    (a.clk.tb < sl.admitted + 256 → exec (.pinSet dt n) s = .next a))

/-- While TB counts, a grant of shares takes shares from the front of the queue and no others, holds each as a charge of its units on VDD_CORE,
and stops where the next would take the grants of the last microsecond above 80 units: where they were at most 80 before, they are at most 80
after (a queue of fewer than 512 shares is granted as far as that allows). A return of shares gives back from the front of the returns queue
in the same way, and then lets waiting actions ask again. (14_power_and_current.md R449; 02_timebase_and_forecast.md R46;
14_power_and_current.md R450) -/
def Obligations.SharesKeepTheRate : Prop :=
  (∀ (dt : Nat) (s a : State), a = advance dt s → awake a = true → ∃ (t : State) (g : List Share), exec (.shareGrant dt) s = .next t ∧
    a.pwr.shares = g ++ t.pwr.shares ∧ t.pwr.charges = a.pwr.charges ++ g.map (fun x => ⟨1, x.units, x.holder⟩) ∧
    (windowSum a.clk.tb a.pwr.granted ≤ 80 → windowSum a.clk.tb t.pwr.granted ≤ 80) ∧
    (a.pwr.shares.length < 512 → ∀ x xs, t.pwr.shares = x :: xs → 80 < windowSum a.clk.tb t.pwr.granted + x.units)) ∧
  (∀ (dt : Nat) (s a : State), a = advance dt s → awake a = true → ∃ (t : State) (g : List Share), exec (.shareReturn dt) s = .next (withMode retryWaiting t) ∧
    a.pwr.returns = g ++ t.pwr.returns ∧ t.pwr.charges = g.foldl (fun l x => l.erase ⟨1, x.units, x.holder⟩) a.pwr.charges ∧
    (windowSum a.clk.tb a.pwr.returned ≤ 80 → windowSum a.clk.tb t.pwr.returned ≤ 80) ∧
    (a.pwr.returns.length < 512 → ∀ x xs, t.pwr.returns = x :: xs → 80 < windowSum a.clk.tb t.pwr.returned + x.units))

/-- At its pre-dispatch point an action of a class without a charge is handed to its target: its STATE becomes dispatched, the stamp of the
hand-over is TB, its CHARGE and RAIL are 0, and whether its launch is crowded by the other actions of its launch time is noted; every other
slot is as before. A STEP_START that has waited DOWNSHIFT_WAIT (not 0) on VDD_CORE is offered again at the one point that downshiftPoint
finds, and waits on where there is none. An action that has waited for more than 1 ms on a rail sends event 4 with the rail and its slot
number, once. (02_timebase_and_forecast.md R39; 02_timebase_and_forecast.md R45; 14_power_and_current.md R448; 14_power_and_current.md R463) -/
def Obligations.PreDispatchAndWaits : Prop :=
  (∀ (dt n : Nat) (s a : State) (sl : Slot), a = advance dt s → canPreDispatch a n = true → slotAt a n = some sl →
    sl.cls ∈ [0x01, 0x02, 0x03, 0x06, 0x08, 0x09, 0x0A, 0x0B, 0x0C] → (∀ j k, sl.use ≠ .stepStart j k) →
    ∃ t, exec (.preDispatch dt n) s = .next t ∧
      slotAt t n = some { sl with state := 2, waitRail := 0, handed := a.clk.tb, asked := a.clk.tb, charge := 0, rail := 0, crowded := isCrowded a n sl } ∧
      (∀ m, m ≠ n → slotAt t m = slotAt a m) ∧ t = { a with fc := { a.fc with slots := t.fc.slots } }) ∧
  (∀ (dt n : Nat) (s a : State) (sl : Slot), a = advance dt s → slotAt a n = some sl → awake a = true → sl.state = 3 → sl.waitRail = 1 →
    sl.cls = 0x04 → par a 0x0B000008 ≠ 0 → sl.asked + par a 0x0B000008 ≤ a.clk.tb →
    (∀ k, downshiftPoint a (uncharged a sl.index) = some k → exec (.downshift dt n) s = .next (takeClusters n sl (fun _ => k) a)) ∧
    (downshiftPoint a (uncharged a sl.index) = none → exec (.downshift dt n) s = .next a)) ∧
  (∀ (dt n : Nat) (s a : State) (sl : Slot), a = advance dt s → slotAt a n = some sl → awake a = true → sl.state = 3 → sl.reported = false →
    sl.asked + 1000000 < a.clk.tb →
    exec (.ledgerWaitReport dt n) s = .next (pwrEvent 4 sl.waitRail n [] (modSlot n (fun x => { x with reported := true }) a)))

/-- STREAM_OPEN of a closed stream that passes the checks of R92 opens it in state starting, with its lines of storage and its counters at 0,
claims its pins, charges its outputs and takes its charges; from the host it ends stream discovery. STREAM_CLOSE closes an open stream with
status 0. FLAT_LOAD of a table of the stream's width that the pool takes stores it for its channel as a table not yet in use. SPEED_SET adds
the speed with its stamp. STREAM_STATUS answers 16 bytes: state, edge state, sheet, lines received, lines in the ring. An open of an open
stream is refused with 0x0420, any of the others on a closed stream with 0x0421, a LENGTH that is wrong with 0x0120. (03_scan_intake.md R92;
03_scan_intake.md R83; 03_scan_intake.md R87; 03_scan_intake.md R68; 03_scan_intake.md R70; 16_boot_security_defaults.md R515) -/
def Obligations.StreamCommandsAnswer : Prop :=
  (∀ (dt k : Nat) (h : Hdr) (ps : Bytes) (s a b c d : State), a = advance dt s → ps.length = 4 → streamField ps = some k →
    (streamAt a k).state = 0 → openRefusal a k = none →
    b = asOpen k (if h.sender.toNat = 0x01 then endDiscovery a else a) →
    c = modStream k (fun t => { t with storage := if widthOf b k = 0 then [0, 0, 0, 0] else storageOf b k, openedAt := stamp b }) b →
    d = { c with prep := { c.prep with
      frames := setNth c.prep.frames k 0, counts := setNth c.prep.counts k ⟨0, 0, 0, 0, 0, 0, 0⟩ } } →
    Answers (.streamOpen dt h ps) 0x0201 dt h ps s [] (tryStart k (refreshPorts (claimPins k d)))) ∧
  (∀ (dt k : Nat) (h : Hdr) (ps : Bytes) (s a : State), a = advance dt s → ps.length = 4 → streamField ps = some k →
    ((streamAt a k).state ≠ 0 → Declines (.streamOpen dt h ps) 0x0201 dt h ps s 0x0420 ∧
      Answers (.streamClose dt h ps) 0x0202 dt h ps s [] (closeStream k 0 (if h.sender.toNat = 0x01 then endDiscovery a else a))) ∧
    ((streamAt a k).state = 0 → Declines (.streamClose dt h ps) 0x0202 dt h ps s 0x0421 ∧ Declines (.streamStatus dt h ps) 0x0205 dt h ps s 0x0421) ∧
    ((streamAt a k).state ≠ 0 → ipar a k 0x00 ≠ 0 → Answers (.streamStatus dt h ps) 0x0205 dt h ps s
      (pack [(1, (streamAt a k).state), (1, if (streamAt a k).frameOpen then 2 else 0), (2, 0),
        (4, ((streamAt a k).side.map (fun d => d.edge.sheet)).getD 0), (4, (streamAt a k).linesRx), (4, (streamAt a k).ring.length)]) a) ∧
    ((streamAt a k).state ≠ 0 → ipar a k 0x00 = 0 → (streamAt a k).edge = .gap → Answers (.streamStatus dt h ps) 0x0205 dt h ps s
      (pack [(1, (streamAt a k).state), (1, 0), (2, 0),
        (4, ((streamAt a k).side.map (fun d => d.edge.sheet)).getD 0), (4, (streamAt a k).linesRx), (4, (streamAt a k).ring.length)]) a)) ∧
  (∀ (dt : Nat) (h : Hdr) (ps : Bytes) (s : State), ps.length ≠ 4 → Declines (.streamOpen dt h ps) 0x0201 dt h ps s 0x0120 ∧
    Declines (.streamClose dt h ps) 0x0202 dt h ps s 0x0120 ∧ Declines (.streamStatus dt h ps) 0x0205 dt h ps s 0x0120) ∧
  (∀ (dt k c : Nat) (h : Hdr) (ps : Bytes) (s a b : State), a = advance dt s → k = byteAt ps 0 → c = byteAt ps 1 → k ≤ 11 → resZero ps 2 2 = true →
    c < channels a k → (streamAt a k).state ≠ 0 → widthOf a k ≠ 0 → ps.length = 4 + 4 * widthOf a k →
    b = modStream k (fun x => { x with flats := Tab.set x.flats (c + 8) ⟨flatEntries (widthOf a k) (ps.drop 4), false⟩ }) a →
    poolUsedBy b (dieOf a k) ≤ 6291456 → Answers (.flatLoad dt h ps) 0x0203 dt h ps s [] b) ∧
  (∀ (dt k : Nat) (h : Hdr) (ps : Bytes) (s a : State), a = advance dt s → k = byteAt ps 0 → ps.length = 16 → k ≤ 11 → resZero ps 1 3 = true →
    ipar a k 0x20 = 1 → 1000 ≤ leAt ps 4 4 → leAt ps 4 4 ≤ 20000000 →
    ((streamAt a k).state ≠ 0 → Answers (.speedSet dt h ps) 0x0204 dt h ps s []
      (modStream k (fun t => { t with speeds := t.speeds ++ [(leAt ps 8 8, leAt ps 4 4)] }) a)) ∧
    ((streamAt a k).state = 0 → Declines (.speedSet dt h ps) 0x0204 dt h ps s 0x0421))

/-- In a running part, a packet on a pair that no open stream maps, and one for a stream that has not started (but one that sizes it), is
discarded and counted as a stray; a header whose single-bit error the ECC corrected is counted first. On a started stream: a Line Start in
mode 0 with no line in progress opens one; a whole long packet of the stream's type and width joins the open line's samples, and one with a
failed CRC, or of another type, counts an error of the port and makes the line corrupt; a Line End of a line in progress in mode 0 ends it,
and with no line in progress counts a framing error; Frame Start begins a side and Frame End of an open frame ends it, where the trigger is
not LINE, and neither does anything where it is LINE; a replay packet of code 0x08 or 0x09 keeps half of the replay identifier; an
uncorrectable header counts an error of the port and makes every line in progress on it corrupt. (03_scan_intake.md R58; 03_scan_intake.md
R60; 03_scan_intake.md R62; 03_scan_intake.md R64; 03_scan_intake.md R83; 03_scan_intake.md R95) -/
def Obligations.PacketsOfALine : Prop :=
  (∀ (dt port vc data code : Nat) (fix : Bool) (p : LongPkt) (s a : State), a = countFix fix port (advance dt s) → awake a = true → a.boot.ready = true → streamOf a port vc = none →
    p.port = port → p.vc = vc → p.fix = fix →
    exec (.frameStart dt fix port vc) s = .next (countStray a) ∧ exec (.frameEnd dt fix port vc) s = .next (countStray a) ∧
    exec (.lineStart dt fix port vc data) s = .next (countStray a) ∧ exec (.longPacket dt p) s = .next (countStray a) ∧
    exec (.lineEnd dt fix port vc) s = .next (countStray a) ∧ exec (.genericShortPacket dt fix port vc code data) s = .next (countStray a)) ∧
  (∀ (dt port vc data k : Nat) (fix : Bool) (p : LongPkt) (s a : State), a = countFix fix port (advance dt s) → awake a = true → a.boot.ready = true → streamOf a port vc = some k →
    (streamAt a k).state ≠ 1 → (streamAt a k).state ≠ 0 → p.port = port → p.vc = vc → p.fix = fix →
    (ipar a k 0x00 = 0 → exec (.frameStart dt fix port vc) s = .next a ∧ exec (.frameEnd dt fix port vc) s = .next a) ∧
    (ipar a k 0x00 ≠ 0 → exec (.frameStart dt fix port vc) s = .next (beginFrame k a) ∧
      ((streamAt a k).frameOpen = true → exec (.frameEnd dt fix port vc) s = .next (endFrame k false a)) ∧
      ((streamAt a k).frameOpen = false → exec (.frameEnd dt fix port vc) s = .next (countStray a))) ∧
    (ipar a k 0x05 = 0 → (streamAt a k).asm = none →
      exec (.lineStart dt fix port vc data) s = .next (modStream k (fun t => { t with asm := some ⟨some 0, false, [], none, false⟩ }) a) ∧
      exec (.lineEnd dt fix port vc) s = .next (countFraming (ipar a k 0x01) a)) ∧
    (∀ (c : Nat) (x : Assembly), (streamAt a k).asm = some x → x.openCh = some c →
      [0x24, 0x2A, 0x2B, 0x2C, 0x2D, 0x2E].contains p.dataType = true → widthOf a k ≠ 0 →
      (longOk a k p = true → x.gotLong = false →
        exec (.longPacket dt p) s = .next (modStream k (fun t => { t with asm := some { x with
          gotLong := true, chans := x.chans ++ [(c, (unpack p.dataType p.payload).flatten)] } }) a)) ∧
      (p.dataType = ipar a k 0x03 → p.crcOk = false → p.wordCount * 8 = widthOf a k * pixelBits p.dataType →
        exec (.longPacket dt p) s = .next (modStream k (fun t => { t with asm := some { x with
          gotLong := true, corrupt := true, chans := x.chans ++ [(c, [])] } }) (countCrc port a))) ∧
      (p.dataType ≠ ipar a k 0x03 → p.crcOk = true →
        exec (.longPacket dt p) s = .next (modStream k (fun t => { t with asm := some { x with
          gotLong := true, corrupt := true, chans := x.chans ++ [(c, [])] } }) (countFraming port a)))) ∧
    (∀ (c : Nat) (x : Assembly), (streamAt a k).asm = some x → x.openCh = some c → ipar a k 0x05 = 0 →
      exec (.lineEnd dt fix port vc) s = .next (finishAsm k (modStream k (fun t => { t with asm := some { x with
        openCh := none, corrupt := x.corrupt || !x.gotLong } }) a))) ∧
    (ipar a k 0x00 = 2 →
      exec (.genericShortPacket dt fix port vc 0x08 data) s = .next (modStream k (fun t => { t with replayLo := some (data % 65536) }) a) ∧
      exec (.genericShortPacket dt fix port vc 0x09 data) s = .next (modStream k (fun t => { t with replayHi := some (data % 65536) }) a))) ∧
  (∀ (dt port : Nat) (s a : State), a = advance dt s → awake a = true → port < a.variant.rxPorts →
    exec (.uncorrectableHeaderError dt port) s = .next ((onPort a port).foldl (fun b k => modStream k (fun t => { t with
      asm := t.asm.map (fun y => { y with corrupt := true }) }) b)
      (modPort port (fun e => { e with hdrUncorr := if e.hdrUncorr < 0xFF then e.hdrUncorr + 1 else 0xFF }) a))) ∧
  (∀ (fix : Bool) (port : Nat) (a : State), countFix fix port a = { a with intk := { a.intk with
    ports := modNth a.intk.ports port (fun e => { e with hdrCorr := if fix then (if 0xFF < e.hdrCorr + 1 then 0xFF else e.hdrCorr + 1) else e.hdrCorr }) } })

/-- In a running part: a stream in mode 0 with a line period whose last line is more than 1.5 periods old takes one missing line; a tachometer
edge on a pin adds its stamp, of which 9 are kept, to a stream that follows that pin, where it is the only open stream; a start of an open
stream takes the charges that can be admitted, and starts it once its width is known and all are held; where stream discovery is on, a pair
that has shown 16 lines and was not refused is opened as discovery opens it, and a refused pair is tried again one second after the refusal.
(03_scan_intake.md R64; 02_timebase_and_forecast.md R36; 03_scan_intake.md R70; 03_scan_intake.md R83; 16_boot_security_defaults.md R515) -/
def Obligations.StreamEventsAct : Prop :=
  (∀ (dt k l : Nat) (s a : State), a = advance dt s → awake a = true → 2 ≤ (streamAt a k).state → ipar a k 0x10 ≠ 0 → ipar a k 0x05 = 0 →
    (streamAt a k).lastStamp = some l →
    (3 * ipar a k 0x10 < 2 * (a.clk.tb - l) → exec (.missingLine dt k) s = .next (emitLine k none (streamAt a k).asm.isSome a)) ∧
    (2 * (a.clk.tb - l) ≤ 3 * ipar a k 0x10 → exec (.missingLine dt k) s = .next a)) ∧
  (∀ (dt k pin : Nat) (s a : State), a = advance dt s → awake a = true → openStreams a = [k] → ipar a k 0x20 = 2 → ipar a k 0x23 = pin →
    exec (.tachEdge dt pin) s = .next (modStream k (fun t => { t with tach := (stamp a :: t.tach).take 9 }) a)) ∧
  (∀ (dt k : Nat) (s a b : State), a = advance dt s → awake a = true → (streamAt a k).state ≠ 0 → b = takeStream k a →
    (((streamAt b k).state = 1 ∧ widthOf b k ≠ 0 ∧ streamCharged b k = true) → exec (.streamStart dt k) s = .next (startStream k b)) ∧
    (¬ ((streamAt b k).state = 1 ∧ widthOf b k ≠ 0 ∧ streamCharged b k = true) → exec (.streamStart dt k) s = .next b)) ∧
  (∀ (dt k : Nat) (x : PairSeen) (s a : State), a = advance dt s → discovers a k = true → 16 ≤ x.lines → refusedAt a k = none →
    exec (.streamDiscovery dt k x) s = .next (discover k x a)) ∧
  (∀ (dt k t : Nat) (x : PairSeen) (s a : State), a = advance dt s → discovers a k = true → 16 ≤ x.lines → refusedAt a k = some t →
    (t + 1000000000 ≤ a.clk.tb → exec (.discoveryRetry dt k x) s = .next (discover k x a)) ∧
    (a.clk.tb < t + 1000000000 → exec (.discoveryRetry dt k x) s = .next a))

/-- REGION_POST of 1 to 512 well-formed records for a side that preparation holds, that has no record yet and that takes host regions now adds
them in order as host regions and then closes the classes that are full; for a side that does not take them it is refused with 0x0432, for
one not held with 0x0131, and with a wrong LENGTH with 0x0132. AUG_POST of 1 to 256 records adds them in order, each in the place of an
earlier one of its region, and answers how many it took, up to the first that is refused, whose status it then gives. STEER_SET of up to
1,024 well-formed regions sets the stream's steering list. PREP_STATUS answers the newest side held, its prepared bands, the bands that wait
for a slot, the steering regions, the samples and the unused augmentation records, and changes nothing. (04_page_preparation.md R106;
04_page_preparation.md R122; 04_page_preparation.md R124; 04_page_preparation.md R126; 04_page_preparation.md R111; 04_page_preparation.md
R130) -/
def Obligations.PrepCommandsAnswer : Prop :=
  (∀ (dt n : Nat) (h : Hdr) (ps : Bytes) (x : Sheet) (l : List Bytes) (s a : State), a = advance dt s → n = leAt ps 4 2 → 1 ≤ n → n ≤ 512 →
    ps.length = 8 + 32 * n → resZero ps 6 2 = true → sheetAt a (leAt ps 0 4) = some x → x.alive = true → x.recorded = false → l = records 32 n (ps.drop 8) →
    (awaitsHost a x (stamp a) = true → l.all (regionOk a x.id) = true → Answers (.regionPost dt h ps) 0x0301 dt h ps s []
      (closeFull 64 (l.foldl (fun b r => takeRegion { regionOf r with host := true } b) a))) ∧
    (awaitsHost a x (stamp a) = true → l.all (regionOk a x.id) = false → Declines (.regionPost dt h ps) 0x0301 dt h ps s 0x0132) ∧
    (awaitsHost a x (stamp a) = false → Declines (.regionPost dt h ps) 0x0301 dt h ps s 0x0432)) ∧
  (∀ (dt : Nat) (h : Hdr) (ps : Bytes) (s a : State), a = advance dt s → 1 ≤ leAt ps 4 2 → leAt ps 4 2 ≤ 512 →
    ps.length = 8 + 32 * leAt ps 4 2 → resZero ps 6 2 = true → sheetAt a (leAt ps 0 4) = none → Declines (.regionPost dt h ps) 0x0301 dt h ps s 0x0131) ∧
  (∀ (dt n : Nat) (h : Hdr) (ps : Bytes) (s a : State), a = advance dt s → n = leAt ps 0 2 → 1 ≤ n → n ≤ 256 → ps.length = 4 + 48 * n → resZero ps 2 2 = true →
    ∀ (r : Option Nat × Nat × State), r = postAugs (stamp a) (records 48 n (ps.drop 4)) 0 a →
      (r.1 = none → Answers (.augPost dt h ps) 0x0302 dt h ps s (le 2 r.2.1) r.2.2) ∧
      (∀ st, r.1 = some st → DeclinesWith (.augPost dt h ps) 0x0302 dt h ps s st (le 2 r.2.1) r.2.2)) ∧
  (∀ (now n : Nat) (p : Bytes) (r : List Bytes) (a : State), augOk p = true → a.prep.aug.length < 8192 →
    (∀ x, sheetAt a (augOf now p).sheet = some x → x.cut.contains (augOf now p).region = false) →
    postAugs now (p :: r) n a = postAugs now r (n + 1) { a with prep := { a.prep with
      aug := a.prep.aug.filter (fun x => !(x.sheet == (augOf now p).sheet && x.region == (augOf now p).region)) ++ [augOf now p] } }) ∧
  (∀ (dt k n : Nat) (h : Hdr) (ps : Bytes) (s a : State), a = advance dt s → k = byteAt ps 0 → n = leAt ps 2 2 → k ≤ 11 → byteAt ps 1 = 0 → n ≤ 1024 →
    ps.length = 4 + 32 * n →
    ((records 32 n (ps.drop 4)).all (regionOk a 0) = true → Answers (.steerSet dt h ps) 0x0303 dt h ps s []
      { a with prep := { a.prep with steer := setNth a.prep.steer k ((records 32 n (ps.drop 4)).map regionOf) } }) ∧
    ((records 32 n (ps.drop 4)).all (regionOk a 0) = false → Declines (.steerSet dt h ps) 0x0303 dt h ps s 0x0132)) ∧
  (∀ (dt k : Nat) (h : Hdr) (ps : Bytes) (l : List Sheet) (s a : State), a = advance dt s → k = byteAt ps 0 → ps.length = 4 → k ≤ 11 → resZero ps 1 3 = true →
    l = a.prep.sheets.filter (fun x => x.stream == k && x.alive) →
    Answers (.prepStatus dt h ps) 0x0304 dt h ps s
      (pack [(4, (l.getLast?.map Sheet.id).getD 0), (2, (l.getLast?.map Sheet.prepared).getD 0),
        (2, l.foldl (fun n x => if x.waitingSince.isSome then n + (x.released.length - x.prepared) else n) 0), (2, (nth a.prep.steer k []).length),
        (2, (a.prep.samples.filter (fun x => x.stream == k)).length), (4, a.prep.augUnused)]) a)

/-- In a part that runs and does not recover: a band of a stream whose turn on its die it is, of a side with a geometry, is prepared into a slot;
a command for a batch fills the oldest closed batch of its class; a side that has waited for a slot longer than SPLIT_ADVISE (not 0) sends
event 6 once and is marked so. (04_page_preparation.md R99; 04_page_preparation.md R105; 04_page_preparation.md R118; 04_page_preparation.md
R123) -/
def Obligations.PrepEventsAct : Prop :=
  (∀ (dt k : Nat) (x : Sheet) (g : Geometry) (s a b : State), a = advance dt s → awake a = true → recovering a = false →
    b = noteWaiting k (releaseAll k a) → nextSide b k = some x → x.geo = some g →
    (bandTurn b k = true → exec (.bandPrepared dt k) s = .next (prepareBand k x g b)) ∧
    (bandTurn b k = false → exec (.bandPrepared dt k) s = .next b)) ∧
  (∀ (dt c : Nat) (s a : State), a = advance dt s → awake a = true → recovering a = false → exec (.batchFilled dt c) s = .next (fillBatch c a)) ∧
  (∀ (dt k t : Nat) (x : Sheet) (s a : State), a = advance dt s → awake a = true → nextSide a k = some x → x.waitingSince = some t → par a 0x03F00001 ≠ 0 →
    (x.advised = false → t + par a 0x03F00001 < a.clk.tb →
      exec (.splitAdvice dt k) s = .next (prepEvent k 6 0 x.id 0xFFFF max32 [] (modSheet x.id (fun y => { y with advised := true }) a))) ∧
    (x.advised = true ∨ a.clk.tb ≤ t + par a 0x03F00001 → exec (.splitAdvice dt k) s = .next a))

/-- Where the home of the tally is reachable for the sender: TALLY_QUERY answers the 32-byte record of the tally; TALLY_SIGNAL signals it;
TALLY_ARM sets ARM to its value and REACHED to the stamp where the count is already there and to 0 otherwise, and no other field of any
tally; TALLY_SET answers the count of before and sets it. A tally the sender may not change, or one that does not exist, is refused with the
status of tallyRefusal. CORE_STATUS of a cluster answers the state of its 8 cores and the job of each that holds a tile. QP_SET of a
parameter set that exists keeps the new values for its next use, and QP_QUERY answers its record; a number that names none is refused with
0x0142. (05_clove_cores.md R147; 05_clove_cores.md R148; 05_clove_cores.md R149; 05_clove_cores.md R154; 05_clove_cores.md R181;
06_number_formats_and_quantisation.md R204) -/
def Obligations.TallyCommandsAnswer : Prop :=
  (∀ (dt t : Nat) (h : Hdr) (ps : Bytes) (s a : State), a = advance dt s → t = leAt ps 0 2 →
    (ps.length = 4 → resZero ps 2 2 = true → tallyRefusal a t true false = none →
      Answers (.tallyQuery dt h ps) 0x0402 dt h ps s (tallyRecord (tallyAt a t)) (touchHome a t)) ∧
    (ps.length = 4 → leAt ps 2 2 ≠ 0 → tallyRefusal a t true true = none →
      Answers (.tallySignal dt h ps) 0x0403 dt h ps s [] (signalAndTake t (leAt ps 2 2) (touchHome a t))) ∧
    (ps.length = 8 → resZero ps 2 2 = true → tallyRefusal a t true true = none →
      Answers (.tallyArm dt h ps) 0x0404 dt h ps s [] (armTally t (leAt ps 4 4) (touchHome a t)) ∧
      Answers (.tallySet dt h ps) 0x0405 dt h ps s (le 4 (tallyAt a t).count) (setCount t (leAt ps 4 4) (touchHome a t))) ∧
    (∀ st, ps.length = 8 → resZero ps 2 2 = true → tallyRefusal a t true true = some st →
      Declines (.tallyArm dt h ps) 0x0404 dt h ps s st ∧ Declines (.tallySet dt h ps) 0x0405 dt h ps s st)) ∧
  (∀ (t v : Nat) (a : State),
    tallyAt (armTally t v a) t = { tallyAt a t with arm := v, reached := if v ≠ 0 ∧ v ≤ (tallyAt a t).count then stamp a else 0 } ∧
    (∀ u, u ≠ t → tallyAt (armTally t v a) u = tallyAt a u) ∧ armTally t v a = { a with tallies := (armTally t v a).tallies }) ∧
  (∀ (dt c : Nat) (h : Hdr) (ps : Bytes) (s a : State), a = advance dt s → c = byteAt ps 0 → ps.length = 4 → resZero ps 1 3 = true → c < a.variant.clusters →
    Answers (.coreStatus dt h ps) 0x0401 dt h ps s
      ((List.range 8).map (fun i => BitVec.ofNat 8 (coreAt a (8 * c + i)).state) ++
        (List.range 8).map (fun i => BitVec.ofNat 8 (if (coreAt a (8 * c + i)).tile.isSome then (coreAt a (8 * c + i)).job else 0xFF))) a) ∧
  (∀ (dt n : Nat) (h : Hdr) (ps : Bytes) (s a : State), a = advance dt s → n = leAt ps 0 2 → ps.length = 4 → leAt ps 2 2 = 0 →
    (∀ q, qpAt a n = some q → Answers (.qpQuery dt h ps) 0x0410 dt h ps s (qpRecord n q) a) ∧
    (qpAt a n = none → Declines (.qpQuery dt h ps) 0x0410 dt h ps s 0x0142)) ∧
  (∀ (dt n : Nat) (h : Hdr) (ps : Bytes) (s a : State), a = advance dt s → n = leAt ps 0 2 → ps.length = 8 → byteAt ps 2 ≤ 2 →
    -16 ≤ sext 8 (byteAt ps 3) → sext 8 (byteAt ps 3) ≤ sext 8 (byteAt ps 4) → sext 8 (byteAt ps 4) ≤ 16 → byteAt ps 5 ≠ 0 → leAt ps 6 2 ≠ 0 →
    (∀ q, qpAt a n = some q → Answers (.qpSet dt h ps) 0x0411 dt h ps s []
      (modQp n (fun q => { q with next := some (byteAt ps 2, sext 8 (byteAt ps 3), sext 8 (byteAt ps 4), byteAt ps 5, leAt ps 6 2) }) a)) ∧
    (qpAt a n = none → Declines (.qpSet dt h ps) 0x0411 dt h ps s 0x0142))

/-- For every row of a core instruction: a core that cannot issue the word now, and a word of another instruction, leave only the time passed; an
instruction whose predicate is 0 has no effect but that the next one follows; one with a bit set that its row gives no meaning is a
CORE_ILLEGAL fault (0x0740). After an instruction issue goes on at the index given where no loop body ends there; at the end of the innermost
open body it goes back to the body's start with one iteration fewer, or, after the last iteration, closes the level and goes on; at the end
of a body inside which a level is still open it is CORE_ILLEGAL. X0 reads 0 and P0 reads 1, and a write of either does nothing.
(05_clove_cores.md R155; 05_clove_cores.md R156; 05_clove_cores.md R157; 05_clove_cores.md R162) -/
def Obligations.CoreIssueRules : Prop :=
  (∀ (g o nz dt c : Nat) (eff : Eff) (w : DWord) (s a : State), a = advance dt s →
    (issues a c w = false → coreRow g o nz eff dt c w s = .next a) ∧
    (opDefined (field w.toNat 63 60) (field w.toNat 59 54) = true → (field w.toNat 63 60 ≠ g ∨ field w.toNat 59 54 ≠ o) →
      coreRow g o nz eff dt c w s = .next a) ∧
    (issues a c w = true → field w.toNat 63 60 = g → field w.toNat 59 54 = o → opDefined g o = true →
      (pr a c (field w.toNat 53 51) = false → coreRow g o nz eff dt c w s = .next (andNext c a a)) ∧
      (pr a c (field w.toNat 53 51) = true → w.toNat &&& nz ≠ 0 → coreRow g o nz eff dt c w s = .next (coreFault 0x0740 c a)))) ∧
  (∀ (g o nz dt c : Nat) (eff : Eff) (w : DWord) (s a : State), a = advance dt s → issues a c w = true →
    opDefined (field w.toNat 63 60) (field w.toNat 59 54) = false → pr a c (field w.toNat 53 51) = true →
    coreRow g o nz eff dt c w s = .next (coreFault 0x0740 c a)) ∧
  (∀ (c pc i : Nat) (l : LoopLevel) (a : State), pc < 2 ^ 32 →
    ((∀ x ∈ (coreAt a c).r.loops, ∀ y, x = some y → y.stop ≠ pc) →
      goto c pc a = modCore c (fun k => { k with r := { (coreAt a c).r with pc := pc }, stalled := none }) a) ∧
    (some l ∈ (coreAt a c).r.loops → l.stop = pc → innermost (coreAt a c).r.loops = some (i, l) → 1 < l.left →
      goto c pc a = modCore c (fun k => { k with
        r := { (coreAt a c).r with pc := l.start, loops := setNth (coreAt a c).r.loops i (some { l with left := l.left - 1 }) }, stalled := none }) a) ∧
    (∀ m, some m ∈ (coreAt a c).r.loops → m.stop = pc → innermost (coreAt a c).r.loops = some (i, l) → l.stop ≠ pc →
      goto c pc a = coreFault 0x0740 c a)) ∧
  (∀ (c v : Nat) (b : Bool) (a : State), xr a c 0 = 0 ∧ setX c 0 v a = a ∧ pr a c 0 = true ∧ setP c 0 b a = a)

/-- An ADD, SUB, MUL, AND, OR, XOR, SHL, SHR, SRA, MIN or MAX that its core issues writes XD with its result (the low 32 bits) on XS1 and on XS2
or the immediate, and the next instruction follows; MIN, MAX and SRA take the operands as signed; a shift by 32 or more, whose result the
spec does not state, writes a value that nothing constrains (the model's free value, log 40). CMP writes PD with the comparison its COND
names, and with a COND outside 1 to 6 it is CORE_ILLEGAL. (05_clove_cores.md R157; 05_clove_cores.md R162) -/
def Obligations.ScalarInstructions : Prop :=
  ∀ (dt c n x y d : Nat) (w : DWord) (s a : State), a = advance dt s → n = w.toNat → x = xr a c (field n 45 41) →
    y = (if bit n 35 then field n 34 3 else xr a c (field n 40 36)) → d = field n 50 46 →
    (Runs a c w 0 0x00 7 → exec (.addI dt c w) s = .next (andNext c a (setX c d (x + y) a))) ∧
    (Runs a c w 0 0x01 7 → exec (.subI dt c w) s = .next (andNext c a (setX c d (x + 2 ^ 32 - y) a))) ∧
    (Runs a c w 0 0x02 7 → exec (.mulI dt c w) s = .next (andNext c a (setX c d (x * y) a))) ∧
    (Runs a c w 0 0x03 7 → exec (.andI dt c w) s = .next (andNext c a (setX c d (x &&& y) a))) ∧
    (Runs a c w 0 0x04 7 → exec (.orI dt c w) s = .next (andNext c a (setX c d (x ||| y) a))) ∧
    (Runs a c w 0 0x05 7 → exec (.xorI dt c w) s = .next (andNext c a (setX c d (x ^^^ y) a))) ∧
    (Runs a c w 0 0x06 7 → (y < 32 → exec (.shl dt c w) s = .next (andNext c a (setX c d (x * 2 ^ y) a))) ∧
      (32 ≤ y → ∃ v, exec (.shl dt c w) s = .next (andNext c a (setX c d v { a with freeCtr := a.freeCtr + 1 })))) ∧
    (Runs a c w 0 0x07 7 → (y < 32 → exec (.shr dt c w) s = .next (andNext c a (setX c d (x / 2 ^ y) a))) ∧
      (32 ≤ y → ∃ v, exec (.shr dt c w) s = .next (andNext c a (setX c d v { a with freeCtr := a.freeCtr + 1 })))) ∧
    (Runs a c w 0 0x08 7 → (y < 32 → exec (.sra dt c w) s = .next (andNext c a (setX c d (twos 32 (sext 32 x / (2 ^ y : Int))) a))) ∧
      (32 ≤ y → ∃ v, exec (.sra dt c w) s = .next (andNext c a (setX c d v { a with freeCtr := a.freeCtr + 1 })))) ∧
    (Runs a c w 0 0x09 7 → exec (.minI dt c w) s = .next (andNext c a (setX c d (if sext 32 x ≤ sext 32 y then x else y) a))) ∧
    (Runs a c w 0 0x0A 7 → exec (.maxI dt c w) s = .next (andNext c a (setX c d (if sext 32 x ≤ sext 32 y then y else x) a))) ∧
    (Runs a c w 0 0x10 0 → field n 50 49 = 0 →
      (field n 2 0 = 1 → exec (.cmp dt c w) s = .next (andNext c a (setP c (field n 48 46) (x == y) a))) ∧
      (field n 2 0 = 2 → exec (.cmp dt c w) s = .next (andNext c a (setP c (field n 48 46) (x != y) a))) ∧
      (field n 2 0 = 3 → exec (.cmp dt c w) s = .next (andNext c a (setP c (field n 48 46) (decide (sext 32 x < sext 32 y)) a))) ∧
      (field n 2 0 = 4 → exec (.cmp dt c w) s = .next (andNext c a (setP c (field n 48 46) (decide (sext 32 y ≤ sext 32 x)) a))) ∧
      (field n 2 0 = 5 → exec (.cmp dt c w) s = .next (andNext c a (setP c (field n 48 46) (decide (x < y)) a))) ∧
      (field n 2 0 = 6 → exec (.cmp dt c w) s = .next (andNext c a (setP c (field n 48 46) (decide (y ≤ x)) a))) ∧
      (field n 2 0 = 0 ∨ field n 2 0 = 7 → exec (.cmp dt c w) s = .next (coreFault 0x0740 c a)))

/-- BR with its condition true goes on at a place that its signed offset gives from its own index, or from the next one (the spec leaves the base
open, so the model does), and with its condition false at the next instruction. LOOP of a non-empty body with a count of 0 goes on after the
body, with another count opens its level over the body. TBRD writes a TB value that does not fall below the core's last reading, nor below TB
less the lag of R22, nor above TB + 2 where it exceeds the last reading. GSET writes its group-scale register with 64 bits. HALT with no
level open and no transfer or walker request outstanding ends the tile: the core is idle and its cluster's count of tiles goes up. FENCE lets
the next instruction follow, and so does WAITU where the named units have finished; otherwise WAITU waits. (05_clove_cores.md R157;
05_clove_cores.md R169; 05_clove_cores.md R145; 05_clove_cores.md R155; 02_timebase_and_forecast.md R22;
06_number_formats_and_quantisation.md R191) -/
def Obligations.ControlInstructions : Prop :=
  ∀ (dt c n : Nat) (w : DWord) (s a : State), a = advance dt s → n = w.toNat →
    (Runs a c w 0 0x18 (bits 37 36 + bits 15 0) →
      (∃ b : Nat, b ≤ 1 ∧ (field n 40 38 = 0 ∨ condOf (field n 40 38) (xr a c (field n 50 46)) (xr a c (field n 45 41)) = some true →
        exec (.br dt c w) s = .next (goto c (twos 32 (((coreAt a c).r.pc : Int) + sext 20 (field n 35 16) + b)) a))) ∧
      (field n 40 38 ≠ 0 → condOf (field n 40 38) (xr a c (field n 50 46)) (xr a c (field n 45 41)) = some false →
        exec (.br dt c w) s = .next (andNext c a a))) ∧
    (Runs a c w 0 0x1A (bits 48 46 + bits 20 0) → field n 40 21 ≠ 0 →
      (xr a c (field n 45 41) = 0 → exec (.loop dt c w) s = .next (goto c ((coreAt a c).r.pc + 1 + field n 40 21) a)) ∧
      (xr a c (field n 45 41) ≠ 0 → exec (.loop dt c w) s = .next (andNext c a (modRegs c (fun r => { r with
        loops := setNth r.loops (field n 50 49) (some ⟨xr a c (field n 45 41), (coreAt a c).r.pc + 1, (coreAt a c).r.pc + 1 + field n 40 21⟩) }) a)))) ∧
    (Runs a c w 0 0x1B (bits 45 0) → field n 50 46 ≤ 30 → tbLag a c ≤ a.clk.tb → ∃ v : Nat,
      (coreAt a c).lastTb ≤ v ∧ a.clk.tb - tbLag a c ≤ v ∧ v ≤ Nat.max (coreAt a c).lastTb (a.clk.tb + 2) ∧
      exec (.tbrd dt c w) s = .next (andNext c a (setX c (field n 50 46 + 1) (v / 2 ^ 32) (setX c (field n 50 46) v
        (modCore c (fun x => { x with lastTb := v }) { a with freeCtr := a.freeCtr + 1 }))))) ∧
    (Runs a c w 0 0x1C (bits 46 46 + bits 35 0) → exec (.gset dt c w) s = .next (andNext c a (modRegs c (fun r => { r with
      g := setNth r.g (field n 50 47) (BitVec.ofNat 64 (xr a c (field n 45 41) + 2 ^ 32 * xr a c (field n 40 36))) }) a))) ∧
    (Runs a c w 0 0x1F 0 → n % 2 ^ 51 = 0 → (coreAt a c).r.loops.any Option.isSome = false → (coreAt a c).r.dmaq = [] → asking a c = 0 →
      (coreAt a c).state = 2 → (coreAt a c).tile = none →
      exec (.halt dt c w) s = .next (dispatchAll (modCluster (c / 8) (fun x => { x with tilesRun := inc32 x.tilesRun 1 })
        (modCore c (fun x => { x with state := 1, tile := none, stalled := none, heldRequest := false }) a)))) ∧
    (∀ d : TileDesc, Runs a c w 0 0x1F 0 → n % 2 ^ 51 = 0 → (coreAt a c).r.loops.any Option.isSome = false → (coreAt a c).r.dmaq = [] → asking a c = 0 →
      (coreAt a c).state = 2 → (coreAt a c).tile = some d → d.doneTally ≠ 0xFFFF →
      exec (.halt dt c w) s = .next (dispatchAll (signalAndTake d.doneTally d.doneCount
        (modCluster (c / 8) (fun x => { x with tilesRun := inc32 x.tilesRun 1 })
          (modCore c (fun x => { x with state := 1, tile := none, stalled := none, heldRequest := false }) a))))) ∧
    (Runs a c w 7 8 (bits 50 0) → exec (.fence dt c w) s = .next (andNext c a a)) ∧
    (Runs a c w 7 9 (bits 45 0) → (bit n 47 = true → dmaUsed a c = 0) → (bit n 46 = true → translating a c = false) →
      exec (.waitu dt c w) s = .next (andNext c a a)) ∧
    (Runs a c w 7 9 (bits 45 0) → (bit n 47 = true ∧ dmaUsed a c ≠ 0) ∨ (bit n 46 = true ∧ translating a c = true) →
      exec (.waitu dt c w) s = .next a)

/-- With the address X[XA] + OFF (signed, modulo 2^32) aligned for the access and in one reachable space: LD writes XD with 1, 2 or 4 bytes,
zero-extended; ST writes the low bytes of XD; LDV and STV move 64 lanes of 4 bytes at a 64-byte boundary; LDVC and STVC move 64 elements of
FMT, converted on the way, STVC counting its clips and NaN events. A misaligned address is CORE_ADDRESS (0x0741), a SIZE above 2, a FMT above
5 or a V register above 7 is CORE_ILLEGAL (0x0740). An own scratchpad address reaches that place; the address of a shared L2 slice reaches it
where its base die answers; an address past the space is CORE_ADDRESS. (05_clove_cores.md R142; 05_clove_cores.md R143; 05_clove_cores.md
R158; 05_clove_cores.md R162; 06_number_formats_and_quantisation.md R186) -/
def Obligations.LoadsAndStores : Prop :=
  (∀ (dt c n v : Nat) (ad : Nat) (w : DWord) (s a : State), a = advance dt s → n = w.toNat →
    ad = twos 32 ((xr a c (field n 42 38) : Int) + sext 20 (field n 37 18)) → v = field n 50 46 →
    (∀ l k, k = 2 ^ field n 45 43 → field n 45 43 ≤ 2 → ad % k = 0 → reach a c ad k = .ok l →
      (Runs a c w 1 0 (bits 17 0) → exec (.ld dt c w) s = .next (andNext c a (setX c v (leNat (readLoc a l k)) a))) ∧
      (Runs a c w 1 1 (bits 17 0) → exec (.st dt c w) s = .next (andNext c a (writeLoc l (le k (xr a c v)) a)))) ∧
    (∀ l, v < 8 → ad % 64 = 0 → reach a c ad 256 = .ok l →
      (Runs a c w 1 2 (bits 45 43 + bits 17 0) → exec (.ldv dt c w) s
        = .next (andNext c a (setV c v ((List.range 64).map (fun i => BitVec.ofNat 32 (leAt (readLoc a l 256) (4 * i) 4))) a))) ∧
      (Runs a c w 1 3 (bits 45 43 + bits 17 0) → exec (.stv dt c w) s
        = .next (andNext c a (writeLoc l ((vr a c v).flatMap (fun x => le 4 x.toNat)) a)))) ∧
    (∀ l f k e, f = field n 45 43 → k = fmtBytes f → v < 8 → f ≤ 5 → ad % 64 = 0 → reach a c ad (64 * k) = .ok l →
      e = (vr a c v).map (fun x => if fmtInt f && Config.laneInt f then narrowInt f x else convertTo f (fp x)) →
      (Runs a c w 1 4 (bits 17 0) → exec (.ldvc dt c w) s
        = .next (andNext c a (setV c v ((List.range 64).map (fun i => widen f (leAt (readLoc a l (64 * k)) (k * i) k))) a))) ∧
      (Runs a c w 1 5 (bits 17 0) → exec (.stvc dt c w) s
        = .next (andNext c a (countEvents c (clipsIn e) (nansIn e) 0 (writeLoc l (e.flatMap (fun x => le k x.code)) a))))) ∧
    (Runs a c w 1 0 (bits 17 0) → 2 < field n 45 43 → exec (.ld dt c w) s = .next (coreFault 0x0740 c a)) ∧
    (Runs a c w 1 1 (bits 17 0) → 2 < field n 45 43 → exec (.st dt c w) s = .next (coreFault 0x0740 c a)) ∧
    (Runs a c w 1 0 (bits 17 0) → field n 45 43 ≤ 2 → ad % 2 ^ field n 45 43 ≠ 0 → exec (.ld dt c w) s = .next (coreFault 0x0741 c a)) ∧
    (Runs a c w 1 1 (bits 17 0) → field n 45 43 ≤ 2 → ad % 2 ^ field n 45 43 ≠ 0 → exec (.st dt c w) s = .next (coreFault 0x0741 c a)) ∧
    (Runs a c w 1 2 (bits 45 43 + bits 17 0) → (8 ≤ v → exec (.ldv dt c w) s = .next (coreFault 0x0740 c a)) ∧
      (v < 8 → ad % 64 ≠ 0 → exec (.ldv dt c w) s = .next (coreFault 0x0741 c a))) ∧
    (Runs a c w 1 3 (bits 45 43 + bits 17 0) → (8 ≤ v → exec (.stv dt c w) s = .next (coreFault 0x0740 c a)) ∧
      (v < 8 → ad % 64 ≠ 0 → exec (.stv dt c w) s = .next (coreFault 0x0741 c a))) ∧
    (Runs a c w 1 4 (bits 17 0) → (8 ≤ v ∨ 5 < field n 45 43 → exec (.ldvc dt c w) s = .next (coreFault 0x0740 c a)) ∧
      (v < 8 → field n 45 43 ≤ 5 → ad % 64 ≠ 0 → exec (.ldvc dt c w) s = .next (coreFault 0x0741 c a))) ∧
    (Runs a c w 1 5 (bits 17 0) → (8 ≤ v ∨ 5 < field n 45 43 → exec (.stvc dt c w) s = .next (coreFault 0x0740 c a)) ∧
      (v < 8 → field n 45 43 ≤ 5 → ad % 64 ≠ 0 → exec (.stvc dt c w) s = .next (coreFault 0x0741 c a)))) ∧
  (∀ (c ad k : Nat) (a : State),
    (field ad 31 30 = 0 → ad + k ≤ a.variant.scratchBytes → reach a c ad k = .ok (.scratch c ad)) ∧
    (field ad 31 30 = 0 → a.variant.scratchBytes < ad + k → reach a c ad k = .error (.fault 0x0741)) ∧
    (field ad 31 30 = 2 → field ad 29 26 < a.variant.clusters → field ad 25 22 = 0 → ad % 2 ^ 22 + k ≤ 4194304 →
      sramReady a (stackOf (field ad 29 26)) = true → reach a c ad k = .ok (.commons (field ad 29 26) (ad % 2 ^ 22))) ∧
    (field ad 31 30 = 3 → reach a c ad k = .error (.fault 0x0741)))

/-- DMA whose 32-byte descriptor lies in the own scratchpad, with a row of 1 to 16,777,216 bytes, at least one row, a tally that the tile may
operate on or none, and both sides in place, joins the core's queue of transfers where an entry is free, and otherwise waits; a descriptor
past the scratchpad is CORE_ADDRESS, a row length or row count outside its range CORE_ILLEGAL, a tally that the tile may not operate on
0x0742. DMA_COMPLETE moves the rest of the transfer's bytes, takes the entry from the queue, and then signals its tally once.
(05_clove_cores.md R164; 05_clove_cores.md R165; 05_clove_cores.md R166) -/
def Obligations.Transfers : Prop :=
  (∀ (dt c d : Nat) (x : DmaXfer) (w : DWord) (s a : State), a = advance dt s → Runs a c w 2 0 (bits 45 0) → d = xr a c (field w.toNat 50 46) →
    x = ⟨leAt (ownRead a c d 32) 0 8, leAt (ownRead a c d 32) 8 8, leAt (ownRead a c d 32) 16 4, leAt (ownRead a c d 32) 20 2,
      leAt (ownRead a c d 32) 22 2, leAt (ownRead a c d 32) 24 4, leAt (ownRead a c d 32) 28 4, 0⟩ →
    (a.variant.scratchBytes < d + 32 → exec (.dma dt c w) s = .next (coreFault 0x0741 c a)) ∧
    (d + 32 ≤ a.variant.scratchBytes → (x.rowBytes = 0 ∨ 16777216 < x.rowBytes ∨ x.rows = 0) → exec (.dma dt c w) s = .next (coreFault 0x0740 c a)) ∧
    (d + 32 ≤ a.variant.scratchBytes → 1 ≤ x.rowBytes → x.rowBytes ≤ 16777216 → 1 ≤ x.rows →
      (x.tally ≠ 0xFFFF → tallyAllowed a c x.tally = false → exec (.dma dt c w) s = .next (coreFault 0x0742 c a)) ∧
      ((x.tally = 0xFFFF ∨ tallyAllowed a c x.tally = true) → dmaSideOk a (coreAt a c).job c x.src x.srcStride x.rowBytes x.rows = .ok false →
        dmaSideOk a (coreAt a c).job c x.dst x.dstStride x.rowBytes x.rows = .ok false →
        (dmaUsed a c < 8 → exec (.dma dt c w) s = .next (andNext c a (modRegs c (fun r => { r with dmaq := r.dmaq ++ [x] }) a))) ∧
        (8 ≤ dmaUsed a c → exec (.dma dt c w) s = .next a)))) ∧
  (∀ (dt c e : Nat) (x : DmaXfer) (s a t : State), a = advance dt s → (coreAt a c).r.dmaq[e]? = some x → awake a = true →
    (coreAt a c).state = 2 ∨ (coreAt a c).state = 3 ∨ (coreAt a c).state = 4 → dmaMove (coreAt a c).job c x (x.rows * x.rowBytes) a = .ok t →
    (x.tally = 0xFFFF → exec (.dmaComplete dt c e) s = .next (modRegs c (fun r => { r with dmaq := r.dmaq.eraseIdx e }) t)) ∧
    (x.tally ≠ 0xFFFF → exec (.dmaComplete dt c e) s = .next (signalAndTake x.tally 1 (modRegs c (fun r => { r with dmaq := r.dmaq.eraseIdx e }) t)))) ∧
  (∀ (c j src dst len : Nat) (a : State), src < 2 ^ 63 → dst < 2 ^ 63 → 1 ≤ len →
    dmaMove j c ⟨src, dst, len, 1, 0xFFFF, 0, 0, 0⟩ len a = .ok { a with ddr := Memory.writeN a.ddr dst (Memory.readN a.ddr src len) })

/-- A write of an X, V or P register, of an accumulator tile, of the core's event counters, and the move to the next instruction (where the loop
levels nest) leave everything outside that core as it was, and within it all but the register written (for the move: the index, the loop
levels and the stalled word). A store leaves everything but its space as it was, and in that space every byte outside the stored ones; the
stored bytes then read as written, with the memory in its canonical form. The written register then reads as written. (05_clove_cores.md
R155; 05_clove_cores.md R157; 05_clove_cores.md R158; 05_clove_cores.md R142) -/
def Obligations.CoreFrames : Prop :=
  (∀ (c i v : Nat) (l : List Word) (b : Bool) (t : AccTile) (s : State),
    OnlyCore c s (setX c i v s) ∧ OnlyCore c s (setV c i l s) ∧ OnlyCore c s (setP c i b s) ∧ OnlyCore c s (setTile c i t s) ∧
    (∃ x, coreAt (setX c i v s) c = { coreAt s c with r := { (coreAt s c).r with x := x } } ∧ ∀ j, j ≠ i → nth x j 0 = nth (coreAt s c).r.x j 0) ∧
    (∃ x, coreAt (setV c i l s) c = { coreAt s c with r := { (coreAt s c).r with v := x } } ∧ ∀ j, j ≠ i → nth x j [] = nth (coreAt s c).r.v j []) ∧
    (∃ x, coreAt (setP c i b s) c = { coreAt s c with r := { (coreAt s c).r with p := x } } ∧ ∀ j, j ≠ i → nth x j false = nth (coreAt s c).r.p j false) ∧
    (∃ x, coreAt (setTile c i t s) c = { coreAt s c with r := { (coreAt s c).r with acc := x } } ∧
      ∀ j, j ≠ i → Tab.find x j = Tab.find (coreAt s c).r.acc j) ∧
    (c < s.cores.length → i ≠ 0 → i < (coreAt s c).r.x.length → xr (setX c i v s) c i = v % 2 ^ 32) ∧
    (c < s.cores.length → i < (coreAt s c).r.v.length → vr (setV c i l s) c i = l) ∧
    (c < s.cores.length → i ≠ 0 → i < (coreAt s c).r.p.length → pr (setP c i b s) c i = b) ∧
    (c < s.cores.length → tileAt (setTile c i t s) c i = t)) ∧
  (∀ (c x y z : Nat) (s : State), OnlyCore c s (countEvents c x y z s) ∧
    ∃ p q r, coreAt (countEvents c x y z s) c = { coreAt s c with clipped := p, nanOut := q, accSat := r }) ∧
  (∀ (c pc : Nat) (r : CoreRegs) (s : State), landAt 5 (pc % 2 ^ 32) (coreAt s c).r = some r → OnlyCore c s (goto c pc s) ∧
    ∃ l n, coreAt (goto c pc s) c = { coreAt s c with r := { (coreAt s c).r with pc := n, loops := l }, stalled := (coreAt (goto c pc s) c).stalled }) ∧
  (∀ (k off : Nat) (p : Bytes) (s : State),
    (OnlyCore k s (writeLoc (.scratch k off) p s) ∧ (∃ m, coreAt (writeLoc (.scratch k off) p s) k = { coreAt s k with scratch := m }) ∧
      (k < s.cores.length → Memory.wf (coreAt s k).scratch = true →
        (∀ q, q < off ∨ off + p.length ≤ q → Memory.read (coreAt (writeLoc (.scratch k off) p s) k).scratch q = Memory.read (coreAt s k).scratch q) ∧
        (∀ j, j < p.length → Memory.read (coreAt (writeLoc (.scratch k off) p s) k).scratch (off + j) = nth p j 0) ∧
        Memory.wf (coreAt (writeLoc (.scratch k off) p s) k).scratch = true)) ∧
    (OnlyCluster k s (writeLoc (.commons k off) p s) ∧
      (k < s.clusters.length → Memory.wf (clusterAt s k).commons = true →
        (∃ m, clusterAt (writeLoc (.commons k off) p s) k = { clusterAt s k with commons := m }) ∧
        (∀ q, q < off ∨ off + p.length ≤ q → Memory.read (clusterAt (writeLoc (.commons k off) p s) k).commons q = Memory.read (clusterAt s k).commons q) ∧
        (∀ j, j < p.length → Memory.read (clusterAt (writeLoc (.commons k off) p s) k).commons (off + j) = nth p j 0) ∧
        Memory.wf (clusterAt (writeLoc (.commons k off) p s) k).commons = true)))

/-- MM with its tile below 48 and of the right format (or cleared first), no group-scale register named, UA for integers only, and its two blocks
on 64-byte boundaries of the scratchpad, adds to each cell (i, j) of its tile the products A[k][i] * B[k][j] of its K steps, from the tile's
own values or from 0; the INT8 form adds exactly and saturates to INT32. MMT does so with 4-bit codes and the scales of its group-scale
register, where that descriptor and K fit it. TLOAD with its tile below 48 and bit 44 set loads the tile's 16 rows of 64 words, as FP32 where
bit 43 is set. A format that disagrees with a tile that is not cleared is CORE_ILLEGAL. (05_clove_cores.md R135; 05_clove_cores.md R137;
05_clove_cores.md R159; 06_number_formats_and_quantisation.md R188; 06_number_formats_and_quantisation.md R190;
06_number_formats_and_quantisation.md R194) -/
def Obligations.MatrixInstructions : Prop :=
  (∀ (op c n k t xa xb : Nat) (a : State), op ≤ 5 → k = field n 32 21 + 1 → t = field n 50 45 →
    xa = xr a c (field n 42 38) → xb = xr a c (field n 37 33) →
    (t < 48 → (4 ≤ op ∨ field n 20 17 = 0) → (op = 0 ∨ op = 4 ∨ bit n 43 = false) → (bit n 44 = true ∨ (tileAt a c t).fp = decide (op ≠ 0)) →
      (4 ≤ op → scalesOk a (gOf a c n) k = .ok ()) →
      xa % 64 = 0 → xa + 16 * (if op = 3 then 2 else 1) * k ≤ a.variant.scratchBytes →
      xb % 64 = 0 → xb + (if 4 ≤ op then 32 * k else 64 * (if op = 3 then 2 else 1) * k) ≤ a.variant.scratchBytes → matrixOk op a c n = .ok ()) ∧
    (bit n 44 = false → (tileAt a c t).fp ≠ decide (op ≠ 0) → matrixOk op a c n = .error (.fault 0x0740))) ∧
  (∀ (dt c n k t xa xb : Nat) (w : DWord) (s a : State), a = advance dt s → n = w.toNat → k = field n 32 21 + 1 → t = field n 50 45 →
    xa = xr a c (field n 42 38) → xb = xr a c (field n 37 33) →
    (∀ p ∈ [(0, Instr.mmI8 dt c w), (1, Instr.mmE4 dt c w), (2, Instr.mmE5 dt c w), (3, Instr.mmBf dt c w)], ∀ e : Nat, e = (if p.1 = 3 then 2 else 1) →
      Runs a c w 3 p.1 (bits 16 0) → matrixOk p.1 a c n = .ok () →
      exec p.2 s = .next (andNext c a (macRun c t (bit n 44) (macOf p.1) (gOf a c n)
        (fun r => ⟨fun i q => (macOf p.1).aValue (bit n 43) (ownLe r c (xa + 16 * e * q + e * i) e), fun q j => ownLe r c (xb + 64 * e * q + e * j) e⟩) 0 k a))) ∧
    (∀ p ∈ [(4, Instr.mmtI8 dt c w), (5, Instr.mmtE4 dt c w)],
      Runs a c w 3 p.1 (bits 16 0) → matrixOk p.1 a c n = .ok () →
      exec p.2 s = .next (andNext c a (macRun c t (bit n 44) (macOf p.1) (gOf a c n)
        (fun r => ⟨fun i q => (macOf p.1).aValue (bit n 43) (ownLe r c (xa + 16 * 1 * q + 1 * i) 1),
          fun q j => if j % 2 = 0 then ownByte r c (xb + 32 * q + j / 2) % 16 else ownByte r c (xb + 32 * q + j / 2) / 16⟩) 0 k a))) ∧
    (∀ p ∈ [(0, Instr.mmI8 dt c w), (1, Instr.mmE4 dt c w), (2, Instr.mmE5 dt c w), (3, Instr.mmBf dt c w), (4, Instr.mmtI8 dt c w), (5, Instr.mmtE4 dt c w)],
      Runs a c w 3 p.1 (bits 16 0) → matrixOk p.1 a c n = .error (.fault 0x0740) → exec p.2 s = .next (coreFault 0x0740 c a)) ∧
    (Runs a c w 3 0x10 (bits 37 0) → t < 48 → bit n 44 = true → xa + 4096 ≤ a.variant.scratchBytes →
      exec (.tload dt c w) s = .next (andNext c a (setTile c t (tileOf (bit n 43) (fun i j =>
        if i < 16 then BitVec.ofNat 32 (ownLe a c (xa + 256 * i + 4 * j) 4) else cell (tileAt a c t) i j)) a)))) ∧
  (∀ (c g i j lo hi : Nat) (o : Operands) (base : Word) (v : Int) (a : State),
    v = base.toInt + (List.range (hi - lo)).foldl (fun (z : Int) k =>
      z + (match o.a i (lo + k) with | .fin neg m _ => signed neg m | _ => 0) * sext 8 (o.b (lo + k) j)) 0 →
    macCell a c .int8 g o i j lo hi base =
      (if v < -2147483648 then (0x80000000, true) else if 2147483647 < v then (0x7FFFFFFF, true) else (BitVec.ofInt 32 v, false)))

/-- On all 64 lanes, with VS2 or a broadcast scalar as the second operand: ADD, MUL, FMA, MAX and MIN in INT32 take each lane modulo 2^32 (MAX
and MIN as signed); in FP32 each lane is the exact result rounded once. EXP, RCP and RSQRT are FP32 operations; with INT set, to which the
spec gives no result, their lanes are values that nothing constrains (the model's choice, log 42). RSUM and RMAX put the result of a fixed
tree of neighbours, six levels deep, in lane 0 of VD and keep its other lanes. CVT converts each lane to its format and counts clips and NaN
events; a format above 5 is CORE_ILLEGAL. DRAIN, with its tile below 48, its format at most 6, a proper scale block on a 64-byte boundary of
the scratchpad and its output in place, writes its sixteen rows. (05_clove_cores.md R161; 06_number_formats_and_quantisation.md R196;
06_number_formats_and_quantisation.md R197; 06_number_formats_and_quantisation.md R198; 06_number_formats_and_quantisation.md R207) -/
def Obligations.VectorInstructions : Prop :=
  (∀ (dt c n d : Nat) (a b o : List Word) (w : DWord) (s z : State), z = advance dt s → n = w.toNat → d = field n 50 48 → o = vr z c d →
    a = vr z c (field n 47 45) → b = (if bit n 41 then List.replicate 64 (BitVec.ofNat 32 (xr z c (field n 40 36))) else vr z c (field n 44 42)) →
    (∀ p ∈ [(0x00, Instr.vectorAdd dt c w, (fun _ x y => x + y : Word → Word → Word → Word), (fun _ x y => r32 ((fp x).add (fp y)) : Word → Word → Word → Word)),
        (0x01, .vectorMul dt c w, fun _ x y => x * y, fun _ x y => r32 ((fp x).mul (fp y))),
        (0x02, .fma dt c w, fun v x y => v + x * y, fun v x y => r32 ((fp v).add ((fp x).mul (fp y)))),
        (0x03, .vectorMax dt c w, fun _ x y => if x.toInt < y.toInt then y else x, fun _ x y => r32 ((fp x).max (fp y))),
        (0x04, .vectorMin dt c w, fun _ x y => if y.toInt < x.toInt then y else x, fun _ x y => r32 ((fp x).min (fp y)))],
      Runs z c w 4 p.1 (bits 31 0) → exec p.2.1 s = .next (andNext c z (setV c d ((List.range 64).map (fun i =>
        (if bit n 35 then p.2.2.1 else p.2.2.2) (nth o i 0) (nth a i 0) (nth b i 0))) z))) ∧
    (∀ p ∈ [(0x08, Instr.exp dt c w, Fp.exp), (0x09, .rcp dt c w, Fp.rcp), (0x0A, .rsqrt dt c w, Fp.rsqrt)],
      Runs z c w 4 p.1 (bits 31 0) →
        (bit n 35 = false → exec p.2.1 s = .next (andNext c z (setV c d ((List.range 64).map (fun i => r32 (p.2.2 (fp (nth a i 0))))) z))) ∧
        (bit n 35 = true → ∃ l : List Word, l.length = 64 ∧
          exec p.2.1 s = .next (andNext c z (setV c d l { z with freeCtr := z.freeCtr + 64 })))) ∧
    (Runs z c w 4 0x10 (bits 31 0) → exec (.rsum dt c w) s = .next (andNext c z (setV c d (setNth o 0
      (tree (if bit n 35 then fun x y => x + y else fun x y => r32 ((fp x).add (fp y))) a)) z))) ∧
    (Runs z c w 4 0x11 (bits 31 0) → exec (.rmax dt c w) s = .next (andNext c z (setV c d (setNth o 0
      (tree (if bit n 35 then fun x y => if x.toInt < y.toInt then y else x else fun x y => r32 ((fp x).max (fp y))) a)) z))) ∧
    (Runs z c w 4 0x18 (bits 31 0) →
      (∀ e, field n 34 32 ≤ 5 → e = a.map (fun x => if bit n 35 then narrowInt (field n 34 32) x else convertTo (field n 34 32) (fp x)) →
        exec (.cvt dt c w) s = .next (andNext c z (countEvents c (clipsIn e) (nansIn e) 0 (setV c d (e.map (fun x => BitVec.ofNat 32 x.code)) z)))) ∧
      (5 < field n 34 32 → exec (.cvt dt c w) s = .next (coreFault 0x0740 c z))) ∧
    (∀ xs xo : Nat, xs = xr z c (field n 39 35) → xo = xr z c (field n 44 40) → Runs z c w 5 0 (bits 27 0) →
      (field n 50 45 < 48 → field n 34 32 ≤ 6 → xs % 64 = 0 → xs + 576 ≤ z.variant.scratchBytes →
        scaleBlockOk z c (field n 31 29) (scaleBlock z c xs) = true → xo + 1024 * outBytes (field n 34 32) ≤ z.variant.scratchBytes →
        exec (.drain dt c w) s = .next (andNext c z ((drainLong c n (coreAt z c).r.x).run 0 16 z))) ∧
      (48 ≤ field n 50 45 ∨ 6 < field n 34 32 → exec (.drain dt c w) s = .next (coreFault 0x0740 c z)) ∧
      (field n 50 45 < 48 → field n 34 32 ≤ 6 → (xs % 64 ≠ 0 ∨ z.variant.scratchBytes < xs + 576) → exec (.drain dt c w) s = .next (coreFault 0x0741 c z)))) ∧
  (∀ (f : Word → Word → Word) (l : List Word), l.length = 64 →
    tree f l = nth (List.range 6 |>.foldl (fun (t : List Word) _ => (List.range (t.length / 2)).map (fun i => f (nth t (2 * i) 0) (nth t (2 * i + 1) 0))) l) 0 0)

/-- With the checks of its descriptors, formats, fields and addresses passed: WMM and WMMT add to their tile the products of the window's
elements (padding where a tap lies outside the map) and the weights, over K steps of the reduction from X[XP+1] on; WDRAIN converts its tile
into a map, or into a zero-run coded segment and moves XO past it; WPOOL and WRES load their tile with pooled or resampled values in its
first COLS columns and +0 in the others; WUNZ expands a segment into a map and leaves in XD where the segment ends. A tile number of 48 or
more is CORE_ILLEGAL. (07_convolution_and_image_operators.md R211; 07_convolution_and_image_operators.md R213;
07_convolution_and_image_operators.md R215; 07_convolution_and_image_operators.md R217; 07_convolution_and_image_operators.md R219;
07_convolution_and_image_operators.md R222; 07_convolution_and_image_operators.md R223; 07_convolution_and_image_operators.md R224) -/
def Obligations.WindowInstructions : Prop :=
  (∀ (dt c n : Nat) (w : DWord) (s z : State), z = advance dt s → n = w.toNat →
    (∀ p ∈ [(0, Instr.wmmI8 dt c w), (1, .wmmE4 dt c w), (2, .wmmE5 dt c w), (3, .wmmBf dt c w), (4, .wmmtI8 dt c w), (5, .wmmtE4 dt c w)],
      Runs z c w 8 p.1 (bits 11 0) →
      (∀ d x, d = windAt z c (xr z c (field n 42 38)) → x = field n 16 12 → field n 50 45 < 48 → (4 ≤ p.1 ∨ field n 20 17 = 0) →
        (p.1 = 0 ∨ p.1 = 4 ∨ bit n 43 = false) → x ≤ 30 → (bit n 44 = true ∨ (tileAt z c (field n 50 45)).fp = decide (p.1 ≠ 0)) →
        windOk z (xr z c (field n 42 38)) d true = .ok () → d.t.es = (if p.1 = 3 then 2 else 1) → xr z c (x + 1) + (field n 32 21 + 1) ≤ d.kTotal →
        (4 ≤ p.1 → scalesOk z (gOf z c n) (field n 32 21 + 1) = .ok ()) → ownOk z (xr z c (field n 37 33)) (bBytes (macOf p.1) (field n 32 21 + 1)) 64 = .ok () →
        exec p.2 s = .next (andNext c z (macRun c (field n 50 45) (bit n 44) (macOf p.1) (gOf z c n) (fun r =>
          ⟨fun i k => (macOf p.1).aValue (bit n 43)
            (let q := (windAt r c (xr z c (field n 42 38))).kIndex (xr z c (x + 1) + k)
             tapElem r c (windAt r c (xr z c (field n 42 38))) (xr z c x + i) q.1 q.2.1 q.2.2), bCode r c (macOf p.1) (xr z c (field n 37 33))⟩)
          0 (field n 32 21 + 1) z))) ∧
      (48 ≤ field n 50 45 → exec p.2 s = .next (coreFault 0x0740 c z))) ∧
    (Runs z c w 8 0x10 (bits 21 0) → field n 50 45 < 48 → field n 34 32 ≤ 6 → field n 26 22 ≤ 30 →
      ownOk z (xr z c (field n 39 35)) 576 64 = .ok () → scaleBlockOk z c (field n 31 29) (scaleBlock z c (xr z c (field n 39 35))) = true →
      (∀ d b, d = tensorAt z c (xr z c (field n 44 40)) → b = scaleBlock z c (xr z c (field n 39 35)) → bit n 27 = false →
        xr z c (field n 44 40) + 16 ≤ z.variant.scratchBytes → tensorOk z d = .ok () → d.es = outBytes (field n 34 32) →
        xr z c (field n 26 22 + 1) + b.cols ≤ d.stored →
        (∀ i j, i < b.rows → j < b.cols → d.drainAddr (xr z c (field n 26 22)) (xr z c (field n 26 22 + 1)) i j + d.es ≤ z.variant.scratchBytes) →
        exec (.wdrain dt c w) s = .next (andNext c z ((wdrainLong c n (coreAt z c).r.x).run 0 16 z))) ∧
      (∀ t, bit n 27 = true → field n 34 32 ≤ 3 → xr z c (field n 44 40) < 2 ^ 30 → xr z c (field n 44 40) % 16 = 0 →
        t = (wdrainLong c n (coreAt z c).r.x).run 0 16 z → xr z c (field n 44 40) + (xr t c (field n 44 40) - xr z c (field n 44 40)) ≤ z.variant.scratchBytes →
        exec (.wdrain dt c w) s = .next (andNext c z t))) ∧
    (∀ d, d = windAt z c (xr z c (field n 42 38)) → field n 50 45 < 48 → field n 37 33 ≤ 30 → field n 32 26 + 1 ≤ 64 → infmtOk (field n 25 23) d.t.es = true →
      xr z c (field n 37 33 + 1) + (field n 32 26 + 1) ≤ d.t.stored →
      (Runs z c w 8 0x11 (bits 22 0) → windOk z (xr z c (field n 42 38)) d true = .ok () →
        exec (.wpool dt c w) s = .next (andNext c z (setTile c (field n 50 45) (tileOf true (fun i j => if j < field n 32 26 + 1 then
          r32 (poolValue z c d (field n 25 23) (bit n 44) (bit n 43) (xr z c (field n 37 33) + i) (xr z c (field n 37 33 + 1) + j)) else 0)) z))) ∧
      (Runs z c w 8 0x12 (bits 43 43 + bits 22 0) → windOk z (xr z c (field n 42 38)) d false = .ok () →
        [d.kh, d.kw, d.sy, d.sx, d.dy, d.dx] = [1, 1, 1, 1, 1, 1] → [d.pt, d.pb, d.pl, d.pr] = [0, 0, 0, 0] →
        exec (.wres dt c w) s = .next (andNext c z (setTile c (field n 50 45) (tileOf true (fun i j => if j < field n 32 26 + 1 then
          r32 (resValue z c d (field n 25 23) (bit n 44) (xr z c (field n 37 33) + i) (xr z c (field n 37 33 + 1) + j)) else 0)) z)))) ∧
    (∀ d l m h e, Runs z c w 8 0x18 (bits 35 0) → d = tensorAt z c (xr z c (field n 45 41)) → xr z c (field n 45 41) + 16 ≤ z.variant.scratchBytes →
      tensorOk z d = .ok () → reach z c (xr z c (field n 50 46)) 16 = .ok l → h = readLoc z l 16 →
      reach z c (xr z c (field n 50 46)) (16 + leAt h 8 2) = .ok m → segmentElems h ((readLoc z m (16 + leAt h 8 2)).drop 16) = some e →
      d.es = 1 → leAt h 4 2 + byteAt h 6 ≤ d.stored →
      (∀ i j, i < byteAt h 7 → j < byteAt h 6 → d.drainAddr (leAt h 0 4) (leAt h 4 2) i j < z.variant.scratchBytes) →
      exec (.wunz dt c w) s = .next (andNext c z (setX c (field n 40 36) (xr z c (field n 50 46) + (16 + ceilDiv (leAt h 8 2) 16 * 16))
        (e.zipIdx.foldl (fun t b => ownWrite c (d.drainAddr (leAt h 0 4) (leAt h 4 2) (b.2 / byteAt h 6) (b.2 % byteAt h 6)) [b.1] t) z)))) ∧
    (∀ d l m h, Runs z c w 8 0x18 (bits 35 0) → d = tensorAt z c (xr z c (field n 45 41)) → xr z c (field n 45 41) + 16 ≤ z.variant.scratchBytes →
      tensorOk z d = .ok () → reach z c (xr z c (field n 50 46)) 16 = .ok l → h = readLoc z l 16 →
      reach z c (xr z c (field n 50 46)) (16 + leAt h 8 2) = .ok m → segmentElems h ((readLoc z m (16 + leAt h 8 2)).drop 16) = none →
      exec (.wunz dt c w) s = .next (coreFault 0x0740 c z)))

/-- For every sequence of elements, decoding its zero-run coding for that many elements gives the elements back, with nothing left over.
(07_convolution_and_image_operators.md R221; 07_convolution_and_image_operators.md R222) -/
def Obligations.ZeroRunsExpand : Prop :=
  ∀ e : Bytes, zrcDecode (e.length + 1) (zrcEncode e.length e) e.length = some e

/-- With the tiles, fields and addresses that each row asks for: SSOFT folds sixteen rows of scores into Y, writes P and rescales the output
tiles; SPV adds P times V to an FP32 tile; SNORM writes the normalised rows; SSTAT writes M and L of Y as 128 bytes, and SLDST reads them
back with no key masked; SMERGE folds a partial record into Y and its FP32 tiles; SBWD writes P and dS; STRN writes the transpose of a 64 by
64 block that it does not overlap. A tile range past the file is CORE_ILLEGAL for SSOFT and SNORM, an overlap for STRN. GMASK queues its list
at the mask unit of its own cluster while at most four others are queued behind the one in work, and then waits. SARGM folds 16 rows of an
FP32 tile into its records, a row whose mask address is 0 keeping its record. (08_sequence_engine.md R228; 08_sequence_engine.md R231;
08_sequence_engine.md R232; 08_sequence_engine.md R233; 08_sequence_engine.md R234; 08_sequence_engine.md R239; 08_sequence_engine.md R245;
08_sequence_engine.md R247; 11_text_tokens_and_grammar.md R341; 11_text_tokens_and_grammar.md R343; 11_text_tokens_and_grammar.md R344) -/
def Obligations.SequenceInstructions : Prop :=
  ∀ (dt c n : Nat) (x : List Word) (w : DWord) (s z : State), z = advance dt s → n = w.toNat → x = (coreAt z c).r.x →
    (Runs z c w 6 0x00 (bits 22 0) →
      (field n 50 45 < 48 → field n 40 35 + (field n 34 33 + 1) ≤ 48 → field n 27 23 ≤ 30 → attnOk z c (xr z c (field n 32 28)) = .ok () →
        ownOk z (xr z c (field n 27 23)) (1024 * (if bit n 41 then 1 else 2)) 64 = .ok () →
        exec (.ssoft dt c w) s = .next (andNext c z ((ssoftLong c n x).run 0 16 z))) ∧
      (48 < field n 40 35 + (field n 34 33 + 1) → exec (.ssoft dt c w) s = .next (coreFault 0x0740 c z))) ∧
    (∀ p ∈ [(1, Instr.spvBf dt c w, false), (2, Instr.spvE4 dt c w, true)], Runs z c w 6 p.1 (bits 32 0) → field n 50 45 < 48 → (tileAt z c (field n 50 45)).fp = true →
      ownOk z (xr z c (field n 42 38)) (1024 * (if p.2.2 then 1 else 2)) 64 = .ok () → ownOk z (xr z c (field n 37 33)) (4096 * (if p.2.2 then 1 else 2)) 64 = .ok () →
      exec p.2.1 s = .next (andNext c z (setTile c (field n 50 45) (tileOf true (fun i j => (List.range 64).foldl (fun v k =>
        if nth (yAt z c (field n 44 43)).mask (64 * i + 0 + k) false then v
        else r32 ((fp v).add (((pFmt p.2.2).value (ownLe z c (xr z c (field n 42 38) + pBytes p.2.2 * (16 * (0 + k) + i)) (pBytes p.2.2))).mul
          ((pFmt p.2.2).value (ownLe z c (xr z c (field n 37 33) + pBytes p.2.2 * (64 * (0 + k) + j)) (pBytes p.2.2)))))) (cell (tileAt z c (field n 50 45)) i j))) z))) ∧
    (Runs z c w 6 0x03 (bits 20 0) →
      (field n 50 45 + (field n 42 41 + 1) ≤ 48 → field n 35 34 ≤ 2 → field n 33 31 ≤ 6 → field n 30 28 ≤ 4 →
        ownOk z (xr z c (field n 40 36)) (outBytes (field n 33 31) * normSpan (field n 35 34) (field n 42 41 + 1) (field n 30 28)) 64 = .ok () →
        (bit n 22 = true → ownOk z (xr z c (field n 27 23)) 64 64 = .ok ()) →
        exec (.snorm dt c w) s = .next (andNext c z ((snormLong c n x).run 0 16 z))) ∧
      (48 < field n 50 45 + (field n 42 41 + 1) → exec (.snorm dt c w) s = .next (coreFault 0x0740 c z))) ∧
    (Runs z c w 6 0x04 (bits 43 0) → ownOk z (xr z c (field n 48 44)) 128 64 = .ok () → exec (.sstat dt c w) s = .next (andNext c z
      (ownWrite c (xr z c (field n 48 44)) (((yAt z c (field n 50 49)).m ++ (yAt z c (field n 50 49)).l).flatMap (fun v => le 4 v.toNat)) z))) ∧
    (Runs z c w 6 0x05 (bits 43 0) → ownOk z (xr z c (field n 48 44)) 128 64 = .ok () → exec (.sldst dt c w) s = .next (andNext c z
      (setY c (field n 50 49) ⟨words16 z c (xr z c (field n 48 44)), words16 z c (xr z c (field n 48 44) + 64), List.replicate 1024 false⟩ z))) ∧
    (Runs z c w 6 0x06 (bits 35 0) → field n 50 45 + (field n 42 41 + 1) ≤ 48 → (∀ k, k ≤ field n 42 41 → (tileAt z c (field n 50 45 + k)).fp = true) →
      ownOk z (xr z c (field n 40 36)) (128 + 4096 * (field n 42 41 + 1)) 64 = .ok () →
      exec (.smerge dt c w) s = .next (andNext c z ((smergeLong c n x).run 0 16 z))) ∧
    (∀ k, k = (if field n 27 26 = 2 then 2 else 1) → Runs z c w 6 0x08 (bits 24 0) → field n 50 45 < 48 → field n 44 39 < 48 → field n 33 29 ≤ 28 → field n 27 26 ≤ 2 →
      attnOk z c (xr z c (field n 38 34)) = .ok () → ownOk z (xr z c (field n 33 29)) 128 64 = .ok () →
      ownOk z (xr z c (field n 33 29 + 2)) (1024 * (if bit n 28 then 1 else 2) * k) 64 = .ok () → ownOk z (xr z c (field n 33 29 + 3)) (2048 * k) 64 = .ok () →
      exec (.sbwd dt c w) s = .next (andNext c z ((sbwdLong c n x).run 0 16 z))) ∧
    (∀ e f t : Nat, e = (if bit n 40 then 2 else 1) → f = xr z c (field n 50 46) → t = xr z c (field n 45 41) → Runs z c w 6 0x09 (bits 39 0) →
      ownOk z f (4096 * e) 64 = .ok () → ownOk z t (4096 * e) 64 = .ok () →
      (f + 4096 * e ≤ t ∨ t + 4096 * e ≤ f → exec (.strn dt c w) s = .next (andNext c z ((List.range 64).foldl (fun r k => (List.range 64).foldl (fun r j =>
        ownWrite c (t + e * (64 * j + (0 + k))) (ownRead r c (f + e * (64 * (0 + k) + j)) e) r) r) z))) ∧
      (t < f + 4096 * e → f < t + 4096 * e → exec (.strn dt c w) s = .next (coreFault 0x0740 c z))) ∧
    (∀ off, Runs z c w 6 0x0C (bits 45 0) → locate z (coreAt z c).job c (xr z c (field n 50 46)) 48 = .ok (some (.commons (c / 8) off)) →
      ((maskUnit z (c / 8)).lists.length < 5 → exec (.gmask dt c w) s
        = .next (andNext c z (modMask (c / 8) (fun m => { m with lists := m.lists ++ [⟨off, c, (coreAt z c).job, 0⟩] }) z))) ∧
      (5 ≤ (maskUnit z (c / 8)).lists.length → exec (.gmask dt c w) s = .next z)) ∧
    (∀ b r, Runs z c w 6 0x0B (bits 33 0) → field n 50 45 < 48 → field n 38 34 ≤ 30 → (tileAt z c (field n 50 45)).fp = true → xr z c (field n 38 34 + 1) % 64 = 0 →
      ownOk z (xr z c (field n 43 39)) 64 64 = .ok () → ownOk z (xr z c (field n 38 34)) 128 64 = .ok () →
      b = (if bit n 44 then ownWrite c (xr z c (field n 38 34)) ((List.range 16).flatMap (fun _ => le 4 0x7FC00000 ++ le 4 0x80000100)) z else z) →
      (List.range 16).foldlM (fun u i => sargmRow c (xr z c (field n 43 39)) (xr z c (field n 38 34)) (xr z c (field n 38 34 + 1)) (tileAt b c (field n 50 45)) i u) b = .ok r →
      exec (.sargm dt c w) s = .next (andNext c z r)) ∧
    (∀ am ar col i t u, ownLe u c (am + 4 * i) 4 = 0 → sargmRow c am ar col t i u = .ok u)

/-- With a tally number below 16384 that the tile may operate on, its home's base die ready, and for TSIG, TWAIT, TTRY and TWAITGE a COUNT other
than 0: TSIG adds COUNT and grants what that allows; TWAIT and TTRY take COUNT where no wait is queued before and the count allows it, and
otherwise TWAIT queues its core and TTRY writes 0; TWAITGE goes on once the count is reached, and otherwise queues its core; TSET writes XV
as the count and leaves the count before in XV; TARM arms the tally with the period in XV; TREAD reads the count into XV. A tally outside the
tile's range is 0x0742, a COUNT of 0 CORE_ILLEGAL, a COUNT other than 0 CORE_ILLEGAL for TSET, TARM and TREAD. SEND of 64 bytes of the own
scratchpad posts them to its channel as the cluster's agent, or stalls where the channel is full and eight of the cluster's messages wait.
(05_clove_cores.md R147; 05_clove_cores.md R148; 05_clove_cores.md R149; 05_clove_cores.md R160; 05_clove_cores.md R178;
13_commands_and_mailboxes.md R419) -/
def Obligations.SyncInstructions : Prop :=
  (∀ (dt c n t k : Nat) (w : DWord) (s z : State), z = advance dt s → n = w.toNat →
    t = (if bit n 45 then xr z c (field n 50 46) else field n 44 31) → k = field n 30 15 → tallyAllowed z c t = true → t < 16384 →
    sramReady z (stackOf (tallyHome z t)) = true →
    (Runs z c w 7 0 (bits 14 0) → k ≠ 0 → exec (.tsig dt c w) s = .next (andNext c z (signalAndTake t k z))) ∧
    (Runs z c w 7 1 (bits 14 0) → k ≠ 0 →
      ((tallyAt z t).waiters = [] → k ≤ (tallyAt z t).count →
        exec (.twait dt c w) s = .next (andNext c z (setTally t { tallyAt z t with count := (tallyAt z t).count - k } z))) ∧
      ((tallyAt z t).waiters ≠ [] ∨ (tallyAt z t).count < k → exec (.twait dt c w) s = .next (andNext c z (waitFor c t false k z)))) ∧
    (Runs z c w 7 2 (bits 9 0) → k ≠ 0 →
      ((tallyAt z t).waiters = [] → k ≤ (tallyAt z t).count →
        exec (.ttry dt c w) s = .next (andNext c z (setX c (field n 14 10) 1 (setTally t { tallyAt z t with count := (tallyAt z t).count - k } z)))) ∧
      ((tallyAt z t).waiters ≠ [] ∨ (tallyAt z t).count < k → exec (.ttry dt c w) s = .next (andNext c z (setX c (field n 14 10) 0 z)))) ∧
    (Runs z c w 7 3 (bits 14 0) → k ≠ 0 →
      (k ≤ (tallyAt z t).count → exec (.twaitge dt c w) s = .next (andNext c z z)) ∧
      ((tallyAt z t).count < k → exec (.twaitge dt c w) s = .next (andNext c z (waitFor c t true k z)))) ∧
    (k = 0 →
      (Runs z c w 7 4 (bits 9 0) → exec (.tset dt c w) s
        = .next (andNext c z (setX c (field n 14 10) (tallyAt z t).count (setCount t (xr z c (field n 14 10)) z)))) ∧
      (Runs z c w 7 5 (bits 9 0) → exec (.tarm dt c w) s = .next (andNext c z (armTally t (xr z c (field n 14 10)) z))) ∧
      (Runs z c w 7 6 (bits 9 0) → exec (.tread dt c w) s = .next (andNext c z (setX c (field n 14 10) (tallyAt z t).count z))))) ∧
  (∀ (dt c n t : Nat) (w : DWord) (s z : State), z = advance dt s → n = w.toNat → t = (if bit n 45 then xr z c (field n 50 46) else field n 44 31) →
    (∀ p ∈ [(0, Instr.tsig dt c w, bits 14 0), (1, .twait dt c w, bits 14 0), (2, .ttry dt c w, bits 9 0), (3, .twaitge dt c w, bits 14 0)], Runs z c w 7 p.1 p.2.2 →
      (field n 30 15 = 0 → exec p.2.1 s = .next (coreFault 0x0740 c z)) ∧
      (field n 30 15 ≠ 0 → tallyAllowed z c t = false ∨ 16384 ≤ t → exec p.2.1 s = .next (coreFault 0x0742 c z))) ∧
    (∀ p ∈ [(4, Instr.tset dt c w, bits 9 0), (5, .tarm dt c w, bits 9 0), (6, .tread dt c w, bits 9 0)], Runs z c w 7 p.1 p.2.2 →
      (field n 30 15 ≠ 0 → exec p.2.1 s = .next (coreFault 0x0740 c z)) ∧
      (field n 30 15 = 0 → tallyAllowed z c t = false ∨ 16384 ≤ t → exec p.2.1 s = .next (coreFault 0x0742 c z)))) ∧
  (∀ (dt c n a ch : Nat) (w : DWord) (s z : State), z = advance dt s → n = w.toNat → a = xr z c (field n 50 46) → ch = field n 45 41 → Runs z c w 7 0x0A (bits 40 0) →
    (a + 64 ≤ z.variant.scratchBytes →
      (allowed z ch (0x20 + c / 8) = false ∨ (chanAt z ch).queue.length < (chanAt z ch).depth ∨ (z.cmd.waiting.filter (fun m => m.sender == 0x20 + c / 8)).length < 8 →
        exec (.send dt c w) s = .next (andNext c z (post ch (0x20 + c / 8) true (ownRead z c a 64) z))) ∧
      (allowed z ch (0x20 + c / 8) = true → (chanAt z ch).depth ≤ (chanAt z ch).queue.length → 8 ≤ (z.cmd.waiting.filter (fun m => m.sender == 0x20 + c / 8)).length →
        exec (.send dt c w) s = .next z)) ∧
    (z.variant.scratchBytes < a + 64 → exec (.send dt c w) s = .next (coreFault 0x0741 c z)))

/-- SAPP whose descriptor and scale block lie in place and keep their checks converts its rows, counts its clips, clears its tile where CLEAR is
set, and with DEST 1 writes them to the scratchpad and signals its tally, with DEST 0 queues the append at its cluster's walker, or waits
while the core's eight entries are in use. SXLT of a well-formed request record queues it, or waits while four of the core's translations are
in progress. A walker's reply to a translation that need not wait for a pin writes the record and takes the request from the queue; one to an
append that is placed takes it from the queue and then signals its tally; one whose slab is being copied waits for that copy. An entry of a
sequence that does not exist, or is not open, answers RSTAT 3; one of a step that has not entered it, RSTAT 4. The end of a copy moves the
bytes and the directory entry to the new slab and lets the waiting appends go on. (08_sequence_engine.md R231; 08_sequence_engine.md R240;
08_sequence_engine.md R241; 08_sequence_engine.md R242; 09_kv_slabs.md R261; 09_kv_slabs.md R262; 09_kv_slabs.md R263; 09_kv_slabs.md R264;
09_kv_slabs.md R267) -/
def Obligations.AppendsAndTranslations : Prop :=
  (∀ (dt c n t f es : Nat) (d : AppendDesc) (b : ScaleBlock) (e : List (List Converted)) (u : State) (w : DWord) (s z : State), z = advance dt s → n = w.toNat →
    t = field n 50 45 → f = field n 34 32 → es = outBytes f → Runs z c w 6 0x07 (bits 29 0) → t < 48 → ownOk z (xr z c (field n 44 40)) 64 64 = .ok () →
    ownOk z (xr z c (field n 39 35)) 576 64 = .ok () → d = appendAt z c (xr z c (field n 44 40)) → b = scaleBlock z c (xr z c (field n 39 35)) →
    appendOk z c n d b = .ok () →
    e = (List.range d.rows).map (fun i => (List.range 64).map (fun j => outConvert f (if bit n 31 then ropeValue z c (tileAt z c t) b d i j else appValue (tileAt z c t) b i j))) →
    u = (if bit n 30 then clearTile c t (countEvents c (clipsIn e.flatten) 0 0 z) else countEvents c (clipsIn e.flatten) 0 0 z) →
    (d.dest = 1 → ∀ v, v = e.zipIdx.foldl (fun s r => r.1.zipIdx.foldl (fun s x => ownWrite c (d.loc + es * (16 * (64 * d.part + x.2) + r.2)) (le es x.1.code) s) s) u →
      exec (.sapp dt c w) s = .next (andNext c z (if d.tally = 0xFFFF then v else signalAndTake d.tally 1 v))) ∧
    (d.dest = 0 → dmaUsed z c < 8 → ∀ ap : Append, ap = { seq := d.seq, layer := d.layer, group := d.group, head := d.head, part := d.part, value := d.kv == 1, pos0 := d.pos0, tally := d.tally, rows := e.map (fun r => r.flatMap (fun v => le es v.code)) } → exec (.sapp dt c w) s = .next (andNext c z (modWalker (c / 8) (fun k => { k with queue := k.queue ++ [
        { core := c, job := (coreAt u c).job, step := (coreAt u c).step, waits := none, ask := .append ap, again := ⟨BitVec.ofNat 64 n, 0, (coreAt u c).r.x, 0, some ap⟩ }] }) u))) ∧
    (d.dest = 0 → 8 ≤ dmaUsed z c → exec (.sapp dt c w) s = .next z)) ∧
  (∀ (dt c n a : Nat) (w : DWord) (s z : State), z = advance dt s → n = w.toNat → a = xr z c (field n 50 46) → Runs z c w 6 0x0A (bits 45 0) →
    ownOk z a 64 64 = .ok () →
    (xlatOk z c (ownRead z c a 16) = true →
      ((coreAt z c).walks < 4 → exec (.sxlt dt c w) s = .next (andNext c z (modCore c (fun x => { x with walks := x.walks + 1 })
        (modWalker (c / 8) (fun k => { k with queue := k.queue ++ [
          { core := c, job := (coreAt z c).job, step := (coreAt z c).step, waits := none, ask := .translate a (ownRead z c a 16), again := ⟨BitVec.ofNat 64 n, 0, (coreAt z c).r.x, 0, none⟩ }] }) z)))) ∧
      (4 ≤ (coreAt z c).walks → exec (.sxlt dt c w) s = .next z)) ∧
    (xlatOk z c (ownRead z c a 16) = false → exec (.sxlt dt c w) s = .next (coreFault 0x0740 c z))) ∧
  (∀ (dt w k : Nat) (r : WalkReq) (s z : State), z = advance dt s → awake z = true → nextReq z w = some (k, r) →
    (∀ rec q, r.ask = .translate rec q → pinsWait z w r.job r.step (byteAt q 11) = false →
      exec (.walkerReply dt w) s = .next (xlatReply w r rec q (dropReq w k z))) ∧
    (∀ a u b, r.ask = .append a → place r.job r.step 3 a z = (.done u, b) →
      exec (.walkerReply dt w) s = .next (if a.tally = 0xFFFF then dropReq w k u else signalTally a.tally 1 (dropReq w k u))) ∧
    (∀ a u b o, r.ask = .append a → place r.job r.step 3 a z = (.wait o u, b) → exec (.walkerReply dt w) s
      = .next (modWalker w (fun x => { x with queue := modNth x.queue k (fun q => { q with ask := .append b, waits := some o }) }) u))) ∧
  (∀ (w job step h l g n m : Nat) (z : State),
    (seqOf z h = none → xlatOne w job step h l g n m z = (xlatEntry 0 0 0 3, z)) ∧
    (∀ i q, seqOf z h = some (i, q) → q.state ≠ 1 → xlatOne w job step h l g n m z = (xlatEntry 0 0 0 3, z)) ∧
    (∀ i q, seqOf z h = some (i, q) → q.state = 1 → q.steps.any (fun e => e.1 == step) = false → xlatOne w job step h l g n m z = (xlatEntry 0 0 0 4, z))) ∧
  (∀ (dt slab : Nat) (c : CowCopy) (b : Slab) (i : Nat) (q : Seq) (g : Geom) (m : Memory) (s z t u v : State), z = advance dt s → awake z = true →
    z.slab.copies.find? (fun x => x.old == slab) = some c → slabAt z slab = some b →
    m = Memory.writeN z.ddr (slabHomeAddr z c.new) (Memory.readN z.ddr (slabHomeAddr z c.old) (((jobGeom z b.job).map (fun g => copyBytes g b.fill)).getD 0)) →
    t = modSlab c.new (fun x => { x with fill := b.fill }) (modSlabs (fun k => { k with copies := k.copies.erase c }) { z with ddr := m }) →
    seqOf t c.seq = some (i, q) → q.state = 1 → jobGeom t q.job = some g →
    u = invalidate (fun e => e.1 == (c.seq, c.layer, c.group, c.index)) (unpin c.old (dropRef c.old (dirSet (dirAddr q g c.index c.layer c.group) 1 c.new t))) →
    v = modSlabs (fun k => { k with walkers := k.walkers.map (fun w => { w with queue := w.queue.map (fun r =>
        match r.ask with
        | .append a => if r.waits = some c.old ∧ a.seq = c.seq ∧ a.layer = c.layer ∧ a.group = c.group then { r with waits := none } else r
        | _ => r) }) }) u →
    exec (.copyOnWriteComplete dt slab) s = .next (slabEvent (slabHome v c.old) 1 b.job 0 c.seq c.index c.new (slabCount 0 v)))

/-- A pre-emption request to a cluster of the part asks the cores of its mask: a running or waiting core that a waiting job may take is asked to
stop, one that is being restored remembers it, any other is left as it is. A core whose context is being saved, with its charge held and its
live extents in order, is idle when the context is valid, whose block it has written to DDR4; a malformed extent list is CORE fault 0x0744. A
restore onto an idle core of a context that may go there starts it, and one that may not answers firmware with 0x0440, 0x0441 or 0x0442. When
the restore is complete the context is gone and the core goes on from the saved registers. A mask unit with a proper request, its places in
reach, writes the row masks and the states, counts them, and signals the list's tally once for each row; a request out of its ranges is fault
0x0780. (05_clove_cores.md R170; 05_clove_cores.md R171; 05_clove_cores.md R172; 05_clove_cores.md R174; 05_clove_cores.md R175;
05_clove_cores.md R176; 10_serving_loop.md R303; 10_serving_loop.md R305; 11_text_tokens_and_grammar.md R341; 11_text_tokens_and_grammar.md
R342) -/
def Obligations.PreemptionAndMasks : Prop :=
  (∀ (dt k mask : Nat) (stops : List StopPoint) (s z : State), z = advance dt s → awake z = true → k < z.variant.clusters →
    exec (.preemptionRequest dt k mask stops) s = .next (dispatchAll (((bitsOf 8 mask).map (8 * k + ·)).foldl (fun s c => askCore stops c s)
      (if ((bitsOf 8 mask).map (8 * k + ·)).any (fun c => ((coreAt z c).state == 2 || (coreAt z c).state == 3) && mayPreempt z c) then servCount 0 1 z else z)))) ∧
  (∀ (c : Nat) (z : State),
    ((coreAt z c).state = 2 ∨ (coreAt z c).state = 3 → mayPreempt z c = true → askCore [] c z = modCore c (fun k => { k with state := 4, askedAt := stamp z }) z) ∧
    ((coreAt z c).state = 6 → askCore [] c z = modCore c (fun k => { k with heldRequest := true }) z) ∧
    ((coreAt z c).state ≠ 2 → (coreAt z c).state ≠ 3 → (coreAt z c).state ≠ 6 → askCore [] c z = z)) ∧
  (∀ (dt c : Nat) (d : TileDesc) (s z : State), z = contextCharge c (advance dt s) → awake (advance dt s) = true → (coreAt (advance dt s) c).state = 5 →
    awake z = true → (coreAt z c).state = 5 → (coreAt z c).tile = some d → holds z (.context c) = true →
    (∀ l x b t u, (if d.liveSave then liveExtents z d else some []) = some l → x = contextOf z c d l → b = contextSpan z.variant x →
      t = servEvent 5 (contextNote z c b x) (servCount 1 1 z) →
      u = { t with ddr := Memory.writeN t.ddr d.ctxBase (contextBytes t.variant x), ctxs := Tab.set t.ctxs d.ctxBase x, ctxCounts := { t.ctxCounts with saves := inc32 t.ctxCounts.saves 1, bytes := sat (2 ^ 64 - 1) (t.ctxCounts.bytes + b) } } →
      exec (.contextValid dt c) s = .next (dispatchAll (retryWaiting (giveBack (.context c) (modCore c (fun k =>
        { k with state := 1, tile := none, waitGranted := false, stalled := none, r := { k.r with dmaq := [], part := [], wait := none } }) u))))) ∧
    (d.liveSave = true → liveExtents z d = none → exec (.contextValid dt c) s = .next (coreFault 0x0744 c z))) ∧
  (∀ (dt c ctx : Nat) (s z : State), z = advance dt s → awake z = true → c < z.variant.cores → stackAt z (stackOf (c / 8)) = .awake →
    (∀ x, Tab.find z.ctxs ctx = some x → (coreAt z c).state = 1 → (x.kind = 1 → x.tag = (coreAt z c).tag) → ctxFormat z x = 1 → x.variant = z.variant.code →
      restoresNow z c x = true →
      exec (.restore dt c ctx) s = .next (contextCharge c (modCore c (fun k => { k with state := 6, restoring := some ctx, askedAt := stamp z }) z))) ∧
    ((coreAt z c).state ≠ 1 → exec (.restore dt c ctx) s = .next { z with cmd := { z.cmd with fwReply := le 2 0x0440 } }) ∧
    (∀ x, Tab.find z.ctxs ctx = some x → (coreAt z c).state = 1 → x.kind = 1 → x.tag ≠ (coreAt z c).tag →
      exec (.restore dt c ctx) s = .next { z with cmd := { z.cmd with fwReply := le 2 0x0441 } }) ∧
    (∀ x, Tab.find z.ctxs ctx = some x → (coreAt z c).state = 1 → (x.kind = 1 → x.tag = (coreAt z c).tag) → ctxFormat z x ≠ 1 ∨ x.variant ≠ z.variant.code →
      exec (.restore dt c ctx) s = .next { z with cmd := { z.cmd with fwReply := le 2 0x0442 } }) ∧
    (Tab.find z.ctxs ctx = none → (coreAt z c).state = 1 → exec (.restore dt c ctx) s = .next { z with cmd := { z.cmd with fwReply := le 2 0x0442 } })) ∧
  (∀ (dt c ctx : Nat) (x : Context) (s z t u v : State), z = contextCharge c (advance dt s) → awake (advance dt s) = true → (coreAt (advance dt s) c).state = 6 →
    awake z = true → (coreAt z c).state = 6 → (coreAt z c).restoring = some ctx → Tab.find z.ctxs ctx = some x → holds z (.context c) = true →
    t = servEvent 6 (contextNote z c (contextSpan z.variant x) x) (servCount 2 1 z) →
    u = { t with ctxs := Tab.erase t.ctxs x.tile.ctxBase, ctxCounts := { t.ctxCounts with restores := inc32 t.ctxCounts.restores 1, bytes := sat (2 ^ 64 - 1) (t.ctxCounts.bytes + contextSpan z.variant x) } } →
    v = retryWaiting (giveBack (.context c) (x.regs.part.foldl (fun s p => finishPart c p s) (rewait c (setMap x.job x.lcore (some c) (putContext c x u))))) →
    exec (.restoreComplete dt c) s = .next (dispatchAll (modCore c (fun k => { k with heldRequest := false, state := if (coreAt v c).heldRequest && (k.state == 2 || k.state == 3) then 4 else k.state }) v))) ∧
  (∀ (dt k n : Nat) (l : MaskList) (r : List MaskList) (m : Memory) (h q : Bytes) (s z : State), z = advance dt s → awake z = true → (maskUnit z k).lists = l :: r →
    m = (clusterAt z k).commons → h = Memory.readN m l.offset 16 → q = Memory.readN m (l.offset + 16 + 32 * l.done) 32 → n = byteAt q 1 →
    (∀ pl t u v, maskHeaderOk z h = true → maskRequestOk z q = true → maskPlaces z l q = .ok pl → (∀ o ∈ pl, ∃ a, o = some a ∧ sramReady z (stackOf a.cluster) = true) →
      t = writeCommons k (l.offset + 16 + 32 * l.done + 24) ((maskStates z q).flatMap (le 2)) ((pl.zip (maskStates z q)).foldl (fun s e => match e.1 with
        | some a => writeLoc a (maskOfState s (byteAt q 0) e.2) s
        | none => s) z) →
      u = modMask k (fun x =>
        { x with masksRc := sat 0xFFFF (x.masksRc + n), grammar := byteAt q 0 % 64, lists := if l.done + 1 = leAt h 0 2 then x.lists.drop 1 else modNth x.lists 0 (fun y => { y with done := y.done + 1 }) }) t →
      v = { u with text := { u.text with counts := modNth u.text.counts 1 (fun x => inc32 x n) } } →
      exec (.maskRequest dt k) s = .next ((List.range n).foldl (fun s _ => signalTally (leAt h 2 2) 1 s) v)) ∧
    (maskHeaderOk z h = false ∨ maskRequestOk z q = false → exec (.maskRequest dt k) s = .next (raiseFault 0x0780 2 k 0 z)))

/-- From firmware (any sender but the host), with parameters of their length and ranges: SEQ_OPEN of a job with a geometry, with a prefix of that
job or none, opens the free entry of lowest index and answers its handle, or 0x0360 where none is free; SEQ_CLOSE closes an open sequence;
SEQ_COMMIT sets its committed length, not below what it was (0x0463); SEQ_ENTER enters each of its open, whole sequences in the step;
STEP_RETIRE retires the step; SLAB_RESERVE grants the slabs asked for, or refuses with 0x0362 and what could be granted; PREFIX_SHARE makes a
prefix of a sequence that no step has entered (0x0460). From the host those commands are 0x0560 with no effect. From any sender PREFIX_DROP
drops a registered prefix, and SEQ_QUERY, SLAB_QUERY and SLAB_STATUS answer their records and change nothing. A handle that names no open
sequence is 0x0161, an unknown prefix 0x0162. A promotion with its charge held copies its slab and goes; one whose slab is no longer shared
gives its charge back. (09_kv_slabs.md R255; 09_kv_slabs.md R259; 09_kv_slabs.md R268; 09_kv_slabs.md R271; 09_kv_slabs.md R274;
09_kv_slabs.md R276; 09_kv_slabs.md R278) -/
def Obligations.SlabCommands : Prop :=
  (∀ (dt : Nat) (h : Hdr) (q : Bytes) (s a : State), a = advance dt s → q.length = 32 → byteAt q 1 ≤ 7 → byteAt q 4 ≤ 7 → resZero q 5 3 = true →
    (jobGeom a (byteAt q 0)).isSome = true → (leAt q 2 2 = 0xFFFF ∨ ∃ x, Tab.find a.slab.prefixes (leAt q 2 2) = some x ∧ x.job = byteAt q 0) →
    (h.sender.toNat = 0x01 → Declines (.seqOpen dt h q) 0x0601 dt h q s 0x0560) ∧
    (h.sender.toNat ≠ 0x01 → Tab.free a.slab.seqs (par a 0x06000004) = none → Declines (.seqOpen dt h q) 0x0601 dt h q s 0x0360) ∧
    (∀ i r, h.sender.toNat ≠ 0x01 → Tab.free a.slab.seqs (par a 0x06000004) = some i →
      r = openSeq i (byteAt q 0) (byteAt q 1) (leAt q 2 2) (byteAt q 4) (leAt q 8 8) (leAt q 16 8) (leAt q 24 8) a →
      Answers (.seqOpen dt h q) 0x0601 dt h q s (le 4 r.1) r.2)) ∧
  (∀ (dt i : Nat) (h : Hdr) (q : Bytes) (x : Seq) (s a : State), a = advance dt s → seqOf a (leAt q 0 4) = some (i, x) →
    (q.length = 4 → x.state = 1 →
      (h.sender.toNat = 0x01 → Declines (.seqClose dt h q) 0x0602 dt h q s 0x0560) ∧
      (h.sender.toNat ≠ 0x01 → Answers (.seqClose dt h q) 0x0602 dt h q s [] (closeSeq i x a)) ∧
      (h.sender.toNat ≠ 0x01 → (privateSlabs a x).length ≤ (freeRefTallies a).length → x.entered ≠ 0 → Declines (.prefixShare dt h q) 0x0607 dt h q s 0x0460) ∧
      (∀ id, h.sender.toNat ≠ 0x01 → (privateSlabs a x).length ≤ (freeRefTallies a).length → x.entered = 0 → Tab.free a.slab.prefixes 65535 = some id →
        Answers (.prefixShare dt h q) 0x0607 dt h q s (le 2 id) (mirrorShare id (sharePrefix id i x a)))) ∧
    (q.length = 4 → Answers (.seqQuery dt h q) 0x0609 dt h q s (seqRecord x) a) ∧
    (q.length = 8 → leAt q 4 4 ≤ 256 * ((jobGeom a x.job).map Geom.maxIndex).getD 0 →
      (h.sender.toNat = 0x01 → Declines (.seqCommit dt h q) 0x0603 dt h q s 0x0560) ∧
      (h.sender.toNat ≠ 0x01 → leAt q 4 4 < x.committed → Declines (.seqCommit dt h q) 0x0603 dt h q s 0x0463) ∧
      (h.sender.toNat ≠ 0x01 → x.committed ≤ leAt q 4 4 → Answers (.seqCommit dt h q) 0x0603 dt h q s [] (modSeq i (fun y => { y with committed := leAt q 4 4 }) a)))) ∧
  (∀ (dt : Nat) (h : Hdr) (q : Bytes) (s a : State), a = advance dt s → seqOf a (leAt q 0 4) = none →
    (q.length = 4 → Declines (.seqClose dt h q) 0x0602 dt h q s 0x0161 ∧ Declines (.prefixShare dt h q) 0x0607 dt h q s 0x0161 ∧ Declines (.seqQuery dt h q) 0x0609 dt h q s 0x0161) ∧
    (q.length = 8 → Declines (.seqCommit dt h q) 0x0603 dt h q s 0x0161)) ∧
  (∀ (dt n : Nat) (h : Hdr) (q : Bytes) (s a : State), a = advance dt s → n = leAt q 2 2 → 1 ≤ n → n ≤ 1024 → q.length = 8 + 8 * n → byteAt q 0 ≤ 15 → resZero q 1 1 = true →
    (∀ k, k < n → leAt q (12 + 8 * k) 4 % 2 ^ 31 = 0) →
    ((∀ e ∈ enterList q, ∃ x, seqOf a e.1 = some x ∧ x.2.state = 1 ∧ (e.2 = true ∨ x.2.dropped = [])) →
      (h.sender.toNat = 0x01 → Declines (.seqEnter dt h q) 0x0604 dt h q s 0x0560) ∧
      (h.sender.toNat ≠ 0x01 → Answers (.seqEnter dt h q) 0x0604 dt h q s [] ((enterList q).foldl (fun t e => enterSeq (leAt q 4 4) e t) a))) ∧
    (∀ e ∈ enterList q, seqOf a e.1 = none → Declines (.seqEnter dt h q) 0x0604 dt h q s 0x0161)) ∧
  (∀ (dt : Nat) (h : Hdr) (q : Bytes) (s a : State), a = advance dt s → byteAt q 0 ≤ 15 → resZero q 1 3 = true →
    (q.length = 8 → (h.sender.toNat = 0x01 → Declines (.stepRetire dt h q) 0x0605 dt h q s 0x0560) ∧
      (h.sender.toNat ≠ 0x01 → Answers (.stepRetire dt h q) 0x0605 dt h q s [] (retireStep (byteAt q 0) (leAt q 4 4) a))) ∧
    (∀ r, q.length = 12 → r = reserveSlabs (byteAt q 0) (leAt q 4 4) (leAt q 8 4) a →
      (h.sender.toNat = 0x01 → Declines (.slabReserve dt h q) 0x0606 dt h q s 0x0560) ∧
      (h.sender.toNat ≠ 0x01 → r.1 = true → Answers (.slabReserve dt h q) 0x0606 dt h q s (le 4 (leAt q 8 4)) r.2) ∧
      (h.sender.toNat ≠ 0x01 → r.1 = false → DeclinesWith (.slabReserve dt h q) 0x0606 dt h q s 0x0362 (le 4 (freeSlabs r.2 - outstanding r.2)) r.2))) ∧
  (∀ (dt : Nat) (h : Hdr) (q : Bytes) (s a : State), a = advance dt s → q.length = 4 →
    (resZero q 2 2 = true →
      (∀ x, Tab.find a.slab.prefixes (leAt q 0 2) = some x → Answers (.prefixDrop dt h q) 0x0608 dt h q s [] (dropPrefix (leAt q 0 2) x a)) ∧
      (Tab.find a.slab.prefixes (leAt q 0 2) = none → Declines (.prefixDrop dt h q) 0x0608 dt h q s 0x0162)) ∧
    (leAt q 0 4 < poolSlots a → Answers (.slabQuery dt h q) 0x060A dt h q s (slabRecord a (leAt q 0 4)) a) ∧
    (poolSlots a ≤ leAt q 0 4 → Declines (.slabQuery dt h q) 0x060A dt h q s 0x0160)) ∧
  (∀ (dt : Nat) (h : Hdr) (s a : State), a = advance dt s → Answers (.slabStatus dt h []) 0x060B dt h [] s
    (pack [(4, poolSlots a), (4, freeSlabs a), (4, outstanding a), (4, (a.slab.slabs.filter (fun e => e.2.state == 2)).length),
      (4, (a.slab.seqs.filter (fun e => e.2.state == 1)).length), (4, a.slab.seqs.foldl (fun n e => n + e.2.dropped.length) 0)]) a) ∧
  (∀ (dt n : Nat) (o : Promo) (b : Slab) (s a : State), a = advance dt s → a.slab.promos.find? (fun p => p.slab == n) = some o → awake a = true →
    sramReady a (stackOf (slabHome a n)) = true → o.started = true → slabAt a o.slab = some b →
    (b.state ≠ 2 → exec (.promotion dt n) s = .next (giveBack (.maintenance o.slab) (modSlabs (fun k => { k with promos := k.promos.filter (fun p => p.slab != o.slab) }) a))) ∧
    (∀ m u, b.state = 2 → m = Memory.readN a.ddr (slabHomeAddr a o.slab) (((jobGeom a b.job).map Geom.slabBytes).getD 0) → u = modSlab o.slab (fun x => { x with promoted := true, commons := commonsAddr (slabHome a o.slab) o.offset })
        (modCluster (slabHome a o.slab) (fun k => { k with commons := Memory.writeN k.commons o.offset m }) a) →
      exec (.promotion dt n) s = .next (slabEvent (slabHome a o.slab) 4 b.job 0 0 b.index o.slab
        (slabCount 4 (giveBack (.maintenance o.slab) (modSlabs (fun k => { k with promos := k.promos.filter (fun p => p.slab != o.slab) }) u))))))

/-- JOB_STATUS of a declared job answers its kind, state, priority, steps in flight, last step and launch, lines and cores. LINE_QUERY of a line
with a sequence answers its record. LEARN_POST of 1 to 512 tokens of the vocabulary holds them as the target of that side and region, in
place of one held before, while fewer than 4096 others are held (0x0370); a token outside the vocabulary is 0x0173. LEARN_CONTROL starts or
stops a learn job, and is 0x0470 for a job of another kind. An undeclared job is 0x0171, an unknown line 0x0172, a wrong length 0x0170.
(10_serving_loop.md R284; 10_serving_loop.md R318; 10_serving_loop.md R323) -/
def Obligations.ServingCommands : Prop :=
  (∀ (dt j : Nat) (h : Hdr) (q : Bytes) (s a : State), a = advance dt s → j = byteAt q 0 → q.length = 4 → resZero q 1 3 = true →
    (∀ d, jobDecl a j = some d → Answers (.jobStatus dt h q) 0x0701 dt h q s
      (pack [(1, d.kind), (1, jobState a j), (1, jobPar a j 0x02), (1, ((jobAt a j).steps.filter (fun t => t.state != 3)).length), (4, (jobAt a j).stepLast),
        (8, (jobAt a j).lastLaunch), (4, linesIn a j 2), (4, linesIn a j 3), (2, (jobAt a j).coresHeld), (2, 0)]) a) ∧
    (jobDecl a j = none → Declines (.jobStatus dt h q) 0x0701 dt h q s 0x0171)) ∧
  (∀ (dt : Nat) (h : Hdr) (q : Bytes) (s a : State), a = advance dt s → q.length = 8 → resZero q 6 2 = true →
    (∀ l, lineAt a (leAt q 0 4) (leAt q 4 2) = some l → l.handle ≠ 0 → Answers (.lineQuery dt h q) 0x0702 dt h q s
      (pack [(1, l.state), (1, l.bucket), (1, l.job), (1, 0), (4, l.stepsUsed), (4, l.budget), (4, l.toks.length),
        (8, if (slotsFor a (.lineDeadline l.handle)).isEmpty then 0 else l.deadlineDue), (4, l.handle)]) a) ∧
    (lineAt a (leAt q 0 4) (leAt q 4 2) = none → Declines (.lineQuery dt h q) 0x0702 dt h q s 0x0172)) ∧
  (∀ (dt n : Nat) (h : Hdr) (q : Bytes) (ids : List Nat) (o : List Target) (s a : State), a = advance dt s → n = leAt q 6 2 → 1 ≤ n → n ≤ 512 → q.length = 8 + 4 * n →
    ids = (List.range n).map (fun i => leAt q (8 + 4 * i) 4) →
    o = a.serv.targets.filter (fun x => !(x.sheet == leAt q 0 4 && x.region == leAt q 4 2)) →
    ((∀ i ∈ ids, i < vocab a) → o.length < 4096 → Answers (.learnPost dt h q) 0x0703 dt h q s []
      (watchTargets { a with serv := { a.serv with targets := o ++ [⟨leAt q 0 4, leAt q 4 2, ids, stamp a⟩] } })) ∧
    ((∀ i ∈ ids, i < vocab a) → 4096 ≤ o.length → Declines (.learnPost dt h q) 0x0703 dt h q s 0x0370) ∧
    ((∃ i ∈ ids, vocab a ≤ i) → Declines (.learnPost dt h q) 0x0703 dt h q s 0x0173)) ∧
  (∀ (dt : Nat) (h : Hdr) (q : Bytes) (s a : State), a = advance dt s → q.length = 4 → byteAt q 1 ≤ 1 → resZero q 2 2 = true →
    (∀ d, jobDecl a (byteAt q 0) = some d → d.kind = 3 → Answers (.learnControl dt h q) 0x0704 dt h q s []
      (modJob (byteAt q 0) (fun x => { x with started := byteAt q 1 == 1 }) a)) ∧
    (∀ d, jobDecl a (byteAt q 0) = some d → d.kind ≠ 3 → Declines (.learnControl dt h q) 0x0704 dt h q s 0x0470) ∧
    (jobDecl a (byteAt q 0) = none → Declines (.learnControl dt h q) 0x0704 dt h q s 0x0171))

/-- A build opportunity of a ready job with work, a plan that fits, room in flight and in the serving pool, its dies awake and its cores free
posts the job's next step at its cadence point; a decode build posts where it has rows or a recompute; where the cores are not free the job
waits for them from that time on. The oldest step not yet accepted is accepted once all its tiles have signalled. A release check that has
passed moves the side's unfinished lines to the slow lane and commits its record once no earlier step is owed; a passed second deadline makes
its slow lines unread and commits an amendment. A job that has waited one period for cores is reported once. Targets older than 60 s that
matched nothing go, each with its event. Of a step's rows, a draft is accepted exactly while it equals the token of the row before.
(10_serving_loop.md R288; 10_serving_loop.md R290; 10_serving_loop.md R294; 10_serving_loop.md R297; 10_serving_loop.md R302;
10_serving_loop.md R314; 10_serving_loop.md R317; 10_serving_loop.md R318) -/
def Obligations.ServingEvents : Prop :=
  (∀ (dt j start due : Nat) (p : StepPlan) (d : JobDecl) (s a u : State), a = advance dt s → jobDecl a j = some d → awake a = true → a.boot.ready = true → recovering a = false →
    u = p.opens.foldl (fun s o => openLine j o s) (moveExpired j (adoptJob j a)) → start = (jobAt u j).start.getD (ceilDiv u.clk.tb 1000 * 1000) →
    due = cadence start (jobPar u j 0x03) (Nat.max (u.clk.tb + 256) (match (jobAt u j).steps.getLast? with | some t => t.due + 1 | none => 0)) →
    hasWork u j due d = true → planOk u d p = true → ((jobAt u j).steps.filter (fun t => t.state != 7)).length < jobPar u j 0x04 → poolUsed u .serving < poolSize u .serving →
    asleepStacks u (planMask p) = [] →
    (∀ m, holdCores u j d.clusters (planCores p) (nth u.coreMaps j []) = some m →
      (d.kind ≠ 2 → exec (.stepBuild dt j p) s = .next (postStep j (nextStep (jobAt u j)) due start d p ⟨u, 0, 0, 0, [], [], []⟩ m)) ∧
      (∀ b, d.kind = 2 → b = fillDecode j (nextStep (jobAt u j)) due u → (b.rows ≠ 0 ∨ b.recompute ≠ []) →
        exec (.stepBuild dt j p) s = .next (postStep j (nextStep (jobAt u j)) due start d p b m))) ∧
    (holdCores u j d.clusters (planCores p) (nth u.coreMaps j []) = none → exec (.stepBuild dt j p) s
      = .next (modJob j (fun x => { x with start := some start, waitingCores := some (x.waitingCores.getD u.clk.tb) }) u))) ∧
  (∀ (dt j : Nat) (d : JobDecl) (t : Step) (facts : List (List RowFact)) (s a : State), a = advance dt s → jobDecl a j = some d →
    (jobAt a j).steps.find? (fun t => t.state != 7) = some t → awake a = true → t.state = 6 → t.tiles ≤ (tallyAt a t.doneTally).count →
    exec (.acceptance dt j facts) s = .next (sweepSheets (acceptStep j d t facts a))) ∧
  (∀ (ts ds : List Nat), (∀ k, k < agreeing ts ds → k < ts.length ∧ k < ds.length ∧ nth ts k 0 = nth ds k 0) ∧
    (agreeing ts ds < ts.length → agreeing ts ds < ds.length → nth ts (agreeing ts ds) 0 ≠ nth ds (agreeing ts ds) 0)) ∧
  (∀ (dt id at_ : Nat) (x : Sheet) (f : List FieldValue) (s a : State), a = advance dt s → sheetAt a id = some x → awake a = true → x.alive = true →
    acceptanceOwed a at_ = false →
    (x.checkHit = some at_ → x.committed.isNone = true → exec (.releaseCheckTimeout dt id f) s = .next (commitRecord x (sheetPlan
        (((linesOf a id).filter (fun l => l.state == 1 || l.state == 2)).foldl (fun s l => moveSlow l 3 (jobAt s l.job).stepLast at_ s) a) x f)
      (((linesOf a id).filter (fun l => l.state == 1 || l.state == 2)).foldl (fun s l => moveSlow l 3 (jobAt s l.job).stepLast at_ s) a))) ∧
    (∀ u, x.secondHit = some at_ → x.committed.isSome = true → u = ((linesOf a id).filter (fun l => l.state == 3)).foldl (fun s l => lineUnread l at_ s) a →
      exec (.secondDeadlineTimeout dt id) s = .next (sweepSheets (commitAmendment x (unfilled x []) u)))) ∧
  (∀ (dt j t : Nat) (s a : State), a = advance dt s → (jobAt a j).waitingCores = some t → awake a = true → (jobAt a j).waitReported = false → t + jobPar a j 0x03 ≤ a.clk.tb →
    exec (.jobWaiting dt j) s = .next (servEvent 7 { job := j, step := nextStep (jobAt a j), at_ := t, duration := a.clk.tb - t }
      (modJob j (fun x => { x with waitReported := true }) a))) ∧
  (∀ (dt : Nat) (o : List Target) (u s a : State), a = advance dt s → awake a = true → o = a.serv.targets.filter (fun t => decide (t.arrived + 60000000000 < a.clk.tb) && !targetMatched a t) →
    u = { a with serv := { a.serv with targets := a.serv.targets.filter (fun t => !o.contains t) } } →
    exec (.learningTargetExpiry dt) s = .next (watchTargets (o.foldl (fun s t => servEvent 8 { at_ := t.arrived, sheet := t.sheet, region := t.region } s) u)))

/-- TEXT_TOKENIZE of up to 4096 bytes on a channel answers the tokens of the carry and these bytes, and keeps the new carry; a host's request on
channels 8 to 15 is 0x0580. TEXT_DETOKENIZE answers the bytes of 1 to 512 tokens and whether they are UTF-8; a token outside the vocabulary
is 0x0181. GRAMMAR_BIND stages a binding to a loaded grammar and a stop set (0x0185, and 0x0381 where the table is full); STOP_SET stages 0
to 4 well-formed stop strings (0x0183). GRAMMAR_LOAD puts a signed, well-formed grammar that fits into its slot, with its class table; one in
use is 0x0481, one that does not fit 0x0380. GRAMMAR_QUERY answers a slot's states, class table, bytes, lines and bindings. Wrong lengths and
fields are 0x0184. (11_text_tokens_and_grammar.md R330; 11_text_tokens_and_grammar.md R331; 11_text_tokens_and_grammar.md R339;
11_text_tokens_and_grammar.md R345; 11_text_tokens_and_grammar.md R347; 11_text_tokens_and_grammar.md R351; 11_text_tokens_and_grammar.md
R353) -/
def Obligations.TextCommands : Prop :=
  (∀ (dt n ch : Nat) (h : Hdr) (q : Bytes) (r : List Nat × State) (s a : State), a = advance dt s → n = leAt q 2 2 → ch = byteAt q 0 →
    q.length = 4 + n → byteAt q 1 ≤ 3 → n ≤ 4096 → r = tokenize ch (bit (byteAt q 1) 0) (bit (byteAt q 1) 1) (q.drop 4) a →
    ((ch < 8 ∨ (ch ≤ 15 ∧ h.sender.toNat ≠ 0x01)) → Answers (.textTokenize dt h q) 0x0801 dt h q s
      (pack [(2, r.1.length), (1, (nth r.2.text.carries ch []).length), (1, 0)] ++ r.1.flatMap (le 4)) r.2) ∧
    (8 ≤ ch → ch ≤ 15 → h.sender.toNat = 0x01 → Declines (.textTokenize dt h q) 0x0801 dt h q s 0x0580)) ∧
  (∀ (dt : Nat) (h : Hdr) (q : Bytes) (s a : State), a = advance dt s → (q.length ≠ 4 + leAt q 2 2 ∨ 15 < byteAt q 0 ∨ 3 < byteAt q 1 ∨ 4096 < leAt q 2 2) →
    Declines (.textTokenize dt h q) 0x0801 dt h q s 0x0184) ∧
  (∀ (dt n : Nat) (h : Hdr) (q b : Bytes) (ids : List Nat) (s a : State), a = advance dt s → n = leAt q 0 2 → 1 ≤ n → n ≤ 512 → q.length = 4 + 4 * n → resZero q 2 2 = true →
    ids = (List.range n).map (fun i => leAt q (4 + 4 * i) 4) → b = ids.flatMap (tokenBytes a) →
    ((∀ t ∈ ids, tokenOk a t = true) → Answers (.textDetokenize dt h q) 0x0802 dt h q s (pack [(2, b.length), (1, b2n (wellFormed b)), (1, 0)] ++ b) a) ∧
    ((∃ t ∈ ids, tokenOk a t = false) → Declines (.textDetokenize dt h q) 0x0802 dt h q s 0x0181)) ∧
  (∀ (dt g st : Nat) (k : Nat × Nat) (h : Hdr) (q : Bytes) (s a : State), a = advance dt s → g = byteAt q 4 → st = byteAt q 5 → k = (byteAt q 0, leAt q 2 2) →
    q.length = 8 → resZero q 1 1 = true → resZero q 6 2 = true → (g ≤ 63 ∨ g = 0xFF) → (st ≤ 63 ∨ st = 0xFF) →
    ((g = 0xFF ∨ (Tab.find a.text.grammars g).isSome = true) → ((g = 0xFF ∧ st = 0xFF) ∨ k ∈ bindKeys a ∨ (bindKeys a).length < 1024) →
      Answers (.grammarBind dt h q) 0x0803 dt h q s []
        { a with text := { a.text with stagedBinds := a.text.stagedBinds.filter (fun e => e.1 != k) ++ [(k, (g, st))] } }) ∧
    (g ≠ 0xFF → Tab.find a.text.grammars g = none → Declines (.grammarBind dt h q) 0x0803 dt h q s 0x0185) ∧
    ((g = 0xFF ∨ (Tab.find a.text.grammars g).isSome = true) → ¬ (g = 0xFF ∧ st = 0xFF) → k ∉ bindKeys a → 1024 ≤ (bindKeys a).length →
      Declines (.grammarBind dt h q) 0x0803 dt h q s 0x0381)) ∧
  (∀ (dt n : Nat) (h : Hdr) (q : Bytes) (s a : State), a = advance dt s → n = byteAt q 1 → byteAt q 0 ≤ 63 → n ≤ 4 → resZero q 2 2 = true → q.length = 4 + 40 * n →
    ((∀ i, i < n → stopOk (stopRecord (q.drop 4) i) = true) → Answers (.stopSet dt h q) 0x0804 dt h q s []
      { a with text := { a.text with stagedStops := Tab.set a.text.stagedStops (byteAt q 0) (q.drop 4) } }) ∧
    ((∃ i, i < n ∧ stopOk (stopRecord (q.drop 4) i) = false) → Declines (.stopSet dt h q) 0x0804 dt h q s 0x0183)) ∧
  (∀ (dt slot : Nat) (h : Hdr) (q c b g : Bytes) (l : Tab Bytes) (s a t : State), a = advance dt s → slot = byteAt q 0 → c = q.drop 4 → b = containerBody c → g = sectionGrammar b →
    slot ≤ 63 → resZero q 1 3 = true → q.length = 4 + 8192 + leAt c 8 8 →
    ((sectionTable b = none ∧ l = a.text.classTables) ∨ ∃ x, sectionTable b = some x ∧ classTableOk (vocab a) x = true ∧ l = Tab.set a.text.classTables (byteAt x 2) x) →
    t = { a with text := { a.text with grammars := Tab.set a.text.grammars slot g, classTables := l } } →
    (grammarOk (vocab a) (l.map Prod.fst) g = false → Declines (.grammarLoad dt h q) 0x0805 dt h q s 0x0182) ∧
    (grammarOk (vocab a) (l.map Prod.fst) g = true → containerRefusal a 3 c = none →
      (par a 0x08000001 * 1024 < grammarBytes t → Declines (.grammarLoad dt h q) 0x0805 dt h q s 0x0380) ∧
      (grammarBytes t ≤ par a 0x08000001 * 1024 →
        (Tab.find a.text.grammars slot).isSome = true → ((∃ e ∈ a.text.bindings, e.2.1 = slot) ∨ (∃ e ∈ a.serv.lines, lineUses slot e = true)) →
        Declines (.grammarLoad dt h q) 0x0805 dt h q s 0x0481) ∧
      (grammarBytes t ≤ par a 0x08000001 * 1024 →
        (Tab.find a.text.grammars slot = none ∨ ((∀ e ∈ a.text.bindings, e.2.1 ≠ slot) ∧ ∀ e ∈ a.serv.lines, lineUses slot e = false)) →
        Answers (.grammarLoad dt h q) 0x0805 dt h q s [] t))) ∧
  (∀ (dt n : Nat) (h : Hdr) (q g : Bytes) (s a : State), a = advance dt s → n = byteAt q 0 → q.length = 4 → n ≤ 63 → resZero q 1 3 = true → g = Tab.get a.text.grammars n [] →
    Answers (.grammarQuery dt h q) 0x0806 dt h q s (pack [(2, gStates g), (1, gClassTable g), (1, 0), (4, if g = [] then 0 else gBytes g),
      (4, (a.serv.lines.filter (lineUses n)).length), (2, (a.text.bindings.filter (fun e => e.2.1 == n)).length), (2, 0)]) a)

/-- A launched time mark leaves first, with its stamps and LATE where it is more than 24 ns after its launch. Else the first queued record of the
port: Frame Start with the next frame number of its virtual channel, then its bytes in packets of PACKET_BYTES, then Frame End, which frees
its charge and its room. Else the Frame End of an image frame that ends. Else the first image row in hand-over order, ties to the lower
stream: Frame Start, then the image header, then the row. While OUT_HOLD_N holds, or a mark is too near, nothing starts.
(12_results_output.md R357; 12_results_output.md R359; 12_results_output.md R363; 12_results_output.md R375; 12_results_output.md R377;
12_results_output.md R381; 12_results_output.md R382) -/
def Obligations.TransmitPackets : Prop :=
  (∀ (dt p : Nat) (s a u : State) (x : TxPort), a = advance dt s → awake a = true → p < a.variant.txPorts → u = modTx p (fun t => { t with inFlight := none }) a →
    x = nth u.out.ports p TxPort.reset →
    (∀ m l, x.marks = m :: l → notHeld u = true → exec (.transmitPacket dt p) s = .next (sendMark p m u)) ∧
    (∀ r, x.marks = [] → u.out.records.find? (fun r => r.queued && r.port == p) = some r → mayStart u p (Nat.min (r.bytes.length - r.sentBytes) x.packetBytes) = true →
      (∀ f v, r.frame = 0 → f = nextFrame u p r.vc → v = modTx p (fun x => { x with numbers := Tab.set x.numbers r.vc f, packetBytes := par u (0x09E00004 + p * 0x100) }) u →
        exec (.transmitPacket dt p) s = .next (sweepSheets (startPacket p ⟨0x00, r.vc, le 2 f, u.clk.tb⟩ (modRecord r (fun x => { x with frame := f }) v)))) ∧
      (∀ b, r.frame ≠ 0 → r.sentBytes < r.bytes.length → b = (r.bytes.drop r.sentBytes).take x.packetBytes →
        exec (.transmitPacket dt p) s = .next (sweepSheets (startPacket p ⟨recordType r.kind, r.vc, b, u.clk.tb⟩
          (modRecord r (fun x => { x with sentBytes := x.sentBytes + b.length }) u)))) ∧
      (r.frame ≠ 0 → r.bytes.length ≤ r.sentBytes →
        exec (.transmitPacket dt p) s = .next (sweepSheets (recordLeft r (startPacket p ⟨0x01, r.vc, le 2 r.frame, u.clk.tb⟩ u))))) ∧
    (∀ f, x.marks = [] → u.out.records.find? (fun r => r.queued && r.port == p) = none → x.frames.find? (endsNow u x) = some f → mayStart u p 0 = true →
      exec (.transmitPacket dt p) s = .next (sweepSheets (startPacket p ⟨0x01, f.vc, le 2 f.number, u.clk.tb⟩
        (modTx p (fun t => { t with frames := t.frames.erase f, framesSent := inc32 t.framesSent 1 }) u)))) ∧
    (∀ r l, x.marks = [] → u.out.records.find? (fun r => r.queued && r.port == p) = none → x.frames.find? (endsNow u x) = none →
      sortBy (fun r => r.at_ * 16 + r.stream) x.rows = r :: l → mayStart u p r.bytes.length = true → exec (.transmitPacket dt p) s = .next (sendRow p r u)) ∧
    (x.marks = [] → u.out.records.find? (fun r => r.queued && r.port == p) = none → x.frames.find? (endsNow u x) = none → x.rows = [] →
      exec (.transmitPacket dt p) s = .next u) ∧
    (notHeld u = false → exec (.transmitPacket dt p) s = .next u)) ∧
  (∀ (p : Nat) (m : Mark) (u v w : State) (late : Bool) (b : Bytes), late = decide (m.launched + 24 < u.clk.tb) →
    b = pack [(4, m.marker), (1, p), (1, b2n late), (2, m.slot), (8, m.due), (8, u.clk.tb)] →
    v = startPacket p ⟨0x33, tpar u p 0x05, b, u.clk.tb⟩ (modTx p (fun x => { x with marks := x.marks.erase m }) u) →
    w = countLate { v with out := { v.out with marksLate := inc32 v.out.marksLate 1 } } →
    sendMark p m u = if late then outEvent 6 p 0 0 w else v) ∧
  (∀ (p : Nat) (r : OutRow) (u : State),
    ((nth u.out.ports p TxPort.reset).frames.find? (fun f => f.sheet == r.sheet) = none → ∀ n, n = ((sheetAt u r.sheet).map Sheet.frame).getD 0 →
      sendRow p r u = startPacket p ⟨0x00, r.vc, le 2 n, u.clk.tb⟩ (modTx p (fun x => { x with frames := x.frames ++ [⟨r.sheet, r.vc, n, false, false⟩] }) u)) ∧
    (∀ f, (nth u.out.ports p TxPort.reset).frames.find? (fun f => f.sheet == r.sheet) = some f → f.header = false →
      sendRow p r u = startPacket p ⟨0x34, r.vc, imageHeader u r, u.clk.tb⟩
        (modTx p (fun x => { x with frames := x.frames.map (fun g => if g = f then { g with header := true } else g) }) u)) ∧
    (∀ f v, (nth u.out.ports p TxPort.reset).frames.find? (fun f => f.sheet == r.sheet) = some f → f.header = true →
      v = modTx p (fun x => { x with rows := x.rows.erase r, frames := x.frames.map (fun g => if g = f then { g with ended := r.last } else g) }) u →
      sendRow p r u = roomFreed (modEntries (fun k => k == .imageRow r.sheet r.row) (fun e => { e with sent := true })
        (startPacket p ⟨r.format, r.vc, r.bytes, u.clk.tb⟩ v)))) ∧
  (∀ (p : Nat) (k : TxPacket) (u : State), p < u.out.ports.length → (nth (startPacket p k u).out.ports p TxPort.reset).inFlight = some k)

/-- RECORD_COMMIT commits the sheet record of a live side once its lines are found, cut and read or its release deadline has passed, with its
lines in region order and its fields in field order; the amendment of a side whose record is committed, where lines or fields have ended
since; and the notice of a discarded side. A fall of OUT_HOLD_N stamps the hold and is event 3, a rise ends it and is event 4. OUT_STATUS
answers occupancy, ring state, the pin, the queues of both ports and the last records committed and sent; parameters are refused with 0x0190.
(12_results_output.md R371; 12_results_output.md R372; 12_results_output.md R381; 12_results_output.md R384; 12_results_output.md R385;
10_serving_loop.md R313; 10_serving_loop.md R316) -/
def Obligations.RecordsAndHold : Prop :=
  (∀ (dt id : Nat) (f : List FieldValue) (s a : State), a = advance dt s → awake a = true →
    (∀ h, sheetAt a id = some h → h.alive = true → h.committed = none → (h.checkHit.isSome = true ∨ (h.whole = true ∧ h.listDone = true ∧ ∀ r ∈ h.asked, r ∈ h.cut)) →
      (∀ l ∈ linesOf a id, l.state ≠ 1 ∧ l.state ≠ 2) →
      exec (.recordCommit dt 1 id f) s = .next (commitRecord h ⟨1, linesOf a h.id, sortBy FieldValue.field f, openLines a h.id,
        (f.filter (fun f => f.state == 1)).map FieldValue.field, h.checkHit.isSome⟩ a)) ∧
    (∀ h, sheetAt a id = some h → sheetRecordDue a h = false → exec (.recordCommit dt 1 id f) s = .next a) ∧
    (∀ h, sheetAt a id = some h → h.alive = true → h.committed.isSome = true → exec (.recordCommit dt 2 id f) s = .next (commitAmendment h (unfilled h f) a)) ∧
    (∀ h, a.prep.sheets.find? (fun h => h.id == id && h.dead.isSome && !h.noticed) = some h →
      exec (.recordCommit dt 3 id f) s = .next (sweepSheets (commitRecord h ⟨3, [], [], [], [], false⟩ a)))) ∧
  (∀ (h : Sheet) (f e : List FieldValue) (s t : State), e = f.filter (fun f => f.state != 1 && h.fieldsPending.contains f.field) →
    t = commitRecord h ⟨2, newlyEnded s h.id, sortBy FieldValue.field e, openLines s h.id, h.fieldsPending.filter (fun f => !e.any (fun e => e.field == f)), false⟩ s →
    (newlyEnded s h.id ≠ [] → commitAmendment h f s = if t.out.lastRecord = s.out.lastRecord then t else amendEvents (newlyEnded s h.id) t) ∧
    (newlyEnded s h.id = [] → sortBy FieldValue.field e = [] → commitAmendment h f s = s)) ∧
  (∀ (dt : Nat) (s a : State), a = advance dt s → awake a = true →
    (a.pins.outHold = true → exec (.outHoldFall dt) s = .next (outEvent 3 0xFF 0 0
      { a with pins := { a.pins with outHold := false }, out := { a.out with hold := some a.clk.tb } })) ∧
    (a.pins.outHold = false → exec (.outHoldRise dt) s = .next (outEvent 4 0xFF 0 0
      { a with pins := { a.pins with outHold := true }, out := { a.out with hold := none } }))) ∧
  (∀ (dt : Nat) (h : Hdr) (s a : State), a = advance dt s → Answers (.outStatus dt h []) 0x0901 dt h [] s
    (pack [(8, occupancy a), (1, b2n a.out.high), (1, b2n (!a.pins.outHold)), (2, 0), (2, sat 0xFFFF (recordsQueued a 0)), (2, sat 0xFFFF (rowsQueued a 0)), (4, 0),
      (2, sat 0xFFFF (recordsQueued a 1)), (2, sat 0xFFFF (rowsQueued a 1)), (4, 0), (4, a.out.lastRecord), (4, a.out.lastSent)]) a) ∧
  (∀ (dt : Nat) (h : Hdr) (q : Bytes) (s : State), q ≠ [] → Declines (.outStatus dt h q) 0x0901 dt h q s 0x0190)

/-- PARAM_READ answers a value posted or, with VIEW 1, staged. PARAM_WRITE of 1 to 64 entries checks all of them before any is applied or staged;
the first failure gives status and index, and changes nothing. EPOCH_POST makes the staged set the next epoch; quiet items need FLAGS.QUIET
with a due of EXEC + 1 ms or later. EPOCH_DISCARD empties the staging; EPOCH_STATUS answers the epochs, their masks, and the units.
ADAPTER_ACTIVATE stages a learn job for a job that reads. RESOURCE_QUERY answers the owner of a pin, pair, FIELD list or channel. Blocks
adopt their codes unless a quiet epoch is scheduled; a quiet epoch whose window holds nothing ends with its items applied and every unit at
its number. (13_commands_and_mailboxes.md R404; 13_commands_and_mailboxes.md R406; 13_commands_and_mailboxes.md R407;
13_commands_and_mailboxes.md R408; 13_commands_and_mailboxes.md R409; 13_commands_and_mailboxes.md R410; 13_commands_and_mailboxes.md R411;
13_commands_and_mailboxes.md R413) -/
def Obligations.ParametersAndEpochs : Prop :=
  (∀ (dt id : Nat) (h : Hdr) (q : Bytes) (s a : State), a = advance dt s → id = leAt q 0 4 → q.length = 8 → byteAt q 4 ≤ 1 → resZero q 5 3 = true →
    (∀ i, paramInfo a id = .known i → id ≠ 0x0B000085 → Answers (.paramRead dt h q) 0x0A01 dt h q s
      (pack [(4, id), (1, i.width), (1, b2n (readParam a i id (byteAt q 4)).2), (2, 0), (8, (readParam a i id (byteAt q 4)).1)]) a) ∧
    (∀ i, paramInfo a id = .known i → i.change ≠ .ro → ∀ v, (readParam a i id v).1 = if v = 1 then (Tab.find a.cmd.staged id).getD (posted a id) else posted a id) ∧
    (paramInfo a id = .unknown → Declines (.paramRead dt h q) 0x0A01 dt h q s 0x01A4) ∧
    (∀ st, paramInfo a id = .absent st → Declines (.paramRead dt h q) 0x0A01 dt h q s st)) ∧
  (∀ (dt n : Nat) (h : Hdr) (q : Bytes) (es : List (Nat × Nat × Bool)) (new : Tab Nat) (s a t : State), a = advance dt s → n = leAt q 0 2 → 1 ≤ n → n ≤ 64 → q.length = 4 + 16 * n →
    resZero q 2 2 = true → es = writeEntries q → new = lastEntries es → t = applyEntries new a →
    (firstRefusal a new 0 a.cmd.staged es = none →
      ((h.sender.toNat ≠ 0x01 ∨ ∀ e ∈ new, e.1 ≠ 0x0D000005 ∧ e.1 / 0x1000000 ≠ 0x02) → Answers (.paramWrite dt h q) 0x0A02 dt h q s [] t) ∧
      (h.sender.toNat = 0x01 → (∃ e ∈ new, e.1 = 0x0D000005 ∨ e.1 / 0x1000000 = 0x02) → Answers (.paramWrite dt h q) 0x0A02 dt h q s [] (endDiscovery t))) ∧
    (∀ i st, firstRefusal a new 0 a.cmd.staged es = some (i, st) →
      DeclinesWith (.paramWrite dt h q) 0x0A02 dt h q s st (le 2 i) a)) ∧
  (∀ (dt due : Nat) (quiet : Bool) (h : Hdr) (q : Bytes) (s a t : State), a = advance dt s → q.length = 16 → leAt q 0 4 = b2n quiet → resZero q 4 4 = true → due = leAt q 8 8 →
    (quiet = false → due = 0) → (quiet = true → stamp a + 1000000 ≤ due) → recheck a a.cmd.staged = none → (quiet = true → poolUsed a .housekeeping < poolSize a .housekeeping) →
    (quiet = false → a.cmd.stagedItems ≠ [] → Declines (.epochPost dt h q) 0x0A03 dt h q s 0x04A1) ∧
    ((quiet = false → a.cmd.stagedItems = []) →
      (a.cmd.quiet.isSome = true → Declines (.epochPost dt h q) 0x0A03 dt h q s 0x04A3) ∧
      (a.cmd.quiet = none → ¬ (a.cmd.staged = [] ∧ a.cmd.stagedItems = [] ∧ a.text.stagedBinds = [] ∧ a.text.stagedStops = []) →
        t = postEpoch (if quiet then some due else none) a →
        Answers (.epochPost dt h q) 0x0A03 dt h q s (pack [(4, latestEpoch t), (4, 0), (8, stamp a)]) t) ∧
      (a.cmd.quiet = none → a.cmd.staged = [] → a.cmd.stagedItems = [] → a.text.stagedBinds = [] → a.text.stagedStops = [] →
        Declines (.epochPost dt h q) 0x0A03 dt h q s 0x04A4))) ∧
  (∀ (dt st : Nat) (h : Hdr) (q : Bytes) (s a : State), a = advance dt s → q = zeros 16 → recheck a a.cmd.staged = some st → Declines (.epochPost dt h q) 0x0A03 dt h q s st) ∧
  (∀ (n ch : Nat) (ps : Tab Nat) (hist : List EpochRec) (s u v w : State), n = latestEpoch s + 1 → ch = changedMask s →
    ps = s.cmd.staged.foldl (fun t e => Tab.set t e.1 e.2) s.cmd.posted → hist = (⟨n, ch, stamp s⟩ :: s.cmd.epochs).take 16 →
    u = { s with cmd := { s.cmd with posted := ps, staged := [], stagedItems := [], epochs := hist, quiet := none } } → v = postText u →
    w = (if postedBudgets v = v.pwr.budgets then v else { v with pwr := { v.pwr with budgetDue := some (stamp v) } }) →
    postEpoch none s = cmdEvent 1 0xFF 0 n ch 0 w) ∧
  (∀ (dt : Nat) (h : Hdr) (s a : State), a = advance dt s → Answers (.epochDiscard dt h []) 0x0A04 dt h [] s (le 4 a.cmd.staged.length)
    { a with cmd := { a.cmd with staged := [], stagedItems := [] }, text := { a.text with stagedBinds := [], stagedStops := [] } }) ∧
  (∀ (dt : Nat) (h : Hdr) (j : List Nat) (s a : State), a = advance dt s →
    j = (List.range 16).map (fun j => if (jobDecl a j).isSome then nth a.cmd.jobEpochs j 0 else 0) →
    Answers (.epochStatus dt h []) 0x0A05 dt h [] s (pack [(4, latestEpoch a), (4, a.cmd.staged.length), (1, (a.cmd.quiet.map Quiet.state).getD 0), (3, 0),
      (8, (a.cmd.quiet.map Quiet.due).getD 0)]
      ++ (List.range 16).flatMap (fun i => pack [(4, (nth a.cmd.epochs i ⟨0, 0, 0⟩).epoch), (4, (nth a.cmd.epochs i ⟨0, 0, 0⟩).changed), (8, (nth a.cmd.epochs i ⟨0, 0, 0⟩).stamp)])
      ++ a.cmd.streamEpochs.flatMap (le 4) ++ j.flatMap (le 4)) a) ∧
  (∀ (dt l r : Nat) (h : Hdr) (q : Bytes) (s a : State), a = advance dt s → l = byteAt q 0 → r = byteAt q 1 → q.length = 4 → resZero q 2 2 = true → l ≤ 15 → r ≤ 15 →
    (((jobDecl a l).map JobDecl.kind = some 3 ∧ ((jobDecl a r).map JobDecl.kind = some 1 ∨ (jobDecl a r).map JobDecl.kind = some 2)) →
      Answers (.adapterActivate dt h q) 0x0A06 dt h q s [] { a with cmd := { a.cmd with stagedItems := a.cmd.stagedItems ++ [.adapters l r] } }) ∧
    ((jobDecl a l).map JobDecl.kind ≠ some 3 → Declines (.adapterActivate dt h q) 0x0A06 dt h q s 0x0470)) ∧
  (∀ (dt b c : Nat) (h : Hdr) (q : Bytes) (s a : State) (o : Nat × Nat), a = advance dt s → b = byteAt q 1 → c = byteAt q 2 → q.length = 4 → byteAt q 3 = 0 →
    ((byteAt q 0 = 1 ∧ b ≤ 15 ∧ c = 0 ∧ o = pinOwner a b) ∨ (byteAt q 0 = 2 ∧ b < a.variant.rxPorts ∧ c ≤ 15 ∧ o = rxOwner a b c)
      ∨ (byteAt q 0 = 3 ∧ b < a.variant.txPorts ∧ c ≤ 15 ∧ o = txOwner a b c)
      ∨ (byteAt q 0 = 5 ∧ b ≤ 31 ∧ c = 0 ∧ o = if (chanAt a b).receiver = 0 then (0, 0) else (8, (chanAt a b).receiver))) →
    Answers (.resourceQuery dt h q) 0x0A07 dt h q s (pack [(1, o.1), (1, o.2), (2, 0)]) a) ∧
  (∀ (dt : Nat) (s a : State), a = advance dt s →
    (awake a = true → a.cmd.quiet = none → exec (.epochAdoption dt) s = .next (adoptBlocks a)) ∧
    (a.cmd.quiet.isSome = true → exec (.epochAdoption dt) s = .next a) ∧
    (∀ q w, a.cmd.quiet = some q → awake a = true → q.state = 2 → (∀ x ∈ a.prep.sheets, holdsWindow x = false) → stepInFlight a = false →
      w = adoptAll q.epoch (q.items.foldl (fun s i => applyItem i s) a) →
      exec (.quietApply dt) s = .next (cmdEvent 3 0xFF 0 q.epoch (((w.cmd.epochs.find? (fun e => e.epoch == q.epoch)).map EpochRec.changed).getD 0) q.refused
        { w with cmd := { w.cmd with quiet := none } })) ∧
    (∀ q, a.cmd.quiet = some q → quietReady a = false → exec (.quietApply dt) s = .next a))

/-- MBOX_WRITE of an allowed sender delivers its 64 bytes under an envelope with sender, losses, the next SEQ and the delivery stamp, and answers
SEQ; a host finds a full queue refused with 0x03A1, a sender outside the ACL is 0x05A0 and counted. MBOX_READ takes up to 32 messages from
host channels in ascending order, oldest first. MBOX_RING ORs a non-zero value into a doorbell under the ACL; MBOX_DB_READ returns and clears
the doorbells of host channels. MBOX_CONFIG sets a channel whose receiver does not change while it holds anything (0x04A5), within 2048
messages in all (0x03A2). MBOX_QUERY answers a channel. MBOX_FLUSH empties queue and doorbell. (13_commands_and_mailboxes.md R417;
13_commands_and_mailboxes.md R418; 13_commands_and_mailboxes.md R420; 13_commands_and_mailboxes.md R421; 13_commands_and_mailboxes.md R422;
13_commands_and_mailboxes.md R424; 13_commands_and_mailboxes.md R425; 13_commands_and_mailboxes.md R427) -/
def Obligations.MailboxCommands : Prop :=
  (∀ (dt c : Nat) (h : Hdr) (q : Bytes) (s a t : State), a = advance dt s → c = byteAt q 0 → q.length = 68 → resZero q 1 3 = true → c ≤ 31 →
    (allowed a c h.sender.toNat = true → (h.sender.toNat = 0x01 → (chanAt a c).queue.length < (chanAt a c).depth) → t = postQuiet c h.sender.toNat true (q.drop 4) a →
      Answers (.mboxWrite dt h q) 0x0A10 dt h q s (le 4 (chanAt t c).seq) t) ∧
    (allowed a c h.sender.toNat = true → h.sender.toNat = 0x01 → (chanAt a c).depth ≤ (chanAt a c).queue.length → Declines (.mboxWrite dt h q) 0x0A10 dt h q s 0x03A1) ∧
    (allowed a c h.sender.toNat = false → c ≠ par a 0x0A000012 →
      DeclinesWith (.mboxWrite dt h q) 0x0A10 dt h q s 0x05A0 [] (cmdEvent 4 c h.sender.toNat 0 0 0 (countDenied c a)))) ∧
  (∀ (c sender : Nat) (b : Bytes) (s t : State), c < s.cmd.chans.length → allowed s c sender = true → (∀ w ∈ s.cmd.waiting, w.chan ≠ c) → (chanAt s c).queue.length < (chanAt s c).depth →
    t = postQuiet c sender true b s →
    (chanAt t c).queue = (chanAt s c).queue ++ [⟨sender, sat 0xFFFF (chanAt s c).lost, (chanAt s c).seq + 1, stamp s, fit 64 b⟩] ∧ (chanAt t c).seq = (chanAt s c).seq + 1 ∧
    (chanAt t c).lost = 0 ∧ ∀ d, d ≠ c → chanAt t d = chanAt s d) ∧
  (∀ (dt n : Nat) (h : Hdr) (q : Bytes) (l : List Nat) (s a : State), a = advance dt s → l = bitsOf 32 (leAt q 0 4) → n = byteAt q 4 → q.length = 8 → resZero q 5 3 = true → 1 ≤ n → n ≤ 32 →
    ((∀ c ∈ l, hostChannel a c = true) → Answers (.mboxRead dt h q) 0x0A11 dt h q s (pack [(1, (takeAll l n a).2.1), (3, 0)] ++ (takeAll l n a).1) (takeAll l n a).2.2) ∧
    ((∃ c ∈ l, hostChannel a c = false) → Declines (.mboxRead dt h q) 0x0A11 dt h q s 0x05A0)) ∧
  (∀ (l : List Nat) (n : Nat) (s : State), (takeAll l n s).2.1 ≤ n) ∧
  (∀ (dt c v : Nat) (h : Hdr) (q : Bytes) (s a : State), a = advance dt s → c = byteAt q 0 → v = leAt q 4 4 → q.length = 8 → resZero q 1 3 = true → c ≤ 31 → v ≠ 0 →
    (allowed a c h.sender.toNat = true → Answers (.mboxRing dt h q) 0x0A12 dt h q s [] (ringAndWake c v a)) ∧
    (allowed a c h.sender.toNat = false → c = par a 0x0A000012 → DeclinesWith (.mboxRing dt h q) 0x0A12 dt h q s 0x05A0 [] (countDenied c a)) ∧
    (allowed a c h.sender.toNat = false → c ≠ par a 0x0A000012 →
      DeclinesWith (.mboxRing dt h q) 0x0A12 dt h q s 0x05A0 [] (cmdEvent 4 c h.sender.toNat 0 0 0 (countDenied c a)))) ∧
  (∀ (dt : Nat) (h : Hdr) (q : Bytes) (s : State), q.length = 8 → leAt q 4 4 = 0 → Declines (.mboxRing dt h q) 0x0A12 dt h q s 0x01A8) ∧
  (∀ (dt : Nat) (h : Hdr) (q : Bytes) (l : List Nat) (s a : State), a = advance dt s → l = bitsOf 32 (leAt q 0 4) → q.length = 4 →
    ((∀ c ∈ l, hostChannel a c = true) → Answers (.mboxDbRead dt h q) 0x0A13 dt h q s (l.flatMap (fun c => le 4 (chanAt a c).doorbell))
      (l.foldl (fun s c => rearmIbi 0x03 c (modChan c (fun ch => { ch with doorbell := 0 }) s)) a)) ∧
    ((∃ c ∈ l, hostChannel a c = false) → Declines (.mboxDbRead dt h q) 0x0A13 dt h q s 0x05A0)) ∧
  (∀ (dt c r d fl : Nat) (h : Hdr) (q : Bytes) (s a : State), a = advance dt s → c = byteAt q 0 → r = byteAt q 1 → d = byteAt q 2 → fl = byteAt q 3 → q.length = 12 → resZero q 10 2 = true →
    c ≤ 31 → 1 ≤ d → d ≤ 64 → fl ≤ 3 → aclOk (leAt q 4 4) = true → receiverOk a.variant r = true → (leAt q 8 2 ≤ 16383 ∨ leAt q 8 2 = 0xFFFF) →
    (h.sender.toNat = 0x01 → ((chanAt a c).receiver ≠ 0 ∧ (chanAt a c).receiver ≠ 0x01 ∨ r ≠ 0 ∧ r ≠ 0x01) → Declines (.mboxConfig dt h q) 0x0A14 dt h q s 0x05A0) ∧
    ((h.sender.toNat = 0x01 → ((chanAt a c).receiver = 0 ∨ (chanAt a c).receiver = 0x01) ∧ (r = 0 ∨ r = 0x01)) →
      (2048 < depthTotal a c d → Declines (.mboxConfig dt h q) 0x0A14 dt h q s 0x03A2) ∧
      (depthTotal a c d ≤ 2048 → r ≠ (chanAt a c).receiver → ((chanAt a c).queue ≠ [] ∨ (chanAt a c).doorbell ≠ 0) → Declines (.mboxConfig dt h q) 0x0A14 dt h q s 0x04A5) ∧
      (depthTotal a c d ≤ 2048 → (r = (chanAt a c).receiver ∨ ((chanAt a c).queue = [] ∧ (chanAt a c).doorbell = 0)) → Answers (.mboxConfig dt h q) 0x0A14 dt h q s []
        (roomMade c (modChan c (fun ch => { ch with receiver := r, depth := d, acl := leAt q 4 4, ibi := bit fl 0, wakeOnDb := bit fl 1, dbTally := leAt q 8 2 }) a))))) ∧
  (∀ (dt c : Nat) (h : Hdr) (q : Bytes) (x : Channel) (s a : State), a = advance dt s → c = byteAt q 0 → q.length = 4 → resZero q 1 3 = true → c ≤ 31 → x = chanAt a c →
    Answers (.mboxQuery dt h q) 0x0A15 dt h q s (pack [(1, c), (1, x.receiver), (1, x.depth), (1, b2n x.ibi + 2 * b2n x.wakeOnDb), (4, x.acl), (2, x.dbTally), (2, 0),
      (1, x.queue.length), (1, 0), (2, x.lost), (4, x.denied), (4, x.doorbell), (4, x.seq)]) a) ∧
  (∀ (dt c : Nat) (h : Hdr) (q : Bytes) (s a : State), a = advance dt s → c = byteAt q 0 → q.length = 4 → resZero q 1 3 = true → c ≤ 31 →
    (((0x10 ≤ h.sender.toNat ∧ h.sender.toNat ≤ 0x13) ∨ h.sender.toNat = 0x02 ∨ (chanAt a c).receiver = 0x01) → Answers (.mboxFlush dt h q) 0x0A16 dt h q s (le 1 (chanAt a c).queue.length)
      (roomMade c (rearmIbi 0x02 c (rearmIbi 0x03 c (modChan c (fun ch => { ch with queue := [], doorbell := 0 }) a))))) ∧
    (h.sender.toNat = 0x01 → (chanAt a c).receiver ≠ 0x01 → Declines (.mboxFlush dt h q) 0x0A16 dt h q s 0x05A0))

/-- While the clocked target runs: ENTDAA and SETDASA assign a dynamic address 0x08 to 0x7D where none is held, RSTDAA gives it up; ENEC and
DISEC set and clear ENINT; SETMWL and SETMRL set their lengths; ENTHDR0 enters HDR-DDR but during a freeze. With a dynamic address, GETDCR,
GETCAPS, GETPID, GETBCR, GETMWL, GETMRL, GETMXDS and GETSTATUS put their answer on the bus. On a free bus, with ENINT and an address, the
first waiting cause in the order 0x04, 0x01, 0x03, 0x02, 0x05 is requested; one that is NACKed waits for IBI_RETRY. In Sleep a write to the
static address starts a wake of cause I3C; any other changes nothing. (13_commands_and_mailboxes.md R389; 13_commands_and_mailboxes.md R390;
13_commands_and_mailboxes.md R391; 13_commands_and_mailboxes.md R401) -/
def Obligations.I3cTarget : Prop :=
  (∀ (dt x : Nat) (s a : State), a = advance dt s → hears a = true →
    (a.cmd.dynAddr = 0 → 0x08 ≤ x → x ≤ 0x7D → ∀ t, t = { a with cmd := { a.cmd with dynAddr := x, everAssigned := true } } →
      exec (.entdaa dt x) s = .next t ∧ exec (.setdasa dt x) s = .next t) ∧
    (a.cmd.dynAddr ≠ 0 → exec (.entdaa dt x) s = .next a ∧ exec (.setdasa dt x) s = .next a) ∧
    exec (.rstdaa dt) s = .next { a with cmd := { a.cmd with dynAddr := 0 } } ∧
    exec (.enec dt x) s = .next { a with cmd := { a.cmd with enint := a.cmd.enint || bit x 0 } } ∧
    exec (.disec dt x) s = .next { a with cmd := { a.cmd with enint := a.cmd.enint && !bit x 0 } } ∧
    exec (.setmwl dt x) s = .next { a with cmd := { a.cmd with mwl := sat 65535 x } } ∧
    exec (.setmrl dt x) s = .next { a with cmd := { a.cmd with mrl := sat 65535 x } } ∧
    (a.flt.frozen = false → exec (.enthdr0 dt) s = .next { a with cmd := { a.cmd with hdr := true } }) ∧
    (a.flt.frozen = true → exec (.enthdr0 dt) s = .next a)) ∧
  (∀ (dt x : Nat) (s a : State), a = advance dt s → hears a = false →
    ∀ i ∈ [Instr.entdaa dt x, Instr.setdasa dt x, Instr.rstdaa dt, Instr.enec dt x, Instr.disec dt x, Instr.setmwl dt x, Instr.setmrl dt x, Instr.getpid dt, Instr.getbcr dt,
      Instr.getdcr dt, Instr.getstatus dt, Instr.getmwl dt, Instr.getmrl dt, Instr.getmxds dt, Instr.getcaps dt], exec i s = .next a) ∧
  (∀ (dt : Nat) (s a : State), a = advance dt s → hears a = true → a.cmd.dynAddr ≠ 0 →
    (∀ p ∈ [(Instr.getpid dt, be 6 (0x03A6 * 2 ^ 33 + (0x9600 + a.variant.code) * 2 ^ 16 + identityLow % 2 ^ 16)), (Instr.getbcr dt, [0x2E]), (Instr.getdcr dt, [0x00]),
      (Instr.getmwl dt, be 2 a.cmd.mwl), (Instr.getmrl dt, be 2 a.cmd.mrl ++ [4]), (Instr.getmxds dt, Config.mxds), (Instr.getcaps dt, [0x01, BitVec.ofNat 8 Config.i3cVersion.toNat])],
      exec p.1 s = .next { a with cmd := { a.cmd with lastRead := p.2 } }) ∧
    exec (.getstatus dt) s = .next { (draw a).2 with cmd := { (draw a).2.cmd with lastRead := be 2 (Config.getStatus (draw a).1).toNat } }) ∧
  (∀ (dt : Nat) (nack : Bool) (i : Ibi) (s a b : State), a = advance dt s → b = { a with cmd := { a.cmd with hdr := false } } →
    hears a = true → a.cmd.enint = true → a.cmd.dynAddr ≠ 0 → a.flt.frozen = false →
    (firstIbi (fun i => i.nacked.isNone) b = some i →
      (nack = false → exec (.busFree dt nack) s = .next { b with cmd := { b.cmd with ibis := b.cmd.ibis.map (fun x => if x = i then { i with sent := true, nacked := none } else x), ibiCount := inc32 b.cmd.ibiCount 1, lastRead := ibiPayload i } }) ∧
      (nack = true → exec (.busFree dt nack) s = .next { b with cmd := { b.cmd with ibis := b.cmd.ibis.map (fun x => if x = i then { i with nacked := some (stamp b) } else x) } })) ∧
    (firstIbi (fun i => i.nacked.isNone) b = none → exec (.busFree dt nack) s = .next b) ∧
    (firstIbi (fun i => i.nacked.isSome) a = some i →
      (nack = false → exec (.ibiRetry dt nack) s = .next { a with cmd := { a.cmd with ibis := a.cmd.ibis.map (fun x => if x = i then { i with sent := true, nacked := none } else x), ibiCount := inc32 a.cmd.ibiCount 1, lastRead := ibiPayload i } }) ∧
      (nack = true → exec (.ibiRetry dt nack) s = .next { a with cmd := { a.cmd with ibis := a.cmd.ibis.map (fun x => if x = i then { i with nacked := some (stamp a) } else x) } }))) ∧
  (∀ (dt : Nat) (nack : Bool) (s a : State), a = advance dt s → (a.cmd.enint = false ∨ a.cmd.dynAddr = 0) → exec (.ibiRetry dt nack) s = .next a) ∧
  (∀ (dt x : Nat) (s a : State), a = advance dt s →
    (x = a.cmd.staticAddr → a.pwr.mode = .sleep → a.pwr.waking = none → exec (.sleepWakeWrite dt x) s = .next { a with pwr := { a.pwr with waking := some 0x01 } }) ∧
    ((x ≠ a.cmd.staticAddr ∨ a.pwr.mode ≠ .sleep) → exec (.sleepWakeWrite dt x) s = .next a))

/-- PWR_STATE Doze asks every stack that is not in Doze to doze. PWR_STATE Sleep is refused with 0x04B0 and the first reason that stands (open
streams, sequences, steps, staging, the ring, twin operation, contexts), or with 0x04E1 without the always-on clock; else the part answers
and enters Sleep: the time base stops at a cap, stacks are off, charges are gone, tallies keep what they keep, the comparator is set for the
earliest waiting slot. PWR_STATUS answers states, wake cause and the rails' ledgers; AGE_QUERY a cluster's age record. AGE_REPLAN asks for
one re-plan (0x04B1 while one is asked for). REPLAN runs when asked for or after 24 h of powered time, and writes the plan to flash.
(14_power_and_current.md R438; 14_power_and_current.md R439; 14_power_and_current.md R440; 14_power_and_current.md R457;
14_power_and_current.md R458; 14_power_and_current.md R460; 14_power_and_current.md R461; 02_timebase_and_forecast.md R51) -/
def Obligations.PowerCommands : Prop :=
  (∀ (dt : Nat) (h : Hdr) (q : Bytes) (p : Packet) (s a : State), a = advance dt s → p = packetOf 0x0B01 h q a → executes p a = true → q.length = 4 → resZero q 1 3 = true →
    (byteAt q 0 = 3 → exec (.pwrState dt h q) s = .next (finishSleep (answered p a [] (askDoze a)))) ∧
    (∀ r, byteAt q 0 = 4 → sleepReason a = some r → exec (.pwrState dt h q) s = .next (finishSleep (reply p 0x04B0 (latestEpoch a) (stamp a) [BitVec.ofNat 8 r] a))) ∧
    (byteAt q 0 = 4 → sleepReason a = none → a.clk.aonOk = false → exec (.pwrState dt h q) s = .next (finishSleep (refusedWith p a 0x04E1))) ∧
    (byteAt q 0 = 4 → sleepReason a = none → a.clk.aonOk = true →
      exec (.pwrState dt h q) s = .next (finishSleep (answered p a [] { a with pwr := { a.pwr with waking := none, mode := .sleep } })))) ∧
  (∀ s : State, (s.pwr.mode = .running → finishSleep s = s) ∧
    (s.pwr.mode = .sleep → s.clk.tbRun = true → finishSleep s = enterSleep { s with pwr := { s.pwr with mode := .running } })) ∧
  (∀ s : State, (enterSleep s).clk.tbRun = false ∧ (enterSleep s).clk.tbValid = false ∧ (enterSleep s).pwr.stackDies = List.replicate 4 .off ∧ (enterSleep s).pwr.charges = [] ∧
    (enterSleep s).pwr.shares = [] ∧ (enterSleep s).pwr.waking = none ∧ (∀ e ∈ (enterSleep s).tallies, e.2 ≠ Tally.zero ∧ e.2.waiters = [])) ∧
  (∀ s : State, (openStreams s ≠ [] → sleepReason s = some 1) ∧ (openStreams s = [] → (∃ e ∈ s.slab.seqs, e.2.state = 1) → sleepReason s = some 2) ∧
    (sleepReason s = none → openStreams s = [] ∧ (∀ e ∈ s.slab.seqs, e.2.state ≠ 1) ∧ stepInFlight s = false ∧ s.cmd.staged = [] ∧ s.cmd.quiet = none ∧ occupancy s = 0 ∧ s.ctxs = [])) ∧
  (∀ (dt : Nat) (h : Hdr) (s a : State), a = advance dt s →
    Answers (.pwrStatus dt h []) 0x0B02 dt h [] s (pack ([(1, deviceState a)] ++ (List.range 4).map (fun k => (1, stackCode a k)) ++ [(1, a.pwr.wakeCause), (2, 0)]
      ++ [1, 2, 3, 4].flatMap (fun r => [(2, budget a r), (2, admittedAll a r), (2, waitingOn a r), (2, 0)]) ++ [(8, a.pwr.poweredNs)])) a ∧
    (a.pwr.replanning = false → Answers (.ageReplan dt h []) 0x0B04 dt h [] s [] { a with pwr := { a.pwr with replanning := true } }) ∧
    (a.pwr.replanning = true → Declines (.ageReplan dt h []) 0x0B04 dt h [] s 0x04B1)) ∧
  (∀ (dt : Nat) (h : Hdr) (q : Bytes) (s a : State), a = advance dt s → q.length = 4 → resZero q 1 3 = true →
    (byteAt q 0 < a.variant.clusters → Answers (.ageQuery dt h q) 0x0B03 dt h q s (ageRecord a (byteAt q 0)) a) ∧
    (a.variant.clusters ≤ byteAt q 0 → Declines (.ageQuery dt h q) 0x0B03 dt h q s 0x01B0)) ∧
  (∀ (dt : Nat) (s a : State), a = advance dt s → awake a = true →
    (a.pwr.replanning = true ∨ 86400000000000 ≤ a.pwr.poweredNs → exec (.replan dt) s = .next (runReplan a)) ∧
    (a.pwr.replanning = false → a.pwr.poweredNs < 86400000000000 → exec (.replan dt) s = .next a)) ∧
  (∀ s : State, (runReplan s).pwr.poweredNs = 0 ∧ (runReplan s).flash.plan = some ((runReplan s).pwr.ages, 0, (runReplan s).pwr.poweredTotal)) ∧
  (∀ (guard st : Nat) (a : Age), (replanAge guard st a).stamp = st ∧ (replanAge guard st a).delta = a.counted.getD a.delta ∧ (replanAge guard st a).slack = List.replicate 7 0xFFFF ∧
    nth (replanAge guard st a).mhz 0 0 ≤ nth a.mhz 0 0)

/-- The comparator wakes the part at its count; a wake restores what an intact save list holds, with TB at its cap plus the ticks counted, and
else asks for a boot; ready, TB is valid again and MDB 0x05 waits. A stack that may doze begins its entry and ends it with its die off; a
woken die is ready once its shares have been granted. A cluster that is idle past its hold returns its charge; an idle one of 20 µs is
reverse-biased. A budget takes effect 10 µs after its epoch. Samples set set point, slack and threshold shift. Temperature moves the cap, and
120 °C twice freezes the part. A brown-out gates the dies and is a fault. A recovery ends with content reloaded. (02_timebase_and_forecast.md
R26; 02_timebase_and_forecast.md R51; 14_power_and_current.md R434; 14_power_and_current.md R435; 14_power_and_current.md R441;
14_power_and_current.md R444; 14_power_and_current.md R447; 14_power_and_current.md R450; 14_power_and_current.md R451;
14_power_and_current.md R454; 14_power_and_current.md R457; 15_faults_freeze_and_twin.md R473) -/
def Obligations.PowerEvents : Prop :=
  (∀ (dt n c : Nat) (s a : State), a = advance dt s → a.pwr.mode = .sleep →
    (a.clk.comparator = some c → a.pwr.waking = none → c ≤ n → exec (.wakeComparator dt n) s = .next { a with pwr := { a.pwr with waking := some 0x02 } }) ∧
    (a.clk.comparator = some c → n < c → exec (.wakeComparator dt n) s = .next a) ∧
    (∀ l, a.pwr.waking = some c → a.pwr.saved = some l → l.format = 1 → l.intact = true → exec (.wakeFromSleep dt n) s = .next (thaw c n a)) ∧
    (∀ l, a.pwr.waking = some c → a.pwr.saved = some l → l.intact = false → exec (.wakeFromSleep dt n) s = .next (askBoot (recordWake 4 0x0F 0x7F a))) ∧
    (a.pwr.waking = none → exec (.wakeFromSleep dt n) s = .next a)) ∧
  (∀ (c n : Nat) (s : State), (thaw c n s).clk.tb = s.clk.tbCap + (2 * n * s.clk.pAon + 2 ^ 24) / 2 ^ 25 ∧ (thaw c n s).clk.tbRun = true ∧ (thaw c n s).pwr.mode = .running ∧
    (thaw c n s).cmd.inForce = s.cmd.posted ∧ (thaw c n s).pwr.wakeCause = c) ∧
  (∀ (dt c : Nat) (s a u : State), a = advance dt s → a.pwr.mode = .running → a.pwr.waking = some c → u = { a with clk := { a.clk with tbValid := true }, pwr := { a.pwr with waking := none } } →
    ∃ v, Told u v ∧ exec (.deviceReady dt) s = .next (funcPins (raiseIbi 0x05 0 0 v))) ∧
  (∀ (f : State → State) (s : State), Told (f s) (withMode f s) ∧ (deviceState (f s) = deviceState s → withMode f s = f s)) ∧
  (∀ (dt k : Nat) (s a : State), a = advance dt s → awake a = true →
    (stackAt a k = .awake → mayDoze a k = true → exec (.dozeEntry dt k) s = .next (setStack k (.entering a.clk.tb) a)) ∧
    (stackAt a k = .awake → mayDoze a k = false → exec (.dozeEntry dt k) s = .next a) ∧
    (∀ t, stackAt a k = .entering t → exec (.dozeEntry dt k) s = .next (withMode retryWaiting (withMode (dozeStack k) a))) ∧
    (1 ≤ k → k ≤ a.variant.stackDies → k < 0x11 → stackAt a (k - 1) = .waking → (∀ x ∈ a.pwr.shares, x.holder ≠ .dieWake (k - 1)) →
      exec (.domainReady dt k) s = .next (runHeld (withMode retryWaiting (withMode (dieReady (k - 1)) a)))) ∧
    (k < a.variant.stackDies → exec (.domainReady dt (0x11 + k)) s = .next (runHeld { a with pwr := { a.pwr with sramWaking := setNth a.pwr.sramWaking k false } }))) ∧
  (∀ (dt k : Nat) (s a : State), a = advance dt s → awake a = true →
    (clusterHeld a k = true → clusterBusy a k = false → nth a.pwr.lastDone k 0 + par a 0x0B000005 ≤ a.clk.tb →
      exec (.clusterHoldExpiry dt k) s = .next (withMode retryWaiting (withMode (returnCluster k) a))) ∧
    (clusterBusy a k = true → exec (.clusterHoldExpiry dt k) s = .next a) ∧
    (k < a.variant.clusters → clusterHeld a k = false → stackAt a (stackOf k) = .awake → nth a.pwr.lastHeld k 0 + 20000 ≤ a.clk.tb →
      exec (.reverseBias dt k) s = .next { a with pwr := { a.pwr with reverseBias := setNth a.pwr.reverseBias k true } }) ∧
    (clusterHeld a k = true → exec (.reverseBias dt k) s = .next a)) ∧
  (∀ (dt t : Nat) (s a u : State), a = advance dt s → awake a = true → a.pwr.budgetDue = some t → u = { a with pwr := { a.pwr with budgets := postedBudgets a, budgetDue := none } } →
    (t + 10000 ≤ a.clk.tb → exec (.budgetChange dt) s = .next (withMode retryWaiting (returnIdle (fun s _ => overBudget s) true descending u))) ∧
    (a.clk.tb < t + 10000 → exec (.budgetChange dt) s = .next a)) ∧
  (∀ (dt k x : Nat) (l : List Nat) (d : List Int) (f : Age → Age) (s a : State), a = advance dt s → awake a = true →
    exec (.coreSenseSample dt x) s = .next { a with pwr := { a.pwr with setPoint := Nat.max 750 (10 * ceilDiv x 10000) } } ∧
    (∀ pt, nth a.pwr.points k none = some pt → f = (fun b => { b with slack := modNth b.slack pt (fun y => Nat.min y (sat 0xFFFE x)) }) →
      exec (.pathMonitorSample dt k x) s = .next { a with pwr := { a.pwr with ages := modNth a.pwr.ages k f } }) ∧
    (nth a.pwr.points k none = some 0 → l.length = 8 → d = sortBy (fun d : Int => (d + 2 ^ 40).toNat) ((List.range 8).map (fun i => Config.oscDelta k i (nth l i 0))) →
      exec (.ringOscillatorCount dt k l) s = .next { a with pwr := { a.pwr with ages := modNth a.pwr.ages k (fun b => { b with counted := some ((nth d 3 0 + nth d 4 0) / 2) }) } })) ∧
  (∀ (dt : Nat) (l : List Int) (s a u : State), a = advance dt s → awake a = true →
    u = { a with pwr := { a.pwr with temps := l, tjMax := hottest ((sensorList a).map (fun i => nth l i 0)) } } →
    (∀ i, (sensorList a).find? (fun i => decide (120 ≤ nth l i 0) && decide (120 ≤ nth a.pwr.temps i 0)) = some i →
      exec (.thermalSample dt l) s = .next (freezeNow true (logFault 0x07E0 5 2 i 0 0 0 u))) ∧
    (∀ t c, (sensorList a).find? (fun i => decide (120 ≤ nth l i 0) && decide (120 ≤ nth a.pwr.temps i 0)) = none →
      t = hottest ((List.range u.variant.clusters).map (fun i => nth l i 0)) → c = newCap u t → t < par u 0x0B00000A + 10 → c.1 = a.pwr.thermalCap →
      exec (.thermalSample dt l) s = .next { u with pwr := { u.pwr with thermalCap := c.1, capTemp := c.2 } })) ∧
  (∀ (s : State) (t : Int), (t < (par s 0x0B00000A : Nat) → s.pwr.thermalCap = 0 → (newCap s t).1 = 0) ∧ (s.pwr.thermalCap < capFor s t → newCap s t = (capFor s t, t)) ∧ capFor s t ≤ 6) ∧
  (∀ (dt rail : Nat) (s a u : State) (g : State → State), a = advance dt s → awake a = true → 1 ≤ rail → rail ≤ 4 →
    g = (fun s => (List.range s.variant.stackDies).foldl (fun s k => if stackAt s k = .doze then s else dozeStack k s) s) →
    u = withMode (fun s => g { s with pwr := { s.pwr with points := List.replicate 16 none, shares := [], returns := [], charges := s.pwr.charges.filter (fun c => match c.holder with | .cluster _ => false | .dieWake _ => false | _ => true) } }) a →
    exec (.brownOut dt rail) s = .next (raiseFault 0x07B0 7 rail 0 u)) ∧
  (∀ (dt : Nat) (r : Recovery) (s a u : State) (us : FaultEntry → Nat), a = advance dt s → awake a = true → a.flt.recovery = some r → r.action ≠ 4 →
    u = (if r.action = 3 then reloadCommons (reloadResident (List.range 128) a) else reloadResident r.reload a) → us = (fun e => sat 0xFFFF ((u.clk.tb - e.stamp) / 1000)) →
    exec (.recoveryResume dt) s = .next (funcPins { u with flt := { u.flt with recovery := none, log := u.flt.log.map (fun e => if e.resumeUs = 0 ∧ e.action ≠ 5 then { e with resumeUs := us e } else e) } }))

/-- An uncorrected fault that FREEZE_ON does not name discards the work in flight, logs an entry, leaves a recovery of the graver action, and
stops every core; one that it names freezes the part. SRAM and DDR4 scrubs count corrected errors and raise faults for uncorrected ones in
held places, and clear idle ones. A watchdog late by 50 ms, a link or a lost clock are faults. FROST_N freezes. The always-on clock's losses
and returns are counted and told; a calibration sets P_AON; a replica follows. FAULT_LOG answers the log; FAULT_INJECT raises a listed fault;
FRZ_READ reads a frozen part, and is 0x04C2 on another. (15_faults_freeze_and_twin.md R467; 15_faults_freeze_and_twin.md R469;
15_faults_freeze_and_twin.md R470; 15_faults_freeze_and_twin.md R473; 15_faults_freeze_and_twin.md R475; 15_faults_freeze_and_twin.md R476;
15_faults_freeze_and_twin.md R477; 15_faults_freeze_and_twin.md R478; 15_faults_freeze_and_twin.md R483; 15_faults_freeze_and_twin.md R498;
17_pins_clocks_electrical.md R537; 02_timebase_and_forecast.md R28) -/
def Obligations.FaultsAndClocks : Prop :=
  (∀ (st un w fl : Nat) (s t : State), t = raiseFault st un w fl s → bit (par s 0x0C000001) (freezeGroup st) = false →
    (∃ r, t.flt.recovery = some ⟨stamp s, Nat.max ((s.flt.recovery.map Recovery.action).getD 0) (faultAction st un w), r⟩) ∧
    (∃ n k, t.flt.log = (⟨s.flt.seq + 1, st, faultAction st un w, un, stamp s, w, n, k, fl, 0⟩ :: s.flt.log).take 16) ∧ t.flt.lastStatus = st ∧
    t.cores = s.cores.map stopCore ∧ t.ctxs = [] ∧ t.slab.seqs = [] ∧ (∀ h ∈ t.prep.sheets, discarded (stamp s) h = false ∨ h.dead = some st) ∧
    t.boot.due = (s.boot.due || Nat.max ((s.flt.recovery.map Recovery.action).getD 0) (faultAction st un w) == 4) ∧ t.flt.frozen = s.flt.frozen) ∧
  (∀ (st un w fl : Nat) (s : State), bit (par s 0x0C000001) (freezeGroup st) = true → raiseFault st un w fl s = freezeNow true (logFault st 5 un w 0 0 fl s)) ∧
  (∀ (self : Bool) (s : State), (freezeNow self s).flt.frozen = true ∧ (freezeNow self s).clk.tbRun = false ∧ (freezeNow self s).flt.recovery = none ∧ awake (freezeNow self s) = false) ∧
  (∀ (dt b : Nat) (g : SramGranule) (s a : State), a = advance dt s → awake a = true →
    exec (.sramScrub dt g 1) s = .next { a with flt := { a.flt with sramCe := inc32 a.flt.sramCe 1, sramCeRc := sat 0xFF (a.flt.sramCeRc + 1) } } ∧
    (2 ≤ b → exec (.sramScrub dt g b) s = .next (raiseFault 0x07C0 g.unit g.place 0 a)) ∧ exec (.sramScrub dt g 0) s = .next a) ∧
  (∀ (dt x : Nat) (s a u : State), a = advance dt s → awake a = true → u = (if x = 0 then { a with flt := { a.flt with regions := [] } } else a) →
    exec (.patrolScrub dt x 0) s = .next u ∧ exec (.patrolScrub dt x 1) s = .next (ddrCorrected x u) ∧
    (heldAddr u x = true → exec (.patrolScrub dt x 2) s = .next (raiseFault 0x07C1 4 x 0 u)) ∧
    (heldAddr u x = false → ∃ t, exec (.patrolScrub dt x 2) s = .next t ∧ Told { u with ddr := Memory.writeN u.ddr (x / 64 * 64) (zeros 64), flt := { u.flt with ddrUeIdle := inc32 u.flt.ddrUeIdle 1, ddrUeRc := sat 0xFF (u.flt.ddrUeRc + 1) } } t)) ∧
  (∀ (dt x : Nat) (s a : State), a = advance dt s → awake a = true →
    exec (.linkUncorrected dt x) s = .next (raiseFault 0x07C3 6 x 0 a) ∧ exec (.clockLost dt) s = .next (raiseFault 0x07C4 8 0 0 { a with clk := { a.clk with refOk := false } }) ∧
    exec (.freeze dt) s = .next (freezeNow false a) ∧
    (x < 4 → exec (.controlWatchdog dt x true) s = .next { a with flt := { a.flt with watchdog := setNth a.flt.watchdog x a.clk.tb } } ∧
      (nth a.flt.watchdog x 0 + 50000000 < a.clk.tb → exec (.controlWatchdog dt x false) s = .next (raiseFault 0x07C2 5 x 0 a)) ∧
      (a.clk.tb ≤ nth a.flt.watchdog x 0 + 50000000 → exec (.controlWatchdog dt x false) s = .next a)) ∧
    (200 ≤ x → x < 2000 → exec (.refInterruption dt x) s = .next { a with clk := { a.clk with refLossesRc := sat 0xFF (a.clk.refLossesRc + 1) } }) ∧
    (a.pwr.mode = .running → a.clk.aonOk = true → exec (.aonClockLost dt) s = .next (pinEvent 2 0 0 { a with clk := { a.clk with aonOk := false, calOpen := false, aonLossesRc := sat 0xFF (a.clk.aonLossesRc + 1), aonLosses := inc32 a.clk.aonLosses 1, lastLoss := stamp a } })) ∧
    (a.clk.aonOk = false → exec (.aonClockRestored dt) s = .next (pinEvent 3 0 0 { a with clk := { a.clk with aonOk := true, calOpen := true } })) ∧
    (a.clk.aonOk = true → a.clk.calOpen = true → exec (.aonCalibration dt x) s = .next { a with clk := { a.clk with pAon := 16 * x, ticks := (a.clk.ticks + 2 ^ 20) % 2 ^ 48 } }) ∧
    (x < a.variant.stackDies → stackAt a x = .awake → exec (.tbSync dt x) s = .next { a with clk := { a.clk with replicaOk := setNth a.clk.replicaOk x true } })) ∧
  (∀ (dt : Nat) (s a : State), a = advance dt s → a.pwr.mode = .sleep → exec (.aonClockLost dt) s = .next (askBoot (recordWake 4 0x0F 0x7F { a with clk := { a.clk with aonOk := false } }))) ∧
  (∀ (dt : Nat) (h : Hdr) (s a : State), a = advance dt s →
    Answers (.faultLog dt h []) 0x0C01 dt h [] s (pack [(1, (faultList a).length), (3, 0)] ++ (faultList a).flatten) (rearmIbi 0x04 0 a)) ∧
  (∀ (dt : Nat) (h : Hdr) (q : Bytes) (s a : State), a = advance dt s → q.length = 12 → resZero q 2 2 = true →
    (∀ u, injectUnit (leAt q 0 2) = some u → Answers (.faultInject dt h q) 0x0C02 dt h q s [] (raiseFault (leAt q 0 2) u (leAt q 4 8) 2 a)) ∧
    (injectUnit (leAt q 0 2) = none → Declines (.faultInject dt h q) 0x0C02 dt h q s 0x01C0)) ∧
  (∀ (dt x n : Nat) (h : Hdr) (q : Bytes) (r : Bytes × Bool) (s a t : State), a = advance dt s → x = leAt q 0 8 → n = leAt q 8 4 → q.length = 12 → 8 ≤ n → n ≤ 65472 → n % 8 = 0 → x % 8 = 0 →
    (a.flt.frozen = false → Declines (.frzRead dt h q) 0x0C06 dt h q s 0x04C2) ∧
    (a.flt.frozen = true → (h.sender.toNat = 0x01 → hears a = true ∧ mustWait (packetOf 0x0C06 h q a) a = false) → r = freezeWords a x (n / 8) →
      t = (if r.2 then { a with jtag := { a.jtag with badAddr := true } } else a) →
      exec (.frzRead dt h q) s = .next (reply (packetOf 0x0C06 h q a) 0 (latestEpoch t) a.flt.frostTb (r.1 ++ le 4 0) t)))

/-- TWIN_STATUS answers the pair's state; TWIN_TAKEOVER makes a standby take over at once, TWIN_HANDOVER makes a synced primary refuse new sides;
both are 0x04C4 elsewhere. A pulse of 5 µs times the state's code rises every HB_PERIOD; a received width within 1.5 µs of a listed one is a
pulse, any other none; with twin disabled and HB_WAKE an edge wakes from Sleep. A part that listened takes the standby's role where it heard
a primary. A ready standby that lost heartbeat and link, or was handed the part, takes over; a primary whose last side and records are
acknowledged becomes a syncing standby; one that waits beyond TWIN_ACK_WAIT is solo. A part sends channel 29 as MBOX, else LINK; a standby
answers a bad item with NAK. (15_faults_freeze_and_twin.md R486; 15_faults_freeze_and_twin.md R487; 15_faults_freeze_and_twin.md R488;
15_faults_freeze_and_twin.md R489; 15_faults_freeze_and_twin.md R491; 15_faults_freeze_and_twin.md R495; 15_faults_freeze_and_twin.md R496;
15_faults_freeze_and_twin.md R497; 15_faults_freeze_and_twin.md R498) -/
def Obligations.TwinCommandsAndEvents : Prop :=
  (∀ (dt : Nat) (h : Hdr) (s a : State), a = advance dt s →
    Answers (.twinStatus dt h []) 0x0C03 dt h [] s (pack [(1, a.twin.state), (1, a.twin.partner), (2, 0), (4, a.twin.mseq), (4, a.twin.acked), (4, a.twin.received),
      (8, a.twin.lastPulse), (8, a.twin.lastItem), (4, retainedKib a), (2, a.twin.partnerId), (2, 0)]) a ∧
    (isStandby a = true → Answers (.twinTakeover dt h []) 0x0C04 dt h [] s [] (takeOver a)) ∧
    (isStandby a = false → Declines (.twinTakeover dt h []) 0x0C04 dt h [] s 0x04C4) ∧
    (a.twin.state = 1 → Answers (.twinHandover dt h []) 0x0C05 dt h [] s [] { a with twin := { a.twin with handover := true } }) ∧
    (a.twin.state ≠ 1 → Declines (.twinHandover dt h []) 0x0C05 dt h [] s 0x04C4)) ∧
  (∀ (dt : Nat) (s a : State), a = advance dt s → twinOn a = true →
    ((a.twin.lastBeat = 0 ∨ a.twin.lastBeat + par a 0x0C000015 ≤ a.clk.tb) → exec (.heartbeat dt) s
      = .next { a with twin := { a.twin with lastBeat := a.clk.tb }, pins := { a.pins with hbOut := true, hbEnds := some (a.clk.tb + 5000 * a.twin.state) } }) ∧
    (a.twin.lastBeat ≠ 0 → a.clk.tb < a.twin.lastBeat + par a 0x0C000015 → exec (.heartbeat dt) s = .next a)) ∧
  (∀ w k : Nat, pulseCodeOf w = some k → 1 ≤ k ∧ k ≤ 4 ∧ 5000 * k ≤ w + 1500 ∧ w ≤ 5000 * k + 1500) ∧
  (∀ (dt w : Nat) (s a : State), a = advance dt s →
    (∀ k, a.pwr.mode = .running → twinOn a = true → pulseCodeOf w = some k → exec (.heartbeatReceived dt w) s = .next (pulseIn k a)) ∧
    (a.pwr.mode = .running → pulseCodeOf w = none → exec (.heartbeatReceived dt w) s = .next a) ∧
    (a.pwr.mode = .sleep → a.pwr.waking = none → par a 0x0C000010 = 0 → par a 0x0C000019 = 1 →
      exec (.heartbeatReceived dt w) s = .next { a with pwr := { a.pwr with waking := some 0x07 } })) ∧
  (∀ (dt t r : Nat) (s a u v : State), a = advance dt s → a.twin.listening = some t → awake a = true →
    r = (if a.twin.pulseCode = 1 ∨ a.twin.pulseCode = 2 ∨ par a 0x0C000011 = 1 then 4 else 2) →
    u = startLink (setRole r { a with twin := { a.twin with listening := none, lastBeat := 0 } }) → v = postJudge .linkJudge (stamp u) (postJudge .hbJudge (stamp u) u) →
    (t ≤ a.clk.tb → v.boot.awaitRole = none → exec (.roleSettle dt) s = .next v) ∧
    (∀ m b, t ≤ a.clk.tb → v.boot.awaitRole = some (m, b) → exec (.roleSettle dt) s = .next (if r = 2 then finishProfile m b { v with boot := { v.boot with awaitRole := none } } else { v with boot := { v.boot with awaitRole := none } })) ∧
    (a.clk.tb < t → exec (.roleSettle dt) s = .next a)) ∧
  (∀ (dt : Nat) (s a : State), a = advance dt s → awake a = true → a.twin.state = 3 →
    (((par a 0x0C00001A = 1 ∧ a.twin.hbLost = true ∧ a.twin.linkLost = true ∧ a.twin.pulseCode ≠ 2) ∨ a.twin.handover = true) → exec (.takeover dt) s = .next (takeOver a)) ∧
    (a.twin.handover = false → (a.twin.hbLost = false ∨ a.twin.linkLost = false ∨ par a 0x0C00001A ≠ 1) → exec (.takeover dt) s = .next a)) ∧
  (∀ (dt : Nat) (s a u v : State), a = advance dt s → awake a = true → isPrimary a = true → a.twin.handover = true →
    u = { a with twin := { a.twin with handover := false, snapDone := false, snapshot := false, snapEnd := 0, lastBeat := 0 } } → v = setRole 4 u →
    (handedAll a = true → exec (.handoverComplete dt) s = .next (startLink ((openStreams v).foldl (fun s k => closeStream k 0 s) v))) ∧
    (handedAll a = false → exec (.handoverComplete dt) s = .next a)) ∧
  (∀ (dt : Nat) (r : OutRecord) (s a : State), a = advance dt s → awake a = true → a.twin.state = 1 → r ∈ a.out.records → r.kind ≠ 0 → r.launched = false →
    a.twin.acked < r.mirrored → r.commit + par a 0x0C000017 < a.clk.tb →
    exec (.ackWaitExpiry dt) s = .next (settleTwin { a with twin := { a.twin with linkLost := true } })) ∧
  (∀ (dt n : Nat) (s a : State), a = advance dt s → twinOn a = true →
    (∀ x xs, (chanAt a 29).queue = x :: xs → exec (.linkItemSend dt) s = .next (roomMade 29 (mirror 8 (envelope 29 x) (modChan 29 (fun c => { c with queue := xs }) a)))) ∧
    ((chanAt a 29).queue = [] → a.twin.lastSend + par a 0x0C000015 / 2 ≤ a.clk.tb → exec (.linkItemSend dt) s = .next (mirror 2 [] a)) ∧
    (isStandby a = true → n < 2 → exec (.mirrorItemDiscarded dt n) s = .next (sendNak a)) ∧
    (isStandby a = true → a.twin.nakFrom = none → exec (.mirrorItemDiscarded dt n) s = .next (sendNak a)) ∧
    (isStandby a = false → exec (.mirrorItemDiscarded dt n) s = .next a))

/-- An item in MSEQ order is taken: HELLO, LINK, MBOX (on channel 8 from sender 0x02) and NAK at either part, COMMAND, SIDE, RECORD, SENT, BLOB
and the two ends of a snapshot at a standby, where a primary changes nothing; then role and partner settle. An item beyond a gap is discarded
and a standby asks for a resend once. A SIDE joins the mirrored sides; a RECORD is kept retained and untransmitted, in place of one of its
number; SENT lets go of what has been transmitted; a primary asked for an MSEQ that it holds resends from there, and else runs a snapshot.
Every item is a sign of the link and acknowledges. (15_faults_freeze_and_twin.md R486; 15_faults_freeze_and_twin.md R487;
15_faults_freeze_and_twin.md R490) -/
def Obligations.TwinItems : Prop :=
  (∀ (dt : Nat) (m : ItemHdr) (q : Bytes) (s a b u : State), a = advance dt s → twinOn a = true → b = itemHeard m a → u = { b with twin := { b.twin with received := m.mseq, nakFrom := none } } →
    (m.mseq = b.twin.received + 1 →
      (∀ p ∈ [(Instr.hello dt m q, helloIn m q u), (.linkItem dt m q, u), (.mboxItem dt m q, post 8 0x02 true ((q.drop 16).take 64) u), (.nak dt m q, nakIn (leAt q 0 4) u)],
        exec p.1 s = .next (settleTwin p.2)) ∧
      (isStandby b = true → ∀ p ∈ [(Instr.commandItem dt m q, commandIn q u), (.sideItem dt m q, sideIn q u), (.recordItem dt m q, recordIn q u), (.sent dt m q, sentIn (leAt q 0 4) u),
        (.blob dt m q, blobIn q u), (.snapshotBegin dt m q, snapshotIn q u), (.snapshotEnd dt m q, { u with twin := { u.twin with snapshot := false, snapDone := true } })],
        exec p.1 s = .next (settleTwin p.2)) ∧
      (isStandby b = false → ∀ i ∈ [Instr.commandItem dt m q, .sideItem dt m q, .recordItem dt m q, .sent dt m q, .blob dt m q, .snapshotBegin dt m q, .snapshotEnd dt m q],
        exec i s = .next (settleTwin u))) ∧
    (isStandby b = true → isPrimary b = false → b.twin.received + 1 < m.mseq →
      ∀ i ∈ [Instr.linkItem dt m q, .commandItem dt m q, .sideItem dt m q, .recordItem dt m q, .sent dt m q, .blob dt m q, .mboxItem dt m q, .nak dt m q, .snapshotEnd dt m q],
      exec i s = .next (settleTwin (if b.twin.nakFrom = none then sendNak b else b)))) ∧
  (∀ (m : ItemHdr) (s : State), ∃ k u, k = (if m.acked ≤ s.twin.mseq then Nat.max s.twin.acked m.acked else s.twin.acked) ∧
    u = { s with twin := { s.twin with lastItem := stamp s, linkLost := false, acked := k, sentItems := s.twin.sentItems.filter (fun i => decide (k < i.mseq)) } } ∧
    itemHeard m s = postJudge .linkJudge (stamp s) u) ∧
  (∀ (q : Bytes) (s : State), (sideIn q s).twin.sides = s.twin.sides ++ [⟨leAt q 0 4, leAt q 4 4, leAt q 8 4, leAt q 16 8, false, false⟩] ∧
    (sideIn q s).twin.topSheet = Nat.max s.twin.topSheet (leAt q 0 4)) ∧
  (∀ (q : Bytes) (s : State), (recordIn q s).twin.retained = s.twin.retained.filter (fun r => r.recordNo != leAt q 52 4) ++ [⟨leAt q 52 4, leAt q 40 1, q⟩] ∧
    (recordIn q s).out.ring = s.out.ring.filter (fun e => e.kind != .record (leAt q 52 4)) ++ [⟨.record (leAt q 52 4), q.length, false, true⟩] ∧
    (recordIn q s).out.records = s.out.records) ∧
  (∀ (n : Nat) (s : State), (sentIn n s).twin.lastSent = n ∧ (sentIn n s).twin.retained = s.twin.retained.filter (fun r => earlier n r.recordNo)) ∧
  (∀ (n : Nat) (s : State), isPrimary s = true →
    ((∃ i ∈ s.twin.sentItems, i.mseq = n) → nakIn n s = (s.twin.sentItems.filter (fun i => decide (n ≤ i.mseq))).foldl (fun s i => sendItem i s) s) ∧
    ((∀ i ∈ s.twin.sentItems, i.mseq ≠ n) → nakIn n s = sendSnapshot s))

/-- SEC_IDENTITY answers the certificate; SEC_ATTEST of a 32-byte nonce a report of 512 bytes and its signature. IMAGE_WRITE programs the
inactive slot of its kind (0x03D0 beyond it, 0x04D3 where its image is staged), at offset 0 marking it written. IMAGE_COMMIT marks a
container that verifies committed and answers its digest; one that does not leaves its status. IMAGE_ACTIVATE of a committed slot sets the
preferred firmware, or stages the image (0x04D0 else). PROFILE_STORE keeps a well-formed record. SEC_REBOOT asks for a boot while no stream
is open. SVN_COMMIT raises a counter to the running version. KEY_UPDATE enrols an owner key or revokes a slot. Verification goes in the order
of R508. (16_boot_security_defaults.md R505; 16_boot_security_defaults.md R507; 16_boot_security_defaults.md R508;
16_boot_security_defaults.md R512; 16_boot_security_defaults.md R516; 16_boot_security_defaults.md R518; 16_boot_security_defaults.md R520;
16_boot_security_defaults.md R521; 16_boot_security_defaults.md R522) -/
def Obligations.SecurityCommands : Prop :=
  (∀ (dt : Nat) (h : Hdr) (q : Bytes) (s a : State), a = advance dt s →
    Answers (.secIdentity dt h []) 0x0D01 dt h [] s (fit 7347 a.flash.identity) a ∧
    (q.length = 32 → Answers (.secAttest dt h q) 0x0D02 dt h q s (attestHead q a ++ fit 4627 (Config.mldsaSign (sha3 (attestHead q a)) a.freeCtr)) { a with freeCtr := a.freeCtr + 1 }) ∧
    (q.length ≠ 32 → Declines (.secAttest dt h q) 0x0D02 dt h q s 0x01D0)) ∧
  (∀ (q : Bytes) (s : State), (attestHead q s).length = 512) ∧
  (∀ (dt k i off : Nat) (h : Hdr) (q b : Bytes) (s a u : State), a = advance dt s → 12 ≤ q.length → (k = 1 ∨ k = 2) → byteAt q 0 = k → resZero q 1 3 = true → i = inactiveSlot a k →
    off = leAt q 4 8 → b = q.drop 12 → u = { a with flash := { a.flash with slots := modNth a.flash.slots i (fun m => Memory.writeN m off b) } } →
    (nth a.flash.sizes i 0 < off + b.length → Declines (.imageWrite dt h q) 0x0D03 dt h q s 0x03D0) ∧
    (off + b.length ≤ nth a.flash.sizes i 0 → k = 2 → imageStaged a = true → Declines (.imageWrite dt h q) 0x0D03 dt h q s 0x04D3) ∧
    (off + b.length ≤ nth a.flash.sizes i 0 → (k = 1 ∨ imageStaged a = false) →
      (off ≠ 0 → Answers (.imageWrite dt h q) 0x0D03 dt h q s [] u) ∧
      (off = 0 → a.boot.stagedImage ≠ some i → Answers (.imageWrite dt h q) 0x0D03 dt h q s [] (writeDir (fun d => { d with marks := setNth d.marks i .written }) u)))) ∧
  (∀ (dt k i : Nat) (h : Hdr) (q : Bytes) (s a u : State), a = advance dt s → (k = 1 ∨ k = 2) → q = pack [(1, k), (3, 0)] → i = inactiveSlot a k →
    u = writeDir (fun d => { d with marks := setNth d.marks i .committed }) a →
    (slotRefusal imageRefusal k i a = none → Answers (.imageCommit dt h q) 0x0D04 dt h q s (containerDigest (slotContainer u i))
      (secEvent 2 0 (if k = 2 then { u with boot := { u.boot with stagedImage := some i } } else u))) ∧
    (∀ st, slotRefusal imageRefusal k i a = some st → DeclinesWith (.imageCommit dt h q) 0x0D04 dt h q s st [] (failVerify st a)) ∧
    (slotMark a i ≠ .committed → Declines (.imageActivate dt h q) 0x0D05 dt h q s 0x04D0) ∧
    (slotMark a i = .committed → k = 1 → Answers (.imageActivate dt h q) 0x0D05 dt h q s [] (writeDir (fun d => { d with preferredFw := i }) a)) ∧
    (slotMark a i = .committed → k = 2 → a.cmd.stagedItems.contains .image = false → Answers (.imageActivate dt h q) 0x0D05 dt h q s []
      { a with cmd := { a.cmd with stagedItems := a.cmd.stagedItems ++ [.image] } }) ∧
    (k = 1 → Answers (.svnCommit dt h q) 0x0D08 dt h q s (le 1 (Nat.max a.fuses.fwSvn a.boot.fwSvn)) { a with fuses := { a.fuses with fwSvn := Nat.max a.fuses.fwSvn a.boot.fwSvn } }) ∧
    (k = 2 → Answers (.svnCommit dt h q) 0x0D08 dt h q s (le 1 (Nat.max a.fuses.imageSvn a.boot.imageSvn)) { a with fuses := { a.fuses with imageSvn := Nat.max a.fuses.imageSvn a.boot.imageSvn } })) ∧
  (∀ (dt : Nat) (h : Hdr) (q : Bytes) (s a : State), a = advance dt s →
    (profileRange q = true → profileFormat q = true → Answers (.profileStore dt h q) 0x0D06 dt h q s [] { a with flash := { a.flash with profile := q } }) ∧
    (profileRange q = true → profileFormat q = false → Declines (.profileStore dt h q) 0x0D06 dt h q s 0x06D1) ∧
    (openStreams a = [] → Answers (.secReboot dt h []) 0x0D07 dt h [] s [] (askBoot a)) ∧
    (openStreams a ≠ [] → Declines (.secReboot dt h []) 0x0D07 dt h [] s 0x04D2)) ∧
  (∀ (dt k : Nat) (h : Hdr) (q : Bytes) (s a : State), a = advance dt s → (k = 4 ∨ k = 5) → byteAt q 2 = k → 8192 ≤ q.length → q.length = 8192 + leAt q 8 8 →
    (containerRefusal a k q = none → Answers (.keyUpdate dt h q) 0x0D09 dt h q s [] (if k = 5 then revoke q a else enrol q a)) ∧
    (∀ st, containerRefusal a k q = some st → DeclinesWith (.keyUpdate dt h q) 0x0D09 dt h q s st [] (failVerify st a))) ∧
  (∀ (k : Nat) (b : Bytes) (s : State),
    (containerFormatOk s k b = false → containerRefusal s k b = some 0x06D0) ∧
    (containerFormatOk s k b = true → keyTrusted s k b = false → containerRefusal s k b = some 0x05D1) ∧
    (containerFormatOk s k b = true → keyTrusted s k b = true → signatureGood b = false → containerRefusal s k b = some 0x05D0) ∧
    (containerFormatOk s k b = true → keyTrusted s k b = true → signatureGood b = true → svnOk s k b = false → containerRefusal s k b = some 0x05D2) ∧
    (containerRefusal s k b = none → containerFormatOk s k b = true ∧ keyTrusted s k b = true ∧ signatureGood b = true ∧ svnOk s k b = true ∧ sha3 (containerBody b) = (b.drop 16).take 64))

/-- BOOT of a device whose PLL has locked: without a valid directory copy the boot ROM stays in control; otherwise the boot number grows by one
and is written, and firmware runs, or recovery begins where neither slot verifies. Any other BOOT changes only the time. The preferred
firmware is taken where it verifies, else the other one with FW_FALLBACK; the active image where it is committed and verifies, else the other
with IMAGE_FALLBACK and the directory rewritten. Recovery is stage 7. Without an image the ready stamp leaves stage 8, and AUTO_OPEN as the
profile says unless the host has taken the intake. (16_boot_security_defaults.md R509; 16_boot_security_defaults.md R510;
16_boot_security_defaults.md R511; 16_boot_security_defaults.md R512) -/
def Obligations.BootSequence : Prop :=
  (∀ (dt : Nat) (s a : State), a = advance dt s →
    (awake a = true → a.clk.tbLock = true → a.boot.due = true → a.boot.stage = 0 →
      (directory a = none → exec (.boot dt) s = .next (recoveryMode a)) ∧
      (∀ d u, directory a = some d → u = writeDir (fun d => { d with bootNumber := (d.bootNumber + 1) % 2 ^ 32 }) a →
        (∀ t, chooseFirmware u = some t → exec (.boot dt) s = .next (firmwareBoot t)) ∧
        (chooseFirmware u = none → exec (.boot dt) s = .next (recoveryMode (noteFailure (slotRefusal imageRefusal 1 (1 - (dirNow u).preferredFw) u) u))))) ∧
    ((awake a = false ∨ a.clk.tbLock = false ∨ a.boot.due = false ∨ a.boot.stage ≠ 0) → exec (.boot dt) s = .next a)) ∧
  (∀ (s u : State) (p st : Nat), p = (dirNow s).preferredFw → u = { s with boot := { s.boot with lastStatus := st } } →
    (slotRefusal imageRefusal 1 p s = none → chooseFirmware s = some (runSlot p false s)) ∧
    (slotRefusal imageRefusal 1 p s = some st → slotRefusal imageRefusal 1 (1 - p) u = none → chooseFirmware s = some (runSlot (1 - p) true u)) ∧
    (slotRefusal imageRefusal 1 p s = some st → slotRefusal imageRefusal 1 (1 - p) u ≠ none → chooseFirmware s = none)) ∧
  (∀ (i : Nat) (f : Bool) (s : State), (runSlot i f s).boot.stage = 2 ∧ (runSlot i f s).boot.fwSlot = i ∧ (runSlot i f s).boot.fwFallback = f ∧
    (runSlot i f s).boot.fwSvn = byteAt (slotContainer s i) 4 ∧ (runSlot i f s).boot.fwDigest = containerDigest (slotContainer s i)) ∧
  (∀ (s u : State) (i o st : Nat), i = 2 + (dirNow s).activeImage → o = inactiveSlot s 2 → u = { s with boot := { s.boot with lastStatus := st } } →
    (slotMark s i = .committed → slotRefusal imageRefusal 2 i s = none → chooseImage s = (some i, s)) ∧
    (slotMark s i ≠ .committed → slotMark s o = .committed → slotRefusal imageRefusal 2 o s = none →
      chooseImage s = (some o, writeDir (fun d => { d with activeImage := o - 2 }) { s with boot := { s.boot with imageFallback := true } })) ∧
    (slotMark s i = .committed → slotRefusal imageRefusal 2 i s = some st → st ≠ 0 → slotMark u o = .committed → slotRefusal imageRefusal 2 o u = none →
      chooseImage s = (some o, writeDir (fun d => { d with activeImage := o - 2 }) { u with boot := { u.boot with imageFallback := true } })) ∧
    (slotMark s i ≠ .committed → slotMark s o ≠ .committed → chooseImage s = (none, s))) ∧
  (∀ s : State, s.cmd.packets = [] → recoveryMode s = { s with boot := { s.boot with stage := 7, due := false } }) ∧
  (∀ (m : Nat) (auto : Bool) (s t : State), s.image = none → s.twin.listening = none → s.cmd.packets = [] → t = getReady m auto s →
    t.boot.stage = 8 ∧ t.boot.ready = true ∧ t.boot.due = false ∧ t.boot.readyTb = stamp s ∧ Tab.find t.cmd.inForce 0x0D000005 = some (b2n (auto && !s.boot.hostTookIntake)))

/-- PIN_STATUS and CLOCK_STATUS answer the levels, functions and clock states (0x01E0 with parameters). An edge at a HOST_IN pin is counted and
reported as PIN event 1; an edge of a WAKE_IN pin to its active level wakes the device from Sleep, or the dozing dies; one to the inactive
level is only recorded. A debug register answers its value; outside a freeze its RC fields clear with the read, and TIME_TB_LO latches
TIME_TB_HI. In Sleep only PWR_WAKE_CAUSE answers (another read is a free value, the model's choice). A write changes only selectors; in a
freeze another address sets BAD_ADDR. (00_scope.md R9; 15_faults_freeze_and_twin.md R480; 15_faults_freeze_and_twin.md R481;
15_faults_freeze_and_twin.md R501; 17_pins_clocks_electrical.md R540; 17_pins_clocks_electrical.md R542; 17_pins_clocks_electrical.md R557) -/
def Obligations.PinsAndRegisters : Prop :=
  (∀ (dt : Nat) (h : Hdr) (q : Bytes) (s a : State), a = advance dt s →
    Answers (.pinStatus dt h []) 0x0E01 dt h [] s (pack [(2, levelMask ((List.range 16).map (ballLevel a))), (2, levelMask a.pins.driven)] ++ (List.range 16).flatMap (fun i =>
      pack [(1, pinFunc a i), (1, (pinOwner a i).1), (1, (pinOwner a i).2), (1, 0)])) a ∧
    Answers (.clockStatus dt h []) 0x0E02 dt h [] s (pack [(1, b2n a.clk.refOk + 2 * b2n a.clk.aonOk + 4 * b2n a.clk.tbLock), (1, twos 8 a.pwr.tjMax), (2, 0),
      (4, a.clk.aonLosses), (8, a.clk.lastLoss)]) a ∧
    (q ≠ [] → Declines (.pinStatus dt h q) 0x0E01 dt h q s 0x01E0 ∧ Declines (.clockStatus dt h q) 0x0E02 dt h q s 0x01E0)) ∧
  (∀ (dt p : Nat) (lv : Bool) (s a u v : State), a = advance dt s → u = { a with pins := { a.pins with levels := setNth a.pins.levels p lv, edges := setNth a.pins.edges p (inc32 (nth a.pins.edges p 0) 1) } } →
    v = { a with pins := { a.pins with levels := setNth a.pins.levels p lv } } →
    (awake a = true → p < 16 → pinFunc a p = 2 → exec (.hostInEdge dt p lv) s = .next (pinEvent 1 p (b2n lv) u)) ∧
    ((awake a = false ∨ 16 ≤ p ∨ pinFunc a p ≠ 2) → exec (.hostInEdge dt p lv) s = .next a) ∧
    (p < 16 → pinFunc a p = 3 → awake a = true → lv = pinLow a p → exec (.wakeInEdge dt p lv) s = .next u) ∧
    (p < 16 → pinFunc a p = 3 → awake a = true → a.pwr.mode ≠ .sleep → lv ≠ pinLow a p → exec (.wakeInEdge dt p lv) s = .next (wakeDies 0x06 u)) ∧
    (p < 16 → pinFunc a p = 3 → a.clk.tbRun = false → a.flt.frozen = false → a.pwr.mode = .sleep → lv ≠ pinLow a p → exec (.wakeInEdge dt p lv) s = .next (wakeCauseIn 0x06 v)) ∧
    (p < 16 → pinFunc a p = 3 → a.clk.tbRun = false → a.flt.frozen = false → (a.pwr.mode ≠ .sleep ∨ lv = pinLow a p) → exec (.wakeInEdge dt p lv) s = .next v) ∧
    ((16 ≤ p ∨ pinFunc a p ≠ 3 ∨ a.flt.frozen = true) → exec (.wakeInEdge dt p lv) s = .next a)) ∧
  (∀ (dt : Nat) (s a : State), a = advance dt s →
    exec (.timeTbLo dt) s = .next (regRead 0x0100 a) ∧ exec (.timeFcStatus dt) s = .next (regRead 0x0102 a) ∧
    (∀ p, p < 6 → exec (.intkPortErr dt p) s = .next (regRead (0x0200 + p) a)) ∧ (∀ p, 6 ≤ p → exec (.intkPortErr dt p) s = .next a) ∧
    exec (.coreNumEvt dt) s = .next (regRead 0x0402 a) ∧ exec (.textGmu dt) s = .next (regRead 0x0801 a) ∧
    (∀ p, p < 2 → exec (.outPortStat dt p) s = .next (regRead (0x0900 + p) a)) ∧ (∀ p, 2 ≤ p → exec (.outPortStat dt p) s = .next a) ∧
    exec (.cmdChan dt) s = .next (regRead 0x0A02 a) ∧ exec (.cmdIf dt) s = .next (regRead 0x0A03 a) ∧
    exec (.pwrWakeCause dt) s = .next (regRead 0x0B00 a) ∧ exec (.fltEcc dt) s = .next (regRead 0x0C03 a) ∧ exec (.pinClkStat dt) s = .next (regRead 0x0E01 a) ∧
    (∀ (r : Nat) (v : Word),
      (a.pwr.mode = .sleep → exec (.debugRegisterWrite dt r v) s = .next a) ∧
      (a.pwr.mode ≠ .sleep → a.flt.frozen = true → isSelector r = false → exec (.debugRegisterWrite dt r v) s = .next { a with jtag := { a.jtag with badAddr := true } }) ∧
      (a.pwr.mode ≠ .sleep → (a.flt.frozen = false ∨ isSelector r = true) → exec (.debugRegisterWrite dt r v) s = .next (regWrite r v.toNat a)))) ∧
  (∀ (r : Nat) (s : State),
    ((s.pwr.mode ≠ .sleep ∨ r = 0x0B00) → (s.flt.frozen = true → regRead r s = { s with jtag := { s.jtag with dataOut := regValue s r } }) ∧
      (s.flt.frozen = false → regRead r s = { regClear r s with jtag := { (regClear r s).jtag with dataOut := regValue s r } })) ∧
    (s.pwr.mode = .sleep → r ≠ 0x0B00 → regRead r s = { s with freeCtr := s.freeCtr + 1, jtag := { s.jtag with dataOut := Config.freeNat s.freeCtr % 2 ^ 32 } })) ∧
  (∀ s : State, (∀ p, p < 6 → regClear (0x0200 + p) s = { s with intk := { s.intk with ports := modNth s.intk.ports p (fun _ => ⟨0, 0, 0, 0⟩) } }) ∧
    regClear 0x0100 s = { s with clk := { s.clk with tbHi := s.clk.tb / 2 ^ 32 % 2 ^ 32 } } ∧ regClear 0x0102 s = { s with fc := { s.fc with lateRc := 0 } } ∧
    regClear 0x0402 s = modCore s.coreSel (fun k => { k with clipped := 0, nanOut := 0, accSat := 0 }) s ∧
    regClear 0x0801 s = { s with text := { s.text with masks := modNth s.text.masks s.text.gsel (fun u => { u with masksRc := 0 }) } } ∧
    regClear 0x0900 s = modTx 0 (fun t => { t with packetsRc := 0 }) s ∧ regClear 0x0901 s = modTx 1 (fun t => { t with packetsRc := 0 }) s ∧
    regClear 0x0A02 s = modChan s.cmd.chsel (fun c => { c with lostRc := 0, deniedRc := 0 }) s ∧ regClear 0x0A03 s = { s with cmd := { s.cmd with badPacketsRc := 0 } } ∧
    regClear 0x0B00 s = { s with pwr := { s.pwr with wakesRc := 0 } } ∧ regClear 0x0C03 s = { s with flt := { s.flt with sramCeRc := 0, ddrCeRc := 0, ddrUeRc := 0, faultsRc := 0 } } ∧
    regClear 0x0E01 s = { s with clk := { s.clk with aonLossesRc := 0, refLossesRc := 0 } } ∧
    regValue s 0x0100 = s.clk.tb % 2 ^ 32 ∧ regValue s 0x0101 = s.clk.tbHi ∧
    regValue s 0x0102 = b2n (s.fc.slots.any (fun e => e.2.state == 3)) * 2 ^ 31 + b2n s.clk.tbValid * 2 ^ 30 + s.fc.slots.length * 2 ^ 16 + sat 0xFFFF s.fc.lateRc ∧
    regValue s 0x0C03 = sat 0xFF s.flt.sramCeRc * 2 ^ 24 + sat 0xFF s.flt.ddrCeRc * 2 ^ 16 + sat 0xFF s.flt.ddrUeRc * 2 ^ 8 + sat 0xFF s.flt.faultsRc ∧
    regValue s 0x0E01 = b2n s.clk.refOk * 2 ^ 31 + b2n s.clk.aonOk * 2 ^ 30 + b2n s.clk.tbLock * 2 ^ 29 + twos 8 s.pwr.tjMax * 2 ^ 16 + sat 0xFF s.clk.aonLossesRc * 2 ^ 8 + sat 0xFF s.clk.refLossesRc ∧
    regValue s 0x0B00 = s.pwr.wakeFrom * 2 ^ 28 + s.pwr.wakeCause * 2 ^ 16 + s.pwr.wakeDomain * 2 ^ 8 + sat 0xFF s.pwr.wakesRc) ∧
  (∀ (v : Nat) (s : State), regWrite 0x0400 v s = { s with coreSel := v % 128 } ∧ regWrite 0x0600 v s = { s with slab := { s.slab with wsel := v % 16 } } ∧
    regWrite 0x0700 v s = { s with serv := { s.serv with jsel := v % 16 } } ∧ regWrite 0x0800 v s = { s with text := { s.text with gsel := v % 16 } } ∧
    regWrite 0x0A01 v s = { s with cmd := { s.cmd with chsel := v % 32 } } ∧ regWrite 0x0B01 v s = { s with pwr := { s.pwr with ledgerSel := v % 8 } } ∧
    (∀ r, isSelector r = false → regWrite r v s = s))

/-- In a freeze FRZ_ADDR sets the read-out address and FRZ_DATA captures the 8 bytes there and adds 8 to it; a bad address reads 0 and sets
BAD_ADDR; outside a freeze neither touches the address. FRZ_STAT captures FROZEN, BAD_ADDR and UNCORRECTED, and clears the last. FRZ_RESET of
a frozen part starts a new boot. DBG_ADDR sets the register address; DBG_DATA captures the register, and writes it where bit 32 is 1. BYPASS
passes one bit, IDCODE answers the identification, and the boundary-scan instructions capture the balls and load the cells (which balls
EXTEST drives is the model's choice). (15_faults_freeze_and_twin.md R480; 15_faults_freeze_and_twin.md R481; 17_pins_clocks_electrical.md
R548) -/
def Obligations.JtagInstructions : Prop :=
  (∀ (dt : Nat) (x : DWord) (s a u : State), a = advance dt s → u = { a with jtag := { a.jtag with instr := .frzData } } →
    (a.flt.frozen = true → exec (.frzAddr dt x) s = .next { a with jtag := { a.jtag with instr := .frzAddr, frzAddr := x } }) ∧
    (a.flt.frozen = false → exec (.frzAddr dt x) s = .next { a with jtag := { a.jtag with instr := .frzAddr } } ∧ exec (.frzData dt) s = .next u) ∧
    (∀ b, a.flt.frozen = true → freezeRead u u.jtag.frzAddr.toNat = some b →
      exec (.frzData dt) s = .next { u with jtag := { u.jtag with dataOut := leNat b, frzAddr := u.jtag.frzAddr + 8 } }) ∧
    (a.flt.frozen = true → freezeRead u u.jtag.frzAddr.toNat = none →
      exec (.frzData dt) s = .next { u with jtag := { u.jtag with dataOut := 0, badAddr := true, frzAddr := u.jtag.frzAddr + 8 } })) ∧
  (∀ (dt : Nat) (s a u : State), a = advance dt s → u = { a with jtag := { a.jtag with instr := .frzReset } } →
    exec (.frzStat dt) s = .next { a with jtag := { a.jtag with instr := .frzStat, dataOut := b2n a.flt.frozen * 2 ^ 31 + b2n a.jtag.badAddr * 2 ^ 30 + b2n a.jtag.uncorrected * 2 ^ 29, uncorrected := false } } ∧
    (a.flt.frozen = true → exec (.frzReset dt) s = .next (askBoot u)) ∧ (a.flt.frozen = false → exec (.frzReset dt) s = .next u) ∧
    (askBoot u).boot.due = true ∧ (askBoot u).boot.stage = 0 ∧ (askBoot u).clk.tbRun = false ∧ (askBoot u).clk.tbLock = false ∧ (askBoot u).ddr = a.ddr) ∧
  (∀ (dt n : Nat) (v : Word) (s a u w : State), a = advance dt s → u = { a with jtag := { a.jtag with instr := .dbgData } } → w = regRead u.jtag.dbgAddr u →
    exec (.dbgAddr dt n) s = .next { a with jtag := { a.jtag with instr := .dbgAddr, dbgAddr := n % 2 ^ 16 } } ∧
    exec (.dbgData dt false v) s = .next w ∧ exec (.dbgData dt true v) s = .next (regStore u.jtag.dbgAddr v.toNat w)) ∧
  (∀ (dt : Nat) (b : Bool) (c : BitVec 16) (s a : State), a = advance dt s →
    exec (.bypass dt b) s = .next { a with jtag := { a.jtag with instr := .bypass, dataOut := b2n b } } ∧
    exec (.idcode dt) s = .next { a with jtag := { a.jtag with instr := .idcode, dataOut := partId s.variant / 2 ^ 12 % 16 * 2 ^ 28 + (0x9600 + s.variant.code) * 2 ^ 12 + Config.jep106.toNat * 2 + 1 } } ∧
    (∀ (i : Instr) (j : JtagInstr), (i, j) ∈ [(Instr.samplePreload dt c, JtagInstr.samplePreload), (Instr.extest dt c, JtagInstr.extest), (Instr.extestPulse dt c, JtagInstr.extestPulse), (Instr.extestTrain dt c, JtagInstr.extestTrain)] →
      exec i s = .next { a with jtag := { a.jtag with instr := j, dataOut := levelMask ((List.range 16).map (ballLevel a)), cells := c } })) ∧
  (∀ s : State,
    (∀ c off, c < s.variant.cores → off < s.variant.scratchBytes → off % 8 = 0 → freezeRead s (0x02 * 2 ^ 56 + c * 2 ^ 24 + off) = some (Memory.readN (coreAt s c).scratch off 8)) ∧
    (∀ k off, k < s.variant.clusters → off < 2 ^ 22 → off % 8 = 0 → freezeRead s (0x05 * 2 ^ 56 + k * 2 ^ 24 + off) = some (Memory.readN (clusterAt s k).commons off 8)) ∧
    (∀ off, off < 2 ^ 40 → off % 8 = 0 → freezeRead s (0x0A * 2 ^ 56 + off) = some (Memory.readN s.ddr off 8)) ∧
    (∀ n, (n / 2 ^ 56 = 0 ∨ 0x0C ≤ n / 2 ^ 56) → freezeRead s n = none))

/-- PARAM_READ of parameter 0x0A00_0001 answers, with either VIEW, the 32-bit value that the debug register CMD_PART_ID holds; a PARAM_WRITE of
it is refused with 0x01A5 and its index and changes nothing; a write of the register changes nothing; two variants never answer the same
value, which names the variant for the whole life of the model. (00_scope.md R3) -/
def Obligations.PartIdentity : Prop :=
  (∀ (dt v : Nat) (h : Hdr) (s a : State), a = advance dt s → v ≤ 1 →
    Answers (.paramRead dt h (pack [(4, 0x0A000001), (1, v), (3, 0)])) 0x0A01 dt h (pack [(4, 0x0A000001), (1, v), (3, 0)]) s
      (pack [(4, 0x0A000001), (1, 4), (1, 0), (2, 0), (8, regValue a 0x0A00)]) a) ∧
  (∀ (dt v : Nat) (h : Hdr) (s a : State), a = advance dt s → v < 2 ^ 64 →
    DeclinesWith (.paramWrite dt h (pack [(2, 1), (2, 0), (4, 0x0A000001), (4, 0), (8, v)])) 0x0A02 dt h (pack [(2, 1), (2, 0), (4, 0x0A000001), (4, 0), (8, v)]) s 0x01A5 (le 2 0) a) ∧
  (∀ (v : Nat) (s : State), regWrite 0x0A00 v s = s) ∧
  (∀ s t : State, regValue s 0x0A00 = regValue t 0x0A00 ↔ s.variant = t.variant) ∧
  (∀ s : State, regValue s 0x0A00 < 2 ^ 32)

end
end

