-- ==== Sys2Proof/Laws/Answers.lean ====
section
/-! SUPPORT. How a packet that executes at once is answered, whatever its opcode. -/
namespace Sys2Proof.Machine

/-- The checks that come before an opcode's own all pass. -/
theorem refusedFirst_none {p : Packet} {s : State} (h : executes p s = true) : refusedFirst p s = none := by
  unfold executes at h
  simp only [Bool.and_eq_true, Bool.or_eq_true, Bool.not_eq_true', beq_iff_eq, bne_iff_ne, ne_eq] at h
  obtain ⟨⟨⟨⟨⟨hf, hz⟩, ho⟩, hb⟩, he⟩, hs⟩ := h
  unfold refusedFirst
  simp only [hz, ho, hb]
  rcases he with he | he <;> simp [he]

theorem standbyCheck_self {p : Packet} {s : State} (h : executes p s = true) (r : Reply) : standbyCheck p s r = r := by
  unfold executes at h
  simp only [Bool.and_eq_true, Bool.or_eq_true, Bool.not_eq_true', bne_iff_ne, ne_eq] at h
  have hs := h.2
  unfold standbyCheck
  split
  · rename_i hc
    rcases hs with hs | hs
    · exact absurd hc.1 hs
    · simp [hc.2.1, hc.2.2] at hs
  · rfl

/-- A body's answer is what the packet leaves. -/
theorem runPacket_ok {body : Body} {p : Packet} {s : State} {data : Bytes} {t : State} (h : executes p s = true) (hb : body p s = .ok data t) :
    runPacket body p s = answered p s data t := by
  have hr := refusedFirst_none h
  have hf : p.framing = none := by
    unfold executes at h
    simp only [Bool.and_eq_true] at h
    exact Option.isNone_iff_eq_none.mp h.1.1.1.1.1
  have hz : s.flt.frozen = false := by
    unfold executes at h
    simp only [Bool.and_eq_true, Bool.not_eq_true'] at h
    exact h.1.1.1.1.2
  unfold runPacket
  simp only [hf, hr, standbyCheck_self h, hb, hz]
  rfl

theorem runPacket_refuse {body : Body} {p : Packet} {s : State} {st : Nat} (h : executes p s = true) (hb : body p s = .refuse st []) :
    runPacket body p s = refusedWith p s st := by
  have hr := refusedFirst_none h
  have hf : p.framing = none := by
    unfold executes at h
    simp only [Bool.and_eq_true] at h
    exact Option.isNone_iff_eq_none.mp h.1.1.1.1.1
  have hz : s.flt.frozen = false := by
    unfold executes at h
    simp only [Bool.and_eq_true, Bool.not_eq_true'] at h
    exact h.1.1.1.1.2
  unfold runPacket
  simp only [hf, hr, standbyCheck_self h, hb, hz]
  rfl

theorem receive_now {body : Body} {p : Packet} {s : State} (h : executes p s = true) : receive body p s = runPacket body p s := by
  unfold executes at h
  simp only [Bool.and_eq_true, Bool.or_eq_true, Bool.not_eq_true', bne_iff_ne, ne_eq] at h
  unfold receive
  by_cases hs : p.sender = 0x01
  · have := h.2.resolve_left (fun k => k hs)
    simp [hs, this.1.1, this.1.2]
  · simp [hs]

/-- A packet whose turn has come runs. -/
theorem receive_turn {body : Body} {p : Packet} {s : State} (h : p.sender = 0x01 → hears s = true ∧ mustWait p s = false) :
    receive body p s = runPacket body p s := by
  unfold receive
  by_cases hs : p.sender = 0x01
  · simp [hs, (h hs).1, (h hs).2]
  · simp [hs]

/-- The row of an opcode whose body answers. -/
theorem hostRow_answers {op : Nat} {body : Body} {dt : Nat} {h : Hdr} {ps : Bytes} {s : State} {data : Bytes} {t : State}
    (he : executes (packetOf op h ps (advance dt s)) (advance dt s) = true)
    (hb : body (packetOf op h ps (advance dt s)) (advance dt s) = .ok data t) :
    hostRow op body dt h ps s = .next (answered (packetOf op h ps (advance dt s)) (advance dt s) data t) := by
  unfold hostRow
  simp only [receive_now he, runPacket_ok he hb]

theorem hostRow_declines {op : Nat} {body : Body} {dt : Nat} {h : Hdr} {ps : Bytes} {s : State} {st : Nat}
    (he : executes (packetOf op h ps (advance dt s)) (advance dt s) = true)
    (hb : body (packetOf op h ps (advance dt s)) (advance dt s) = .refuse st []) :
    hostRow op body dt h ps s = .next (refusedWith (packetOf op h ps (advance dt s)) (advance dt s) st) := by
  unfold hostRow
  simp only [receive_now he, runPacket_refuse he hb]

theorem hostRow_declinesWith {op : Nat} {body : Body} {dt : Nat} {h : Hdr} {ps : Bytes} {s : State} {st : Nat} {data : Bytes} {t : State}
    (he : executes (packetOf op h ps (advance dt s)) (advance dt s) = true)
    (hb : body (packetOf op h ps (advance dt s)) (advance dt s) = .refuseWith st data t) :
    hostRow op body dt h ps s =
      .next (reply (packetOf op h ps (advance dt s)) st (latestEpoch (advance dt s)) (stamp (advance dt s)) data t) := by
  have hr := refusedFirst_none he
  have hf : (packetOf op h ps (advance dt s)).framing = none := rfl
  have hz : (advance dt s).flt.frozen = false := by
    unfold executes at he
    simp only [Bool.and_eq_true, Bool.not_eq_true'] at he
    exact he.1.1.1.1.2
  unfold hostRow
  simp only [receive_now he]
  unfold runPacket
  simp only [hf, hr, standbyCheck_self he, hb, hz]
  rfl

theorem hostRow_declinesData {op : Nat} {body : Body} {dt : Nat} {h : Hdr} {ps : Bytes} {s : State} {st : Nat} {data : Bytes}
    (he : executes (packetOf op h ps (advance dt s)) (advance dt s) = true)
    (hb : body (packetOf op h ps (advance dt s)) (advance dt s) = .refuse st data) :
    hostRow op body dt h ps s =
      .next (reply (packetOf op h ps (advance dt s)) st (latestEpoch (advance dt s)) (stamp (advance dt s)) data (advance dt s)) := by
  have hr := refusedFirst_none he
  have hf : (packetOf op h ps (advance dt s)).framing = none := rfl
  have hz : (advance dt s).flt.frozen = false := by
    unfold executes at he
    simp only [Bool.and_eq_true, Bool.not_eq_true'] at he
    exact he.1.1.1.1.2
  unfold hostRow
  simp only [receive_now he]
  unfold runPacket
  simp only [hf, hr, standbyCheck_self he, hb, hz]
  rfl

/-- A body's answer, stated for any packet with the parameters and the sender of the command. -/
theorem answers_of {i : Instr} {op : Nat} {body : Body} {dt : Nat} {h : Hdr} {ps : Bytes} {s : State} {data : Bytes} {t : State}
    (hi : exec i s = hostRow op body dt h ps s)
    (hb : ∀ p : Packet, p.params = ps → p.sender = h.sender.toNat → p.rx = stamp (advance dt s) → body p (advance dt s) = .ok data t) :
    Answers i op dt h ps s data t :=
  fun he => hi.trans (hostRow_answers he (hb _ rfl rfl rfl))

theorem declines_of {i : Instr} {op : Nat} {body : Body} {dt : Nat} {h : Hdr} {ps : Bytes} {s : State} {st : Nat}
    (hi : exec i s = hostRow op body dt h ps s)
    (hb : ∀ p : Packet, p.params = ps → p.sender = h.sender.toNat → p.rx = stamp (advance dt s) → body p (advance dt s) = .refuse st []) :
    Declines i op dt h ps s st :=
  fun he => hi.trans (hostRow_declines he (hb _ rfl rfl rfl))

theorem declinesWith_of {i : Instr} {op : Nat} {body : Body} {dt : Nat} {h : Hdr} {ps : Bytes} {s : State} {st : Nat} {data : Bytes} {t : State}
    (hi : exec i s = hostRow op body dt h ps s)
    (hb : ∀ p : Packet, p.params = ps → p.sender = h.sender.toNat → p.rx = stamp (advance dt s) → body p (advance dt s) = .refuseWith st data t) :
    DeclinesWith i op dt h ps s st data t :=
  fun he => hi.trans (hostRow_declinesWith he (hb _ rfl rfl rfl))

/-- A refusal with reply data that leaves nothing behind. -/
theorem declinesData_of {i : Instr} {op : Nat} {body : Body} {dt : Nat} {h : Hdr} {ps : Bytes} {s : State} {st : Nat} {data : Bytes}
    (hi : exec i s = hostRow op body dt h ps s)
    (hb : ∀ p : Packet, p.params = ps → p.sender = h.sender.toNat → p.rx = stamp (advance dt s) → body p (advance dt s) = .refuse st data) :
    DeclinesWith i op dt h ps s st data (advance dt s) :=
  fun he => hi.trans (hostRow_declinesData he (hb _ rfl rfl rfl))

/-- A slot that is due launches. -/
theorem launchable_due {a : State} {cls n : Nat} {sl : Slot} (h : Due a cls n sl) : launchable a cls n = some sl := by
  unfold launchable
  simp [h.slot, h.valid, h.counts, h.dispatched, h.kind, h.come]

theorem launch_due {a : State} {cls n : Nat} {sl : Slot} (h : Due a cls n sl) (f : Slot → State → State) :
    launch cls n f a = finishLaunch n sl false false 0 (f sl a) := by
  unfold launch
  rw [launchable_due h]

end Sys2Proof.Machine
end

