-- ==== Sys2Proof/Laws/Bytes.lean ====
section
/-! SUPPORT. Little-endian fields: what is packed reads back. -/
namespace Sys2Proof.Machine

@[simp] theorem le_length (n v : Nat) : (le n v).length = n := by
  induction n generalizing v with
  | zero => rfl
  | succ n ih => simp [le, ih]

theorem leNat_le (n v : Nat) (h : v < 256 ^ n) : leNat (le n v) = v := by
  induction n generalizing v with
  | zero => simp at h; simp [le, leNat, h]
  | succ n ih =>
    have : v / 256 < 256 ^ n := by
      rw [Nat.div_lt_iff_lt_mul (by decide)]; rw [Nat.pow_succ] at h; exact h
    simp only [le, leNat, ih _ this, BitVec.toNat_ofNat]
    omega

/-- A field behind a prefix of known length. -/
theorem leAt_append (a b : Bytes) (off w : Nat) (h : a.length ≤ off) : leAt (a ++ b) off w = leAt b (off - a.length) w := by
  unfold leAt
  rw [List.drop_append, List.drop_eq_nil_of_le h, List.nil_append]

/-- The field in front. -/
theorem leAt_front (n v : Nat) (b : Bytes) (h : v < 256 ^ n) : leAt (le n v ++ b) 0 n = v := by
  unfold leAt
  rw [List.drop_zero, List.take_append_of_le_length (by simp), List.take_of_length_le (by simp), leNat_le n v h]

/-- A field of a record, after the fields before it. -/
theorem leAt_pack_cons (w v : Nat) (r : List (Nat × Nat)) (b : Bytes) (off n : Nat) (h : w ≤ off) :
    leAt (pack ((w, v) :: r) ++ b) off n = leAt (pack r ++ b) (off - w) n := by
  rw [pack, List.append_assoc, leAt_append _ _ _ _ (by simpa using h), le_length]

theorem leAt_pack_front (w v : Nat) (r : List (Nat × Nat)) (b : Bytes) (h : v < 256 ^ w) : leAt (pack ((w, v) :: r) ++ b) 0 w = v := by
  rw [pack, List.append_assoc, leAt_front w v _ h]

@[simp] theorem pack_length (l : List (Nat × Nat)) : (pack l).length = (l.map Prod.fst).sum := by
  induction l with
  | nil => rfl
  | cons a l ih => rcases a with ⟨w, v⟩; simp [pack, ih]

theorem crcBit_lt (c : Nat) (h : c < 2 ^ 32) : crcBit 0x82F63B78 c < 2 ^ 32 := by
  unfold crcBit
  split
  · exact Nat.xor_lt_two_pow (by omega) (by decide)
  · omega

theorem crcByte_lt (c : Nat) (b : Byte) (h : c < 2 ^ 32) : crcByte 0x82F63B78 c b < 2 ^ 32 := by
  unfold crcByte
  have : ∀ (l : List Nat) (c : Nat), c < 2 ^ 32 → l.foldl (fun c _ => crcBit 0x82F63B78 c) c < 2 ^ 32 := by
    intro l
    induction l with
    | nil => intro c h; exact h
    | cons x l ih => intro c h; exact ih _ (crcBit_lt c h)
  exact this _ _ (Nat.xor_lt_two_pow h (Nat.lt_of_lt_of_le b.isLt (by decide)))

/-- A CRC-32C fits 4 bytes. -/
theorem crc32c_lt (p : Bytes) : crc32c p < 256 ^ 4 := by
  unfold crc32c
  have : ∀ (l : Bytes) (c : Nat), c < 2 ^ 32 → l.foldl (crcByte 0x82F63B78) c < 2 ^ 32 := by
    intro l
    induction l with
    | nil => intro c h; exact h
    | cons x l ih => intro c h; exact ih _ (crcByte_lt c x h)
  exact Nat.xor_lt_two_pow (this p _ (by decide)) (by decide)

end Sys2Proof.Machine
end

