-- ==== Sys2Proof/Laws/Memory.lean ====
section
/-! SUPPORT. Laws of memory: every operation keeps the canonical form, a read after a write, equal reads are equal data. -/
namespace Sys2Proof.Machine

theorem Memory.wfFrom_mono {m : Memory} {lo lo' : Nat} (h : lo' ≤ lo) (w : Memory.wfFrom lo m = true) : Memory.wfFrom lo' m = true := by
  cases m with
  | nil => rfl
  | cons e m => simp only [Memory.wfFrom, Bool.and_eq_true, decide_eq_true_eq] at w ⊢; exact ⟨⟨Nat.le_trans h w.1.1, w.1.2⟩, w.2⟩

/-- Below its first address a memory reads as blank. -/
theorem Memory.read_below {m : Memory} {lo a : Nat} (w : Memory.wfFrom lo m = true) (h : a < lo) : Memory.read m a = Memory.blank := by
  induction m generalizing lo with
  | nil => rfl
  | cons e m ih =>
    obtain ⟨k, b⟩ := e
    simp only [Memory.wfFrom, Bool.and_eq_true, decide_eq_true_eq] at w
    have : k ≠ a := by omega
    simp only [Memory.read, this, if_false]
    exact ih w.2 (by omega)

theorem Memory.clear_wf {m : Memory} {lo : Nat} (a : Nat) (w : Memory.wfFrom lo m = true) : Memory.wfFrom lo (Memory.clear m a) = true := by
  induction m generalizing lo with
  | nil => rfl
  | cons e m ih =>
    obtain ⟨k, b⟩ := e
    simp only [Memory.wfFrom, Bool.and_eq_true, decide_eq_true_eq] at w
    simp only [Memory.clear]
    split
    · exact Memory.wfFrom_mono (by omega) w.2
    · split
      · simp only [Memory.wfFrom, Bool.and_eq_true, decide_eq_true_eq]; exact w
      · simp only [Memory.wfFrom, Bool.and_eq_true, decide_eq_true_eq]; exact ⟨w.1, ih w.2⟩

theorem Memory.put_wf {m : Memory} {lo : Nat} (a : Nat) (v : Byte) (hv : v ≠ Memory.blank) (h : lo ≤ a) (w : Memory.wfFrom lo m = true) :
    Memory.wfFrom lo (Memory.put m a v) = true := by
  induction m generalizing lo with
  | nil => simp [Memory.put, Memory.wfFrom, h, hv]
  | cons e m ih =>
    obtain ⟨k, b⟩ := e
    simp only [Memory.wfFrom, Bool.and_eq_true, decide_eq_true_eq, bne_iff_ne] at w
    simp only [Memory.put]
    repeat' split
    all_goals simp only [Memory.wfFrom, Bool.and_eq_true, decide_eq_true_eq, bne_iff_ne]
    · exact ⟨⟨by omega, hv⟩, by subst_vars; exact w.2⟩
    · exact ⟨⟨h, hv⟩, ⟨by omega, w.1.2⟩, w.2⟩
    · exact ⟨w.1, ih (by omega) w.2⟩

/-- A write keeps the canonical form. -/
theorem Memory.write_wf {m : Memory} (a : Nat) (v : Byte) (w : Memory.wf m = true) : Memory.wf (Memory.write m a v) = true := by
  unfold Memory.write Memory.wf
  split
  · exact Memory.clear_wf a w
  · exact Memory.put_wf a v ‹_› (Nat.zero_le a) w

/-- A block write keeps the canonical form. -/
theorem Memory.writeN_wf {m : Memory} (a : Nat) (l : Bytes) (w : Memory.wf m = true) : Memory.wf (Memory.writeN m a l) = true := by
  induction l generalizing m a with
  | nil => exact w
  | cons b l ih => exact ih (a + 1) (Memory.write_wf a b w)

theorem Memory.read_clear {m : Memory} {lo : Nat} (a x : Nat) (w : Memory.wfFrom lo m = true) :
    Memory.read (Memory.clear m a) x = if x = a then Memory.blank else Memory.read m x := by
  induction m generalizing lo with
  | nil => simp [Memory.clear, Memory.read]
  | cons e m ih =>
    obtain ⟨k, b⟩ := e
    simp only [Memory.wfFrom, Bool.and_eq_true, decide_eq_true_eq] at w
    simp only [Memory.clear]
    by_cases hk : k = a
    · subst hk
      simp only [if_true, Memory.read]
      by_cases hx : x = k
      · subst hx; simp only [if_true]; exact Memory.read_below w.2 (Nat.lt_succ_self _)
      · simp [hx, Ne.symm hx]
    · simp only [hk, if_false]
      split
      · by_cases hx : x = a
        · subst hx
          simp only [if_true, Memory.read, hk, if_false]
          exact Memory.read_below w.2 (by omega)
        · simp [hx]
      · simp only [Memory.read, ih w.2]
        by_cases hx : x = a
        · subst hx; simp [hk]
        · simp [hx]

theorem Memory.read_put (m : Memory) (a x : Nat) (v : Byte) :
    Memory.read (Memory.put m a v) x = if x = a then v else Memory.read m x := by
  induction m with
  | nil =>
    by_cases h : x = a
    · simp [Memory.put, Memory.read, h]
    · simp [Memory.put, Memory.read, h, show a ≠ x from fun e => h e.symm]
  | cons e m ih =>
    obtain ⟨k, b⟩ := e
    by_cases h : x = a
    · subst h
      simp only [Memory.put]
      repeat' split
      all_goals simp_all [Memory.read]
    · have h' : a ≠ x := fun e => h e.symm
      simp only [Memory.put]
      repeat' split
      all_goals simp_all [Memory.read]

/-- A read after a write: the byte written, and every other byte as before. -/
theorem Memory.read_write {m : Memory} (a x : Nat) (v : Byte) (w : Memory.wf m = true) :
    Memory.read (Memory.write m a v) x = if x = a then v else Memory.read m x := by
  unfold Memory.write
  split
  · rw [Memory.read_clear a x w]; simp_all
  · exact Memory.read_put m a x v

/-- Outside the bytes that a block write stores, every byte reads as before. -/
theorem Memory.read_writeN_outside {m : Memory} (a x : Nat) (l : Bytes) (w : Memory.wf m = true) (h : x < a ∨ a + l.length ≤ x) :
    Memory.read (Memory.writeN m a l) x = Memory.read m x := by
  induction l generalizing m a with
  | nil => rfl
  | cons b l ih =>
    simp only [List.length_cons] at h
    simp only [Memory.writeN]
    rw [ih (a + 1) (Memory.write_wf a b w) (by omega), Memory.read_write a x b w]
    simp [show x ≠ a by omega]

/-- Two canonical memories that read alike are the same data. -/
theorem Memory.eq_of_read {m n : Memory} {lo : Nat} (wm : Memory.wfFrom lo m = true) (wn : Memory.wfFrom lo n = true)
    (h : ∀ a, Memory.read m a = Memory.read n a) : m = n := by
  induction m generalizing n lo with
  | nil =>
    cases n with
    | nil => rfl
    | cons e n =>
      obtain ⟨k, b⟩ := e
      have := h k
      simp only [Memory.wfFrom, Bool.and_eq_true, bne_iff_ne] at wn
      simp only [Memory.read, if_true] at this
      exact absurd this.symm wn.1.2
  | cons e m ih =>
    obtain ⟨k, b⟩ := e
    simp only [Memory.wfFrom, Bool.and_eq_true, decide_eq_true_eq, bne_iff_ne] at wm
    cases n with
    | nil =>
      have := h k
      simp only [Memory.read, if_true] at this
      exact absurd this wm.1.2
    | cons f n =>
      obtain ⟨j, c⟩ := f
      simp only [Memory.wfFrom, Bool.and_eq_true, decide_eq_true_eq, bne_iff_ne] at wn
      have hk : k = j := by
        rcases Nat.lt_trichotomy k j with lt | eq | gt
        · have := h k
          simp only [Memory.read, if_true, show j ≠ k by omega, if_false] at this
          rw [Memory.read_below wn.2 (by omega)] at this
          exact absurd this wm.1.2
        · exact eq
        · have := h j
          simp only [Memory.read, if_true, show k ≠ j by omega, if_false] at this
          rw [Memory.read_below wm.2 (by omega)] at this
          exact absurd this.symm wn.1.2
      subst hk
      have hb : b = c := by have := h k; simpa [Memory.read] using this
      subst hb
      congr 1
      apply ih wm.2 wn.2
      intro a
      by_cases ha : a = k
      · subst ha; rw [Memory.read_below wm.2 (by omega), Memory.read_below wn.2 (by omega)]
      · have := h a; simpa [Memory.read, Ne.symm ha] using this

end Sys2Proof.Machine
end

