-- ==== Sys2Proof/Laws/State.lean ====
section
/-! SUPPORT. What each named update of one part of the state leaves of the other parts: one fact per update and part. -/
namespace Sys2Proof.Machine

@[simp] theorem modCore_pending (c : Nat) (f : Core → Core) (s : State) : (modCore c f s).pending = s.pending := rfl
@[simp] theorem modCore_variant (c : Nat) (f : Core → Core) (s : State) : (modCore c f s).variant = s.variant := rfl
@[simp] theorem modCore_freeCtr (c : Nat) (f : Core → Core) (s : State) : (modCore c f s).freeCtr = s.freeCtr := rfl
@[simp] theorem modCore_clk (c : Nat) (f : Core → Core) (s : State) : (modCore c f s).clk = s.clk := rfl
@[simp] theorem modCore_fc (c : Nat) (f : Core → Core) (s : State) : (modCore c f s).fc = s.fc := rfl
@[simp] theorem modCore_tallies (c : Nat) (f : Core → Core) (s : State) : (modCore c f s).tallies = s.tallies := rfl
@[simp] theorem modCore_cmd (c : Nat) (f : Core → Core) (s : State) : (modCore c f s).cmd = s.cmd := rfl
@[simp] theorem modCore_pwr (c : Nat) (f : Core → Core) (s : State) : (modCore c f s).pwr = s.pwr := rfl
@[simp] theorem modCore_flt (c : Nat) (f : Core → Core) (s : State) : (modCore c f s).flt = s.flt := rfl
@[simp] theorem modCore_twin (c : Nat) (f : Core → Core) (s : State) : (modCore c f s).twin = s.twin := rfl
@[simp] theorem modCore_jtag (c : Nat) (f : Core → Core) (s : State) : (modCore c f s).jtag = s.jtag := rfl
@[simp] theorem modCore_flash (c : Nat) (f : Core → Core) (s : State) : (modCore c f s).flash = s.flash := rfl
@[simp] theorem modCore_fuses (c : Nat) (f : Core → Core) (s : State) : (modCore c f s).fuses = s.fuses := rfl
@[simp] theorem modCore_boot (c : Nat) (f : Core → Core) (s : State) : (modCore c f s).boot = s.boot := rfl
@[simp] theorem modCore_pins (c : Nat) (f : Core → Core) (s : State) : (modCore c f s).pins = s.pins := rfl
@[simp] theorem modCore_intk (c : Nat) (f : Core → Core) (s : State) : (modCore c f s).intk = s.intk := rfl
@[simp] theorem modCore_prep (c : Nat) (f : Core → Core) (s : State) : (modCore c f s).prep = s.prep := rfl
@[simp] theorem modCore_out (c : Nat) (f : Core → Core) (s : State) : (modCore c f s).out = s.out := rfl
@[simp] theorem modCore_image (c : Nat) (f : Core → Core) (s : State) : (modCore c f s).image = s.image := rfl
@[simp] theorem modCore_clusters (c : Nat) (f : Core → Core) (s : State) : (modCore c f s).clusters = s.clusters := rfl
@[simp] theorem modCore_coreMaps (c : Nat) (f : Core → Core) (s : State) : (modCore c f s).coreMaps = s.coreMaps := rfl
@[simp] theorem modCore_ctxs (c : Nat) (f : Core → Core) (s : State) : (modCore c f s).ctxs = s.ctxs := rfl
@[simp] theorem modCore_ctxCounts (c : Nat) (f : Core → Core) (s : State) : (modCore c f s).ctxCounts = s.ctxCounts := rfl
@[simp] theorem modCore_ddr (c : Nat) (f : Core → Core) (s : State) : (modCore c f s).ddr = s.ddr := rfl
@[simp] theorem modCore_coreSel (c : Nat) (f : Core → Core) (s : State) : (modCore c f s).coreSel = s.coreSel := rfl
@[simp] theorem modCore_qps (c : Nat) (f : Core → Core) (s : State) : (modCore c f s).qps = s.qps := rfl
@[simp] theorem modCore_slab (c : Nat) (f : Core → Core) (s : State) : (modCore c f s).slab = s.slab := rfl
@[simp] theorem modCore_serv (c : Nat) (f : Core → Core) (s : State) : (modCore c f s).serv = s.serv := rfl
@[simp] theorem modCore_text (c : Nat) (f : Core → Core) (s : State) : (modCore c f s).text = s.text := rfl

@[simp] theorem modCluster_pending (c : Nat) (f : Cluster → Cluster) (s : State) : (modCluster c f s).pending = s.pending := rfl
@[simp] theorem modCluster_variant (c : Nat) (f : Cluster → Cluster) (s : State) : (modCluster c f s).variant = s.variant := rfl
@[simp] theorem modCluster_freeCtr (c : Nat) (f : Cluster → Cluster) (s : State) : (modCluster c f s).freeCtr = s.freeCtr := rfl
@[simp] theorem modCluster_clk (c : Nat) (f : Cluster → Cluster) (s : State) : (modCluster c f s).clk = s.clk := rfl
@[simp] theorem modCluster_fc (c : Nat) (f : Cluster → Cluster) (s : State) : (modCluster c f s).fc = s.fc := rfl
@[simp] theorem modCluster_tallies (c : Nat) (f : Cluster → Cluster) (s : State) : (modCluster c f s).tallies = s.tallies := rfl
@[simp] theorem modCluster_cmd (c : Nat) (f : Cluster → Cluster) (s : State) : (modCluster c f s).cmd = s.cmd := rfl
@[simp] theorem modCluster_pwr (c : Nat) (f : Cluster → Cluster) (s : State) : (modCluster c f s).pwr = s.pwr := rfl
@[simp] theorem modCluster_flt (c : Nat) (f : Cluster → Cluster) (s : State) : (modCluster c f s).flt = s.flt := rfl
@[simp] theorem modCluster_twin (c : Nat) (f : Cluster → Cluster) (s : State) : (modCluster c f s).twin = s.twin := rfl
@[simp] theorem modCluster_jtag (c : Nat) (f : Cluster → Cluster) (s : State) : (modCluster c f s).jtag = s.jtag := rfl
@[simp] theorem modCluster_flash (c : Nat) (f : Cluster → Cluster) (s : State) : (modCluster c f s).flash = s.flash := rfl
@[simp] theorem modCluster_fuses (c : Nat) (f : Cluster → Cluster) (s : State) : (modCluster c f s).fuses = s.fuses := rfl
@[simp] theorem modCluster_boot (c : Nat) (f : Cluster → Cluster) (s : State) : (modCluster c f s).boot = s.boot := rfl
@[simp] theorem modCluster_pins (c : Nat) (f : Cluster → Cluster) (s : State) : (modCluster c f s).pins = s.pins := rfl
@[simp] theorem modCluster_intk (c : Nat) (f : Cluster → Cluster) (s : State) : (modCluster c f s).intk = s.intk := rfl
@[simp] theorem modCluster_prep (c : Nat) (f : Cluster → Cluster) (s : State) : (modCluster c f s).prep = s.prep := rfl
@[simp] theorem modCluster_out (c : Nat) (f : Cluster → Cluster) (s : State) : (modCluster c f s).out = s.out := rfl
@[simp] theorem modCluster_image (c : Nat) (f : Cluster → Cluster) (s : State) : (modCluster c f s).image = s.image := rfl
@[simp] theorem modCluster_cores (c : Nat) (f : Cluster → Cluster) (s : State) : (modCluster c f s).cores = s.cores := rfl
@[simp] theorem modCluster_coreMaps (c : Nat) (f : Cluster → Cluster) (s : State) : (modCluster c f s).coreMaps = s.coreMaps := rfl
@[simp] theorem modCluster_ctxs (c : Nat) (f : Cluster → Cluster) (s : State) : (modCluster c f s).ctxs = s.ctxs := rfl
@[simp] theorem modCluster_ctxCounts (c : Nat) (f : Cluster → Cluster) (s : State) : (modCluster c f s).ctxCounts = s.ctxCounts := rfl
@[simp] theorem modCluster_ddr (c : Nat) (f : Cluster → Cluster) (s : State) : (modCluster c f s).ddr = s.ddr := rfl
@[simp] theorem modCluster_coreSel (c : Nat) (f : Cluster → Cluster) (s : State) : (modCluster c f s).coreSel = s.coreSel := rfl
@[simp] theorem modCluster_qps (c : Nat) (f : Cluster → Cluster) (s : State) : (modCluster c f s).qps = s.qps := rfl
@[simp] theorem modCluster_slab (c : Nat) (f : Cluster → Cluster) (s : State) : (modCluster c f s).slab = s.slab := rfl
@[simp] theorem modCluster_serv (c : Nat) (f : Cluster → Cluster) (s : State) : (modCluster c f s).serv = s.serv := rfl
@[simp] theorem modCluster_text (c : Nat) (f : Cluster → Cluster) (s : State) : (modCluster c f s).text = s.text := rfl

@[simp] theorem modChan_pending (c : Nat) (f : Channel → Channel) (s : State) : (modChan c f s).pending = s.pending := rfl
@[simp] theorem modChan_variant (c : Nat) (f : Channel → Channel) (s : State) : (modChan c f s).variant = s.variant := rfl
@[simp] theorem modChan_freeCtr (c : Nat) (f : Channel → Channel) (s : State) : (modChan c f s).freeCtr = s.freeCtr := rfl
@[simp] theorem modChan_clk (c : Nat) (f : Channel → Channel) (s : State) : (modChan c f s).clk = s.clk := rfl
@[simp] theorem modChan_fc (c : Nat) (f : Channel → Channel) (s : State) : (modChan c f s).fc = s.fc := rfl
@[simp] theorem modChan_tallies (c : Nat) (f : Channel → Channel) (s : State) : (modChan c f s).tallies = s.tallies := rfl
@[simp] theorem modChan_pwr (c : Nat) (f : Channel → Channel) (s : State) : (modChan c f s).pwr = s.pwr := rfl
@[simp] theorem modChan_flt (c : Nat) (f : Channel → Channel) (s : State) : (modChan c f s).flt = s.flt := rfl
@[simp] theorem modChan_twin (c : Nat) (f : Channel → Channel) (s : State) : (modChan c f s).twin = s.twin := rfl
@[simp] theorem modChan_jtag (c : Nat) (f : Channel → Channel) (s : State) : (modChan c f s).jtag = s.jtag := rfl
@[simp] theorem modChan_flash (c : Nat) (f : Channel → Channel) (s : State) : (modChan c f s).flash = s.flash := rfl
@[simp] theorem modChan_fuses (c : Nat) (f : Channel → Channel) (s : State) : (modChan c f s).fuses = s.fuses := rfl
@[simp] theorem modChan_boot (c : Nat) (f : Channel → Channel) (s : State) : (modChan c f s).boot = s.boot := rfl
@[simp] theorem modChan_pins (c : Nat) (f : Channel → Channel) (s : State) : (modChan c f s).pins = s.pins := rfl
@[simp] theorem modChan_intk (c : Nat) (f : Channel → Channel) (s : State) : (modChan c f s).intk = s.intk := rfl
@[simp] theorem modChan_prep (c : Nat) (f : Channel → Channel) (s : State) : (modChan c f s).prep = s.prep := rfl
@[simp] theorem modChan_out (c : Nat) (f : Channel → Channel) (s : State) : (modChan c f s).out = s.out := rfl
@[simp] theorem modChan_image (c : Nat) (f : Channel → Channel) (s : State) : (modChan c f s).image = s.image := rfl
@[simp] theorem modChan_cores (c : Nat) (f : Channel → Channel) (s : State) : (modChan c f s).cores = s.cores := rfl
@[simp] theorem modChan_clusters (c : Nat) (f : Channel → Channel) (s : State) : (modChan c f s).clusters = s.clusters := rfl
@[simp] theorem modChan_coreMaps (c : Nat) (f : Channel → Channel) (s : State) : (modChan c f s).coreMaps = s.coreMaps := rfl
@[simp] theorem modChan_ctxs (c : Nat) (f : Channel → Channel) (s : State) : (modChan c f s).ctxs = s.ctxs := rfl
@[simp] theorem modChan_ctxCounts (c : Nat) (f : Channel → Channel) (s : State) : (modChan c f s).ctxCounts = s.ctxCounts := rfl
@[simp] theorem modChan_ddr (c : Nat) (f : Channel → Channel) (s : State) : (modChan c f s).ddr = s.ddr := rfl
@[simp] theorem modChan_coreSel (c : Nat) (f : Channel → Channel) (s : State) : (modChan c f s).coreSel = s.coreSel := rfl
@[simp] theorem modChan_qps (c : Nat) (f : Channel → Channel) (s : State) : (modChan c f s).qps = s.qps := rfl
@[simp] theorem modChan_slab (c : Nat) (f : Channel → Channel) (s : State) : (modChan c f s).slab = s.slab := rfl
@[simp] theorem modChan_serv (c : Nat) (f : Channel → Channel) (s : State) : (modChan c f s).serv = s.serv := rfl
@[simp] theorem modChan_text (c : Nat) (f : Channel → Channel) (s : State) : (modChan c f s).text = s.text := rfl

@[simp] theorem modStream_pending (k : Nat) (f : Stream → Stream) (s : State) : (modStream k f s).pending = s.pending := rfl
@[simp] theorem modStream_variant (k : Nat) (f : Stream → Stream) (s : State) : (modStream k f s).variant = s.variant := rfl
@[simp] theorem modStream_freeCtr (k : Nat) (f : Stream → Stream) (s : State) : (modStream k f s).freeCtr = s.freeCtr := rfl
@[simp] theorem modStream_clk (k : Nat) (f : Stream → Stream) (s : State) : (modStream k f s).clk = s.clk := rfl
@[simp] theorem modStream_fc (k : Nat) (f : Stream → Stream) (s : State) : (modStream k f s).fc = s.fc := rfl
@[simp] theorem modStream_tallies (k : Nat) (f : Stream → Stream) (s : State) : (modStream k f s).tallies = s.tallies := rfl
@[simp] theorem modStream_cmd (k : Nat) (f : Stream → Stream) (s : State) : (modStream k f s).cmd = s.cmd := rfl
@[simp] theorem modStream_pwr (k : Nat) (f : Stream → Stream) (s : State) : (modStream k f s).pwr = s.pwr := rfl
@[simp] theorem modStream_flt (k : Nat) (f : Stream → Stream) (s : State) : (modStream k f s).flt = s.flt := rfl
@[simp] theorem modStream_twin (k : Nat) (f : Stream → Stream) (s : State) : (modStream k f s).twin = s.twin := rfl
@[simp] theorem modStream_jtag (k : Nat) (f : Stream → Stream) (s : State) : (modStream k f s).jtag = s.jtag := rfl
@[simp] theorem modStream_flash (k : Nat) (f : Stream → Stream) (s : State) : (modStream k f s).flash = s.flash := rfl
@[simp] theorem modStream_fuses (k : Nat) (f : Stream → Stream) (s : State) : (modStream k f s).fuses = s.fuses := rfl
@[simp] theorem modStream_boot (k : Nat) (f : Stream → Stream) (s : State) : (modStream k f s).boot = s.boot := rfl
@[simp] theorem modStream_pins (k : Nat) (f : Stream → Stream) (s : State) : (modStream k f s).pins = s.pins := rfl
@[simp] theorem modStream_prep (k : Nat) (f : Stream → Stream) (s : State) : (modStream k f s).prep = s.prep := rfl
@[simp] theorem modStream_out (k : Nat) (f : Stream → Stream) (s : State) : (modStream k f s).out = s.out := rfl
@[simp] theorem modStream_image (k : Nat) (f : Stream → Stream) (s : State) : (modStream k f s).image = s.image := rfl
@[simp] theorem modStream_cores (k : Nat) (f : Stream → Stream) (s : State) : (modStream k f s).cores = s.cores := rfl
@[simp] theorem modStream_clusters (k : Nat) (f : Stream → Stream) (s : State) : (modStream k f s).clusters = s.clusters := rfl
@[simp] theorem modStream_coreMaps (k : Nat) (f : Stream → Stream) (s : State) : (modStream k f s).coreMaps = s.coreMaps := rfl
@[simp] theorem modStream_ctxs (k : Nat) (f : Stream → Stream) (s : State) : (modStream k f s).ctxs = s.ctxs := rfl
@[simp] theorem modStream_ctxCounts (k : Nat) (f : Stream → Stream) (s : State) : (modStream k f s).ctxCounts = s.ctxCounts := rfl
@[simp] theorem modStream_ddr (k : Nat) (f : Stream → Stream) (s : State) : (modStream k f s).ddr = s.ddr := rfl
@[simp] theorem modStream_coreSel (k : Nat) (f : Stream → Stream) (s : State) : (modStream k f s).coreSel = s.coreSel := rfl
@[simp] theorem modStream_qps (k : Nat) (f : Stream → Stream) (s : State) : (modStream k f s).qps = s.qps := rfl
@[simp] theorem modStream_slab (k : Nat) (f : Stream → Stream) (s : State) : (modStream k f s).slab = s.slab := rfl
@[simp] theorem modStream_serv (k : Nat) (f : Stream → Stream) (s : State) : (modStream k f s).serv = s.serv := rfl
@[simp] theorem modStream_text (k : Nat) (f : Stream → Stream) (s : State) : (modStream k f s).text = s.text := rfl

@[simp] theorem modPort_pending (p : Nat) (f : PortErr → PortErr) (s : State) : (modPort p f s).pending = s.pending := rfl
@[simp] theorem modPort_variant (p : Nat) (f : PortErr → PortErr) (s : State) : (modPort p f s).variant = s.variant := rfl
@[simp] theorem modPort_freeCtr (p : Nat) (f : PortErr → PortErr) (s : State) : (modPort p f s).freeCtr = s.freeCtr := rfl
@[simp] theorem modPort_clk (p : Nat) (f : PortErr → PortErr) (s : State) : (modPort p f s).clk = s.clk := rfl
@[simp] theorem modPort_fc (p : Nat) (f : PortErr → PortErr) (s : State) : (modPort p f s).fc = s.fc := rfl
@[simp] theorem modPort_tallies (p : Nat) (f : PortErr → PortErr) (s : State) : (modPort p f s).tallies = s.tallies := rfl
@[simp] theorem modPort_cmd (p : Nat) (f : PortErr → PortErr) (s : State) : (modPort p f s).cmd = s.cmd := rfl
@[simp] theorem modPort_pwr (p : Nat) (f : PortErr → PortErr) (s : State) : (modPort p f s).pwr = s.pwr := rfl
@[simp] theorem modPort_flt (p : Nat) (f : PortErr → PortErr) (s : State) : (modPort p f s).flt = s.flt := rfl
@[simp] theorem modPort_twin (p : Nat) (f : PortErr → PortErr) (s : State) : (modPort p f s).twin = s.twin := rfl
@[simp] theorem modPort_jtag (p : Nat) (f : PortErr → PortErr) (s : State) : (modPort p f s).jtag = s.jtag := rfl
@[simp] theorem modPort_flash (p : Nat) (f : PortErr → PortErr) (s : State) : (modPort p f s).flash = s.flash := rfl
@[simp] theorem modPort_fuses (p : Nat) (f : PortErr → PortErr) (s : State) : (modPort p f s).fuses = s.fuses := rfl
@[simp] theorem modPort_boot (p : Nat) (f : PortErr → PortErr) (s : State) : (modPort p f s).boot = s.boot := rfl
@[simp] theorem modPort_pins (p : Nat) (f : PortErr → PortErr) (s : State) : (modPort p f s).pins = s.pins := rfl
@[simp] theorem modPort_prep (p : Nat) (f : PortErr → PortErr) (s : State) : (modPort p f s).prep = s.prep := rfl
@[simp] theorem modPort_out (p : Nat) (f : PortErr → PortErr) (s : State) : (modPort p f s).out = s.out := rfl
@[simp] theorem modPort_image (p : Nat) (f : PortErr → PortErr) (s : State) : (modPort p f s).image = s.image := rfl
@[simp] theorem modPort_cores (p : Nat) (f : PortErr → PortErr) (s : State) : (modPort p f s).cores = s.cores := rfl
@[simp] theorem modPort_clusters (p : Nat) (f : PortErr → PortErr) (s : State) : (modPort p f s).clusters = s.clusters := rfl
@[simp] theorem modPort_coreMaps (p : Nat) (f : PortErr → PortErr) (s : State) : (modPort p f s).coreMaps = s.coreMaps := rfl
@[simp] theorem modPort_ctxs (p : Nat) (f : PortErr → PortErr) (s : State) : (modPort p f s).ctxs = s.ctxs := rfl
@[simp] theorem modPort_ctxCounts (p : Nat) (f : PortErr → PortErr) (s : State) : (modPort p f s).ctxCounts = s.ctxCounts := rfl
@[simp] theorem modPort_ddr (p : Nat) (f : PortErr → PortErr) (s : State) : (modPort p f s).ddr = s.ddr := rfl
@[simp] theorem modPort_coreSel (p : Nat) (f : PortErr → PortErr) (s : State) : (modPort p f s).coreSel = s.coreSel := rfl
@[simp] theorem modPort_qps (p : Nat) (f : PortErr → PortErr) (s : State) : (modPort p f s).qps = s.qps := rfl
@[simp] theorem modPort_slab (p : Nat) (f : PortErr → PortErr) (s : State) : (modPort p f s).slab = s.slab := rfl
@[simp] theorem modPort_serv (p : Nat) (f : PortErr → PortErr) (s : State) : (modPort p f s).serv = s.serv := rfl
@[simp] theorem modPort_text (p : Nat) (f : PortErr → PortErr) (s : State) : (modPort p f s).text = s.text := rfl

@[simp] theorem modSheet_pending (i : Nat) (f : Sheet → Sheet) (s : State) : (modSheet i f s).pending = s.pending := rfl
@[simp] theorem modSheet_variant (i : Nat) (f : Sheet → Sheet) (s : State) : (modSheet i f s).variant = s.variant := rfl
@[simp] theorem modSheet_freeCtr (i : Nat) (f : Sheet → Sheet) (s : State) : (modSheet i f s).freeCtr = s.freeCtr := rfl
@[simp] theorem modSheet_clk (i : Nat) (f : Sheet → Sheet) (s : State) : (modSheet i f s).clk = s.clk := rfl
@[simp] theorem modSheet_fc (i : Nat) (f : Sheet → Sheet) (s : State) : (modSheet i f s).fc = s.fc := rfl
@[simp] theorem modSheet_tallies (i : Nat) (f : Sheet → Sheet) (s : State) : (modSheet i f s).tallies = s.tallies := rfl
@[simp] theorem modSheet_cmd (i : Nat) (f : Sheet → Sheet) (s : State) : (modSheet i f s).cmd = s.cmd := rfl
@[simp] theorem modSheet_pwr (i : Nat) (f : Sheet → Sheet) (s : State) : (modSheet i f s).pwr = s.pwr := rfl
@[simp] theorem modSheet_flt (i : Nat) (f : Sheet → Sheet) (s : State) : (modSheet i f s).flt = s.flt := rfl
@[simp] theorem modSheet_twin (i : Nat) (f : Sheet → Sheet) (s : State) : (modSheet i f s).twin = s.twin := rfl
@[simp] theorem modSheet_jtag (i : Nat) (f : Sheet → Sheet) (s : State) : (modSheet i f s).jtag = s.jtag := rfl
@[simp] theorem modSheet_flash (i : Nat) (f : Sheet → Sheet) (s : State) : (modSheet i f s).flash = s.flash := rfl
@[simp] theorem modSheet_fuses (i : Nat) (f : Sheet → Sheet) (s : State) : (modSheet i f s).fuses = s.fuses := rfl
@[simp] theorem modSheet_boot (i : Nat) (f : Sheet → Sheet) (s : State) : (modSheet i f s).boot = s.boot := rfl
@[simp] theorem modSheet_pins (i : Nat) (f : Sheet → Sheet) (s : State) : (modSheet i f s).pins = s.pins := rfl
@[simp] theorem modSheet_intk (i : Nat) (f : Sheet → Sheet) (s : State) : (modSheet i f s).intk = s.intk := rfl
@[simp] theorem modSheet_out (i : Nat) (f : Sheet → Sheet) (s : State) : (modSheet i f s).out = s.out := rfl
@[simp] theorem modSheet_image (i : Nat) (f : Sheet → Sheet) (s : State) : (modSheet i f s).image = s.image := rfl
@[simp] theorem modSheet_cores (i : Nat) (f : Sheet → Sheet) (s : State) : (modSheet i f s).cores = s.cores := rfl
@[simp] theorem modSheet_clusters (i : Nat) (f : Sheet → Sheet) (s : State) : (modSheet i f s).clusters = s.clusters := rfl
@[simp] theorem modSheet_coreMaps (i : Nat) (f : Sheet → Sheet) (s : State) : (modSheet i f s).coreMaps = s.coreMaps := rfl
@[simp] theorem modSheet_ctxs (i : Nat) (f : Sheet → Sheet) (s : State) : (modSheet i f s).ctxs = s.ctxs := rfl
@[simp] theorem modSheet_ctxCounts (i : Nat) (f : Sheet → Sheet) (s : State) : (modSheet i f s).ctxCounts = s.ctxCounts := rfl
@[simp] theorem modSheet_ddr (i : Nat) (f : Sheet → Sheet) (s : State) : (modSheet i f s).ddr = s.ddr := rfl
@[simp] theorem modSheet_coreSel (i : Nat) (f : Sheet → Sheet) (s : State) : (modSheet i f s).coreSel = s.coreSel := rfl
@[simp] theorem modSheet_qps (i : Nat) (f : Sheet → Sheet) (s : State) : (modSheet i f s).qps = s.qps := rfl
@[simp] theorem modSheet_slab (i : Nat) (f : Sheet → Sheet) (s : State) : (modSheet i f s).slab = s.slab := rfl
@[simp] theorem modSheet_serv (i : Nat) (f : Sheet → Sheet) (s : State) : (modSheet i f s).serv = s.serv := rfl
@[simp] theorem modSheet_text (i : Nat) (f : Sheet → Sheet) (s : State) : (modSheet i f s).text = s.text := rfl

@[simp] theorem modJob_pending (j : Nat) (f : Job → Job) (s : State) : (modJob j f s).pending = s.pending := rfl
@[simp] theorem modJob_variant (j : Nat) (f : Job → Job) (s : State) : (modJob j f s).variant = s.variant := rfl
@[simp] theorem modJob_freeCtr (j : Nat) (f : Job → Job) (s : State) : (modJob j f s).freeCtr = s.freeCtr := rfl
@[simp] theorem modJob_clk (j : Nat) (f : Job → Job) (s : State) : (modJob j f s).clk = s.clk := rfl
@[simp] theorem modJob_fc (j : Nat) (f : Job → Job) (s : State) : (modJob j f s).fc = s.fc := rfl
@[simp] theorem modJob_tallies (j : Nat) (f : Job → Job) (s : State) : (modJob j f s).tallies = s.tallies := rfl
@[simp] theorem modJob_cmd (j : Nat) (f : Job → Job) (s : State) : (modJob j f s).cmd = s.cmd := rfl
@[simp] theorem modJob_pwr (j : Nat) (f : Job → Job) (s : State) : (modJob j f s).pwr = s.pwr := rfl
@[simp] theorem modJob_flt (j : Nat) (f : Job → Job) (s : State) : (modJob j f s).flt = s.flt := rfl
@[simp] theorem modJob_twin (j : Nat) (f : Job → Job) (s : State) : (modJob j f s).twin = s.twin := rfl
@[simp] theorem modJob_jtag (j : Nat) (f : Job → Job) (s : State) : (modJob j f s).jtag = s.jtag := rfl
@[simp] theorem modJob_flash (j : Nat) (f : Job → Job) (s : State) : (modJob j f s).flash = s.flash := rfl
@[simp] theorem modJob_fuses (j : Nat) (f : Job → Job) (s : State) : (modJob j f s).fuses = s.fuses := rfl
@[simp] theorem modJob_boot (j : Nat) (f : Job → Job) (s : State) : (modJob j f s).boot = s.boot := rfl
@[simp] theorem modJob_pins (j : Nat) (f : Job → Job) (s : State) : (modJob j f s).pins = s.pins := rfl
@[simp] theorem modJob_intk (j : Nat) (f : Job → Job) (s : State) : (modJob j f s).intk = s.intk := rfl
@[simp] theorem modJob_prep (j : Nat) (f : Job → Job) (s : State) : (modJob j f s).prep = s.prep := rfl
@[simp] theorem modJob_out (j : Nat) (f : Job → Job) (s : State) : (modJob j f s).out = s.out := rfl
@[simp] theorem modJob_image (j : Nat) (f : Job → Job) (s : State) : (modJob j f s).image = s.image := rfl
@[simp] theorem modJob_cores (j : Nat) (f : Job → Job) (s : State) : (modJob j f s).cores = s.cores := rfl
@[simp] theorem modJob_clusters (j : Nat) (f : Job → Job) (s : State) : (modJob j f s).clusters = s.clusters := rfl
@[simp] theorem modJob_coreMaps (j : Nat) (f : Job → Job) (s : State) : (modJob j f s).coreMaps = s.coreMaps := rfl
@[simp] theorem modJob_ctxs (j : Nat) (f : Job → Job) (s : State) : (modJob j f s).ctxs = s.ctxs := rfl
@[simp] theorem modJob_ctxCounts (j : Nat) (f : Job → Job) (s : State) : (modJob j f s).ctxCounts = s.ctxCounts := rfl
@[simp] theorem modJob_ddr (j : Nat) (f : Job → Job) (s : State) : (modJob j f s).ddr = s.ddr := rfl
@[simp] theorem modJob_coreSel (j : Nat) (f : Job → Job) (s : State) : (modJob j f s).coreSel = s.coreSel := rfl
@[simp] theorem modJob_qps (j : Nat) (f : Job → Job) (s : State) : (modJob j f s).qps = s.qps := rfl
@[simp] theorem modJob_slab (j : Nat) (f : Job → Job) (s : State) : (modJob j f s).slab = s.slab := rfl
@[simp] theorem modJob_text (j : Nat) (f : Job → Job) (s : State) : (modJob j f s).text = s.text := rfl

@[simp] theorem modLine_pending (l : Line) (f : Line → Line) (s : State) : (modLine l f s).pending = s.pending := rfl
@[simp] theorem modLine_variant (l : Line) (f : Line → Line) (s : State) : (modLine l f s).variant = s.variant := rfl
@[simp] theorem modLine_freeCtr (l : Line) (f : Line → Line) (s : State) : (modLine l f s).freeCtr = s.freeCtr := rfl
@[simp] theorem modLine_clk (l : Line) (f : Line → Line) (s : State) : (modLine l f s).clk = s.clk := rfl
@[simp] theorem modLine_fc (l : Line) (f : Line → Line) (s : State) : (modLine l f s).fc = s.fc := rfl
@[simp] theorem modLine_tallies (l : Line) (f : Line → Line) (s : State) : (modLine l f s).tallies = s.tallies := rfl
@[simp] theorem modLine_cmd (l : Line) (f : Line → Line) (s : State) : (modLine l f s).cmd = s.cmd := rfl
@[simp] theorem modLine_pwr (l : Line) (f : Line → Line) (s : State) : (modLine l f s).pwr = s.pwr := rfl
@[simp] theorem modLine_flt (l : Line) (f : Line → Line) (s : State) : (modLine l f s).flt = s.flt := rfl
@[simp] theorem modLine_twin (l : Line) (f : Line → Line) (s : State) : (modLine l f s).twin = s.twin := rfl
@[simp] theorem modLine_jtag (l : Line) (f : Line → Line) (s : State) : (modLine l f s).jtag = s.jtag := rfl
@[simp] theorem modLine_flash (l : Line) (f : Line → Line) (s : State) : (modLine l f s).flash = s.flash := rfl
@[simp] theorem modLine_fuses (l : Line) (f : Line → Line) (s : State) : (modLine l f s).fuses = s.fuses := rfl
@[simp] theorem modLine_boot (l : Line) (f : Line → Line) (s : State) : (modLine l f s).boot = s.boot := rfl
@[simp] theorem modLine_pins (l : Line) (f : Line → Line) (s : State) : (modLine l f s).pins = s.pins := rfl
@[simp] theorem modLine_intk (l : Line) (f : Line → Line) (s : State) : (modLine l f s).intk = s.intk := rfl
@[simp] theorem modLine_prep (l : Line) (f : Line → Line) (s : State) : (modLine l f s).prep = s.prep := rfl
@[simp] theorem modLine_out (l : Line) (f : Line → Line) (s : State) : (modLine l f s).out = s.out := rfl
@[simp] theorem modLine_image (l : Line) (f : Line → Line) (s : State) : (modLine l f s).image = s.image := rfl
@[simp] theorem modLine_cores (l : Line) (f : Line → Line) (s : State) : (modLine l f s).cores = s.cores := rfl
@[simp] theorem modLine_clusters (l : Line) (f : Line → Line) (s : State) : (modLine l f s).clusters = s.clusters := rfl
@[simp] theorem modLine_coreMaps (l : Line) (f : Line → Line) (s : State) : (modLine l f s).coreMaps = s.coreMaps := rfl
@[simp] theorem modLine_ctxs (l : Line) (f : Line → Line) (s : State) : (modLine l f s).ctxs = s.ctxs := rfl
@[simp] theorem modLine_ctxCounts (l : Line) (f : Line → Line) (s : State) : (modLine l f s).ctxCounts = s.ctxCounts := rfl
@[simp] theorem modLine_ddr (l : Line) (f : Line → Line) (s : State) : (modLine l f s).ddr = s.ddr := rfl
@[simp] theorem modLine_coreSel (l : Line) (f : Line → Line) (s : State) : (modLine l f s).coreSel = s.coreSel := rfl
@[simp] theorem modLine_qps (l : Line) (f : Line → Line) (s : State) : (modLine l f s).qps = s.qps := rfl
@[simp] theorem modLine_slab (l : Line) (f : Line → Line) (s : State) : (modLine l f s).slab = s.slab := rfl
@[simp] theorem modLine_text (l : Line) (f : Line → Line) (s : State) : (modLine l f s).text = s.text := rfl

@[simp] theorem modSlabs_pending (f : SlabState → SlabState) (s : State) : (modSlabs f s).pending = s.pending := rfl
@[simp] theorem modSlabs_variant (f : SlabState → SlabState) (s : State) : (modSlabs f s).variant = s.variant := rfl
@[simp] theorem modSlabs_freeCtr (f : SlabState → SlabState) (s : State) : (modSlabs f s).freeCtr = s.freeCtr := rfl
@[simp] theorem modSlabs_clk (f : SlabState → SlabState) (s : State) : (modSlabs f s).clk = s.clk := rfl
@[simp] theorem modSlabs_fc (f : SlabState → SlabState) (s : State) : (modSlabs f s).fc = s.fc := rfl
@[simp] theorem modSlabs_tallies (f : SlabState → SlabState) (s : State) : (modSlabs f s).tallies = s.tallies := rfl
@[simp] theorem modSlabs_cmd (f : SlabState → SlabState) (s : State) : (modSlabs f s).cmd = s.cmd := rfl
@[simp] theorem modSlabs_pwr (f : SlabState → SlabState) (s : State) : (modSlabs f s).pwr = s.pwr := rfl
@[simp] theorem modSlabs_flt (f : SlabState → SlabState) (s : State) : (modSlabs f s).flt = s.flt := rfl
@[simp] theorem modSlabs_twin (f : SlabState → SlabState) (s : State) : (modSlabs f s).twin = s.twin := rfl
@[simp] theorem modSlabs_jtag (f : SlabState → SlabState) (s : State) : (modSlabs f s).jtag = s.jtag := rfl
@[simp] theorem modSlabs_flash (f : SlabState → SlabState) (s : State) : (modSlabs f s).flash = s.flash := rfl
@[simp] theorem modSlabs_fuses (f : SlabState → SlabState) (s : State) : (modSlabs f s).fuses = s.fuses := rfl
@[simp] theorem modSlabs_boot (f : SlabState → SlabState) (s : State) : (modSlabs f s).boot = s.boot := rfl
@[simp] theorem modSlabs_pins (f : SlabState → SlabState) (s : State) : (modSlabs f s).pins = s.pins := rfl
@[simp] theorem modSlabs_intk (f : SlabState → SlabState) (s : State) : (modSlabs f s).intk = s.intk := rfl
@[simp] theorem modSlabs_prep (f : SlabState → SlabState) (s : State) : (modSlabs f s).prep = s.prep := rfl
@[simp] theorem modSlabs_out (f : SlabState → SlabState) (s : State) : (modSlabs f s).out = s.out := rfl
@[simp] theorem modSlabs_image (f : SlabState → SlabState) (s : State) : (modSlabs f s).image = s.image := rfl
@[simp] theorem modSlabs_cores (f : SlabState → SlabState) (s : State) : (modSlabs f s).cores = s.cores := rfl
@[simp] theorem modSlabs_clusters (f : SlabState → SlabState) (s : State) : (modSlabs f s).clusters = s.clusters := rfl
@[simp] theorem modSlabs_coreMaps (f : SlabState → SlabState) (s : State) : (modSlabs f s).coreMaps = s.coreMaps := rfl
@[simp] theorem modSlabs_ctxs (f : SlabState → SlabState) (s : State) : (modSlabs f s).ctxs = s.ctxs := rfl
@[simp] theorem modSlabs_ctxCounts (f : SlabState → SlabState) (s : State) : (modSlabs f s).ctxCounts = s.ctxCounts := rfl
@[simp] theorem modSlabs_ddr (f : SlabState → SlabState) (s : State) : (modSlabs f s).ddr = s.ddr := rfl
@[simp] theorem modSlabs_coreSel (f : SlabState → SlabState) (s : State) : (modSlabs f s).coreSel = s.coreSel := rfl
@[simp] theorem modSlabs_qps (f : SlabState → SlabState) (s : State) : (modSlabs f s).qps = s.qps := rfl
@[simp] theorem modSlabs_serv (f : SlabState → SlabState) (s : State) : (modSlabs f s).serv = s.serv := rfl
@[simp] theorem modSlabs_text (f : SlabState → SlabState) (s : State) : (modSlabs f s).text = s.text := rfl

@[simp] theorem modTwin_pending (f : Twin → Twin) (s : State) : (modTwin f s).pending = s.pending := rfl
@[simp] theorem modTwin_variant (f : Twin → Twin) (s : State) : (modTwin f s).variant = s.variant := rfl
@[simp] theorem modTwin_freeCtr (f : Twin → Twin) (s : State) : (modTwin f s).freeCtr = s.freeCtr := rfl
@[simp] theorem modTwin_clk (f : Twin → Twin) (s : State) : (modTwin f s).clk = s.clk := rfl
@[simp] theorem modTwin_fc (f : Twin → Twin) (s : State) : (modTwin f s).fc = s.fc := rfl
@[simp] theorem modTwin_tallies (f : Twin → Twin) (s : State) : (modTwin f s).tallies = s.tallies := rfl
@[simp] theorem modTwin_cmd (f : Twin → Twin) (s : State) : (modTwin f s).cmd = s.cmd := rfl
@[simp] theorem modTwin_pwr (f : Twin → Twin) (s : State) : (modTwin f s).pwr = s.pwr := rfl
@[simp] theorem modTwin_flt (f : Twin → Twin) (s : State) : (modTwin f s).flt = s.flt := rfl
@[simp] theorem modTwin_jtag (f : Twin → Twin) (s : State) : (modTwin f s).jtag = s.jtag := rfl
@[simp] theorem modTwin_flash (f : Twin → Twin) (s : State) : (modTwin f s).flash = s.flash := rfl
@[simp] theorem modTwin_fuses (f : Twin → Twin) (s : State) : (modTwin f s).fuses = s.fuses := rfl
@[simp] theorem modTwin_boot (f : Twin → Twin) (s : State) : (modTwin f s).boot = s.boot := rfl
@[simp] theorem modTwin_pins (f : Twin → Twin) (s : State) : (modTwin f s).pins = s.pins := rfl
@[simp] theorem modTwin_intk (f : Twin → Twin) (s : State) : (modTwin f s).intk = s.intk := rfl
@[simp] theorem modTwin_prep (f : Twin → Twin) (s : State) : (modTwin f s).prep = s.prep := rfl
@[simp] theorem modTwin_out (f : Twin → Twin) (s : State) : (modTwin f s).out = s.out := rfl
@[simp] theorem modTwin_image (f : Twin → Twin) (s : State) : (modTwin f s).image = s.image := rfl
@[simp] theorem modTwin_cores (f : Twin → Twin) (s : State) : (modTwin f s).cores = s.cores := rfl
@[simp] theorem modTwin_clusters (f : Twin → Twin) (s : State) : (modTwin f s).clusters = s.clusters := rfl
@[simp] theorem modTwin_coreMaps (f : Twin → Twin) (s : State) : (modTwin f s).coreMaps = s.coreMaps := rfl
@[simp] theorem modTwin_ctxs (f : Twin → Twin) (s : State) : (modTwin f s).ctxs = s.ctxs := rfl
@[simp] theorem modTwin_ctxCounts (f : Twin → Twin) (s : State) : (modTwin f s).ctxCounts = s.ctxCounts := rfl
@[simp] theorem modTwin_ddr (f : Twin → Twin) (s : State) : (modTwin f s).ddr = s.ddr := rfl
@[simp] theorem modTwin_coreSel (f : Twin → Twin) (s : State) : (modTwin f s).coreSel = s.coreSel := rfl
@[simp] theorem modTwin_qps (f : Twin → Twin) (s : State) : (modTwin f s).qps = s.qps := rfl
@[simp] theorem modTwin_slab (f : Twin → Twin) (s : State) : (modTwin f s).slab = s.slab := rfl
@[simp] theorem modTwin_serv (f : Twin → Twin) (s : State) : (modTwin f s).serv = s.serv := rfl
@[simp] theorem modTwin_text (f : Twin → Twin) (s : State) : (modTwin f s).text = s.text := rfl

@[simp] theorem modBoot_pending (f : BootState → BootState) (s : State) : (modBoot f s).pending = s.pending := rfl
@[simp] theorem modBoot_variant (f : BootState → BootState) (s : State) : (modBoot f s).variant = s.variant := rfl
@[simp] theorem modBoot_freeCtr (f : BootState → BootState) (s : State) : (modBoot f s).freeCtr = s.freeCtr := rfl
@[simp] theorem modBoot_clk (f : BootState → BootState) (s : State) : (modBoot f s).clk = s.clk := rfl
@[simp] theorem modBoot_fc (f : BootState → BootState) (s : State) : (modBoot f s).fc = s.fc := rfl
@[simp] theorem modBoot_tallies (f : BootState → BootState) (s : State) : (modBoot f s).tallies = s.tallies := rfl
@[simp] theorem modBoot_cmd (f : BootState → BootState) (s : State) : (modBoot f s).cmd = s.cmd := rfl
@[simp] theorem modBoot_pwr (f : BootState → BootState) (s : State) : (modBoot f s).pwr = s.pwr := rfl
@[simp] theorem modBoot_flt (f : BootState → BootState) (s : State) : (modBoot f s).flt = s.flt := rfl
@[simp] theorem modBoot_twin (f : BootState → BootState) (s : State) : (modBoot f s).twin = s.twin := rfl
@[simp] theorem modBoot_jtag (f : BootState → BootState) (s : State) : (modBoot f s).jtag = s.jtag := rfl
@[simp] theorem modBoot_flash (f : BootState → BootState) (s : State) : (modBoot f s).flash = s.flash := rfl
@[simp] theorem modBoot_fuses (f : BootState → BootState) (s : State) : (modBoot f s).fuses = s.fuses := rfl
@[simp] theorem modBoot_pins (f : BootState → BootState) (s : State) : (modBoot f s).pins = s.pins := rfl
@[simp] theorem modBoot_intk (f : BootState → BootState) (s : State) : (modBoot f s).intk = s.intk := rfl
@[simp] theorem modBoot_prep (f : BootState → BootState) (s : State) : (modBoot f s).prep = s.prep := rfl
@[simp] theorem modBoot_out (f : BootState → BootState) (s : State) : (modBoot f s).out = s.out := rfl
@[simp] theorem modBoot_image (f : BootState → BootState) (s : State) : (modBoot f s).image = s.image := rfl
@[simp] theorem modBoot_cores (f : BootState → BootState) (s : State) : (modBoot f s).cores = s.cores := rfl
@[simp] theorem modBoot_clusters (f : BootState → BootState) (s : State) : (modBoot f s).clusters = s.clusters := rfl
@[simp] theorem modBoot_coreMaps (f : BootState → BootState) (s : State) : (modBoot f s).coreMaps = s.coreMaps := rfl
@[simp] theorem modBoot_ctxs (f : BootState → BootState) (s : State) : (modBoot f s).ctxs = s.ctxs := rfl
@[simp] theorem modBoot_ctxCounts (f : BootState → BootState) (s : State) : (modBoot f s).ctxCounts = s.ctxCounts := rfl
@[simp] theorem modBoot_ddr (f : BootState → BootState) (s : State) : (modBoot f s).ddr = s.ddr := rfl
@[simp] theorem modBoot_coreSel (f : BootState → BootState) (s : State) : (modBoot f s).coreSel = s.coreSel := rfl
@[simp] theorem modBoot_qps (f : BootState → BootState) (s : State) : (modBoot f s).qps = s.qps := rfl
@[simp] theorem modBoot_slab (f : BootState → BootState) (s : State) : (modBoot f s).slab = s.slab := rfl
@[simp] theorem modBoot_serv (f : BootState → BootState) (s : State) : (modBoot f s).serv = s.serv := rfl
@[simp] theorem modBoot_text (f : BootState → BootState) (s : State) : (modBoot f s).text = s.text := rfl

@[simp] theorem modJtag_pending (f : Jtag → Jtag) (s : State) : (modJtag f s).pending = s.pending := rfl
@[simp] theorem modJtag_variant (f : Jtag → Jtag) (s : State) : (modJtag f s).variant = s.variant := rfl
@[simp] theorem modJtag_freeCtr (f : Jtag → Jtag) (s : State) : (modJtag f s).freeCtr = s.freeCtr := rfl
@[simp] theorem modJtag_clk (f : Jtag → Jtag) (s : State) : (modJtag f s).clk = s.clk := rfl
@[simp] theorem modJtag_fc (f : Jtag → Jtag) (s : State) : (modJtag f s).fc = s.fc := rfl
@[simp] theorem modJtag_tallies (f : Jtag → Jtag) (s : State) : (modJtag f s).tallies = s.tallies := rfl
@[simp] theorem modJtag_cmd (f : Jtag → Jtag) (s : State) : (modJtag f s).cmd = s.cmd := rfl
@[simp] theorem modJtag_pwr (f : Jtag → Jtag) (s : State) : (modJtag f s).pwr = s.pwr := rfl
@[simp] theorem modJtag_flt (f : Jtag → Jtag) (s : State) : (modJtag f s).flt = s.flt := rfl
@[simp] theorem modJtag_twin (f : Jtag → Jtag) (s : State) : (modJtag f s).twin = s.twin := rfl
@[simp] theorem modJtag_flash (f : Jtag → Jtag) (s : State) : (modJtag f s).flash = s.flash := rfl
@[simp] theorem modJtag_fuses (f : Jtag → Jtag) (s : State) : (modJtag f s).fuses = s.fuses := rfl
@[simp] theorem modJtag_boot (f : Jtag → Jtag) (s : State) : (modJtag f s).boot = s.boot := rfl
@[simp] theorem modJtag_pins (f : Jtag → Jtag) (s : State) : (modJtag f s).pins = s.pins := rfl
@[simp] theorem modJtag_intk (f : Jtag → Jtag) (s : State) : (modJtag f s).intk = s.intk := rfl
@[simp] theorem modJtag_prep (f : Jtag → Jtag) (s : State) : (modJtag f s).prep = s.prep := rfl
@[simp] theorem modJtag_out (f : Jtag → Jtag) (s : State) : (modJtag f s).out = s.out := rfl
@[simp] theorem modJtag_image (f : Jtag → Jtag) (s : State) : (modJtag f s).image = s.image := rfl
@[simp] theorem modJtag_cores (f : Jtag → Jtag) (s : State) : (modJtag f s).cores = s.cores := rfl
@[simp] theorem modJtag_clusters (f : Jtag → Jtag) (s : State) : (modJtag f s).clusters = s.clusters := rfl
@[simp] theorem modJtag_coreMaps (f : Jtag → Jtag) (s : State) : (modJtag f s).coreMaps = s.coreMaps := rfl
@[simp] theorem modJtag_ctxs (f : Jtag → Jtag) (s : State) : (modJtag f s).ctxs = s.ctxs := rfl
@[simp] theorem modJtag_ctxCounts (f : Jtag → Jtag) (s : State) : (modJtag f s).ctxCounts = s.ctxCounts := rfl
@[simp] theorem modJtag_ddr (f : Jtag → Jtag) (s : State) : (modJtag f s).ddr = s.ddr := rfl
@[simp] theorem modJtag_coreSel (f : Jtag → Jtag) (s : State) : (modJtag f s).coreSel = s.coreSel := rfl
@[simp] theorem modJtag_qps (f : Jtag → Jtag) (s : State) : (modJtag f s).qps = s.qps := rfl
@[simp] theorem modJtag_slab (f : Jtag → Jtag) (s : State) : (modJtag f s).slab = s.slab := rfl
@[simp] theorem modJtag_serv (f : Jtag → Jtag) (s : State) : (modJtag f s).serv = s.serv := rfl
@[simp] theorem modJtag_text (f : Jtag → Jtag) (s : State) : (modJtag f s).text = s.text := rfl

@[simp] theorem modSlot_pending (n : Nat) (f : Slot → Slot) (s : State) : (modSlot n f s).pending = s.pending := rfl
@[simp] theorem modSlot_variant (n : Nat) (f : Slot → Slot) (s : State) : (modSlot n f s).variant = s.variant := rfl
@[simp] theorem modSlot_freeCtr (n : Nat) (f : Slot → Slot) (s : State) : (modSlot n f s).freeCtr = s.freeCtr := rfl
@[simp] theorem modSlot_clk (n : Nat) (f : Slot → Slot) (s : State) : (modSlot n f s).clk = s.clk := rfl
@[simp] theorem modSlot_tallies (n : Nat) (f : Slot → Slot) (s : State) : (modSlot n f s).tallies = s.tallies := rfl
@[simp] theorem modSlot_cmd (n : Nat) (f : Slot → Slot) (s : State) : (modSlot n f s).cmd = s.cmd := rfl
@[simp] theorem modSlot_pwr (n : Nat) (f : Slot → Slot) (s : State) : (modSlot n f s).pwr = s.pwr := rfl
@[simp] theorem modSlot_flt (n : Nat) (f : Slot → Slot) (s : State) : (modSlot n f s).flt = s.flt := rfl
@[simp] theorem modSlot_twin (n : Nat) (f : Slot → Slot) (s : State) : (modSlot n f s).twin = s.twin := rfl
@[simp] theorem modSlot_jtag (n : Nat) (f : Slot → Slot) (s : State) : (modSlot n f s).jtag = s.jtag := rfl
@[simp] theorem modSlot_flash (n : Nat) (f : Slot → Slot) (s : State) : (modSlot n f s).flash = s.flash := rfl
@[simp] theorem modSlot_fuses (n : Nat) (f : Slot → Slot) (s : State) : (modSlot n f s).fuses = s.fuses := rfl
@[simp] theorem modSlot_boot (n : Nat) (f : Slot → Slot) (s : State) : (modSlot n f s).boot = s.boot := rfl
@[simp] theorem modSlot_pins (n : Nat) (f : Slot → Slot) (s : State) : (modSlot n f s).pins = s.pins := rfl
@[simp] theorem modSlot_intk (n : Nat) (f : Slot → Slot) (s : State) : (modSlot n f s).intk = s.intk := rfl
@[simp] theorem modSlot_prep (n : Nat) (f : Slot → Slot) (s : State) : (modSlot n f s).prep = s.prep := rfl
@[simp] theorem modSlot_out (n : Nat) (f : Slot → Slot) (s : State) : (modSlot n f s).out = s.out := rfl
@[simp] theorem modSlot_image (n : Nat) (f : Slot → Slot) (s : State) : (modSlot n f s).image = s.image := rfl
@[simp] theorem modSlot_cores (n : Nat) (f : Slot → Slot) (s : State) : (modSlot n f s).cores = s.cores := rfl
@[simp] theorem modSlot_clusters (n : Nat) (f : Slot → Slot) (s : State) : (modSlot n f s).clusters = s.clusters := rfl
@[simp] theorem modSlot_coreMaps (n : Nat) (f : Slot → Slot) (s : State) : (modSlot n f s).coreMaps = s.coreMaps := rfl
@[simp] theorem modSlot_ctxs (n : Nat) (f : Slot → Slot) (s : State) : (modSlot n f s).ctxs = s.ctxs := rfl
@[simp] theorem modSlot_ctxCounts (n : Nat) (f : Slot → Slot) (s : State) : (modSlot n f s).ctxCounts = s.ctxCounts := rfl
@[simp] theorem modSlot_ddr (n : Nat) (f : Slot → Slot) (s : State) : (modSlot n f s).ddr = s.ddr := rfl
@[simp] theorem modSlot_coreSel (n : Nat) (f : Slot → Slot) (s : State) : (modSlot n f s).coreSel = s.coreSel := rfl
@[simp] theorem modSlot_qps (n : Nat) (f : Slot → Slot) (s : State) : (modSlot n f s).qps = s.qps := rfl
@[simp] theorem modSlot_slab (n : Nat) (f : Slot → Slot) (s : State) : (modSlot n f s).slab = s.slab := rfl
@[simp] theorem modSlot_serv (n : Nat) (f : Slot → Slot) (s : State) : (modSlot n f s).serv = s.serv := rfl
@[simp] theorem modSlot_text (n : Nat) (f : Slot → Slot) (s : State) : (modSlot n f s).text = s.text := rfl

@[simp] theorem mapSlots_pending (f : Slot → Slot) (s : State) : (mapSlots f s).pending = s.pending := rfl
@[simp] theorem mapSlots_variant (f : Slot → Slot) (s : State) : (mapSlots f s).variant = s.variant := rfl
@[simp] theorem mapSlots_freeCtr (f : Slot → Slot) (s : State) : (mapSlots f s).freeCtr = s.freeCtr := rfl
@[simp] theorem mapSlots_clk (f : Slot → Slot) (s : State) : (mapSlots f s).clk = s.clk := rfl
@[simp] theorem mapSlots_tallies (f : Slot → Slot) (s : State) : (mapSlots f s).tallies = s.tallies := rfl
@[simp] theorem mapSlots_cmd (f : Slot → Slot) (s : State) : (mapSlots f s).cmd = s.cmd := rfl
@[simp] theorem mapSlots_pwr (f : Slot → Slot) (s : State) : (mapSlots f s).pwr = s.pwr := rfl
@[simp] theorem mapSlots_flt (f : Slot → Slot) (s : State) : (mapSlots f s).flt = s.flt := rfl
@[simp] theorem mapSlots_twin (f : Slot → Slot) (s : State) : (mapSlots f s).twin = s.twin := rfl
@[simp] theorem mapSlots_jtag (f : Slot → Slot) (s : State) : (mapSlots f s).jtag = s.jtag := rfl
@[simp] theorem mapSlots_flash (f : Slot → Slot) (s : State) : (mapSlots f s).flash = s.flash := rfl
@[simp] theorem mapSlots_fuses (f : Slot → Slot) (s : State) : (mapSlots f s).fuses = s.fuses := rfl
@[simp] theorem mapSlots_boot (f : Slot → Slot) (s : State) : (mapSlots f s).boot = s.boot := rfl
@[simp] theorem mapSlots_pins (f : Slot → Slot) (s : State) : (mapSlots f s).pins = s.pins := rfl
@[simp] theorem mapSlots_intk (f : Slot → Slot) (s : State) : (mapSlots f s).intk = s.intk := rfl
@[simp] theorem mapSlots_prep (f : Slot → Slot) (s : State) : (mapSlots f s).prep = s.prep := rfl
@[simp] theorem mapSlots_out (f : Slot → Slot) (s : State) : (mapSlots f s).out = s.out := rfl
@[simp] theorem mapSlots_image (f : Slot → Slot) (s : State) : (mapSlots f s).image = s.image := rfl
@[simp] theorem mapSlots_cores (f : Slot → Slot) (s : State) : (mapSlots f s).cores = s.cores := rfl
@[simp] theorem mapSlots_clusters (f : Slot → Slot) (s : State) : (mapSlots f s).clusters = s.clusters := rfl
@[simp] theorem mapSlots_coreMaps (f : Slot → Slot) (s : State) : (mapSlots f s).coreMaps = s.coreMaps := rfl
@[simp] theorem mapSlots_ctxs (f : Slot → Slot) (s : State) : (mapSlots f s).ctxs = s.ctxs := rfl
@[simp] theorem mapSlots_ctxCounts (f : Slot → Slot) (s : State) : (mapSlots f s).ctxCounts = s.ctxCounts := rfl
@[simp] theorem mapSlots_ddr (f : Slot → Slot) (s : State) : (mapSlots f s).ddr = s.ddr := rfl
@[simp] theorem mapSlots_coreSel (f : Slot → Slot) (s : State) : (mapSlots f s).coreSel = s.coreSel := rfl
@[simp] theorem mapSlots_qps (f : Slot → Slot) (s : State) : (mapSlots f s).qps = s.qps := rfl
@[simp] theorem mapSlots_slab (f : Slot → Slot) (s : State) : (mapSlots f s).slab = s.slab := rfl
@[simp] theorem mapSlots_serv (f : Slot → Slot) (s : State) : (mapSlots f s).serv = s.serv := rfl
@[simp] theorem mapSlots_text (f : Slot → Slot) (s : State) : (mapSlots f s).text = s.text := rfl

@[simp] theorem freeSlot_pending (n : Nat) (s : State) : (freeSlot n s).pending = s.pending := rfl
@[simp] theorem freeSlot_variant (n : Nat) (s : State) : (freeSlot n s).variant = s.variant := rfl
@[simp] theorem freeSlot_freeCtr (n : Nat) (s : State) : (freeSlot n s).freeCtr = s.freeCtr := rfl
@[simp] theorem freeSlot_clk (n : Nat) (s : State) : (freeSlot n s).clk = s.clk := rfl
@[simp] theorem freeSlot_tallies (n : Nat) (s : State) : (freeSlot n s).tallies = s.tallies := rfl
@[simp] theorem freeSlot_cmd (n : Nat) (s : State) : (freeSlot n s).cmd = s.cmd := rfl
@[simp] theorem freeSlot_pwr (n : Nat) (s : State) : (freeSlot n s).pwr = s.pwr := rfl
@[simp] theorem freeSlot_flt (n : Nat) (s : State) : (freeSlot n s).flt = s.flt := rfl
@[simp] theorem freeSlot_twin (n : Nat) (s : State) : (freeSlot n s).twin = s.twin := rfl
@[simp] theorem freeSlot_jtag (n : Nat) (s : State) : (freeSlot n s).jtag = s.jtag := rfl
@[simp] theorem freeSlot_flash (n : Nat) (s : State) : (freeSlot n s).flash = s.flash := rfl
@[simp] theorem freeSlot_fuses (n : Nat) (s : State) : (freeSlot n s).fuses = s.fuses := rfl
@[simp] theorem freeSlot_boot (n : Nat) (s : State) : (freeSlot n s).boot = s.boot := rfl
@[simp] theorem freeSlot_pins (n : Nat) (s : State) : (freeSlot n s).pins = s.pins := rfl
@[simp] theorem freeSlot_intk (n : Nat) (s : State) : (freeSlot n s).intk = s.intk := rfl
@[simp] theorem freeSlot_prep (n : Nat) (s : State) : (freeSlot n s).prep = s.prep := rfl
@[simp] theorem freeSlot_out (n : Nat) (s : State) : (freeSlot n s).out = s.out := rfl
@[simp] theorem freeSlot_image (n : Nat) (s : State) : (freeSlot n s).image = s.image := rfl
@[simp] theorem freeSlot_cores (n : Nat) (s : State) : (freeSlot n s).cores = s.cores := rfl
@[simp] theorem freeSlot_clusters (n : Nat) (s : State) : (freeSlot n s).clusters = s.clusters := rfl
@[simp] theorem freeSlot_coreMaps (n : Nat) (s : State) : (freeSlot n s).coreMaps = s.coreMaps := rfl
@[simp] theorem freeSlot_ctxs (n : Nat) (s : State) : (freeSlot n s).ctxs = s.ctxs := rfl
@[simp] theorem freeSlot_ctxCounts (n : Nat) (s : State) : (freeSlot n s).ctxCounts = s.ctxCounts := rfl
@[simp] theorem freeSlot_ddr (n : Nat) (s : State) : (freeSlot n s).ddr = s.ddr := rfl
@[simp] theorem freeSlot_coreSel (n : Nat) (s : State) : (freeSlot n s).coreSel = s.coreSel := rfl
@[simp] theorem freeSlot_qps (n : Nat) (s : State) : (freeSlot n s).qps = s.qps := rfl
@[simp] theorem freeSlot_slab (n : Nat) (s : State) : (freeSlot n s).slab = s.slab := rfl
@[simp] theorem freeSlot_serv (n : Nat) (s : State) : (freeSlot n s).serv = s.serv := rfl
@[simp] theorem freeSlot_text (n : Nat) (s : State) : (freeSlot n s).text = s.text := rfl

@[simp] theorem setStack_pending (k : Nat) (x : StackState) (s : State) : (setStack k x s).pending = s.pending := rfl
@[simp] theorem setStack_variant (k : Nat) (x : StackState) (s : State) : (setStack k x s).variant = s.variant := rfl
@[simp] theorem setStack_freeCtr (k : Nat) (x : StackState) (s : State) : (setStack k x s).freeCtr = s.freeCtr := rfl
@[simp] theorem setStack_clk (k : Nat) (x : StackState) (s : State) : (setStack k x s).clk = s.clk := rfl
@[simp] theorem setStack_fc (k : Nat) (x : StackState) (s : State) : (setStack k x s).fc = s.fc := rfl
@[simp] theorem setStack_tallies (k : Nat) (x : StackState) (s : State) : (setStack k x s).tallies = s.tallies := rfl
@[simp] theorem setStack_cmd (k : Nat) (x : StackState) (s : State) : (setStack k x s).cmd = s.cmd := rfl
@[simp] theorem setStack_flt (k : Nat) (x : StackState) (s : State) : (setStack k x s).flt = s.flt := rfl
@[simp] theorem setStack_twin (k : Nat) (x : StackState) (s : State) : (setStack k x s).twin = s.twin := rfl
@[simp] theorem setStack_jtag (k : Nat) (x : StackState) (s : State) : (setStack k x s).jtag = s.jtag := rfl
@[simp] theorem setStack_flash (k : Nat) (x : StackState) (s : State) : (setStack k x s).flash = s.flash := rfl
@[simp] theorem setStack_fuses (k : Nat) (x : StackState) (s : State) : (setStack k x s).fuses = s.fuses := rfl
@[simp] theorem setStack_boot (k : Nat) (x : StackState) (s : State) : (setStack k x s).boot = s.boot := rfl
@[simp] theorem setStack_pins (k : Nat) (x : StackState) (s : State) : (setStack k x s).pins = s.pins := rfl
@[simp] theorem setStack_intk (k : Nat) (x : StackState) (s : State) : (setStack k x s).intk = s.intk := rfl
@[simp] theorem setStack_prep (k : Nat) (x : StackState) (s : State) : (setStack k x s).prep = s.prep := rfl
@[simp] theorem setStack_out (k : Nat) (x : StackState) (s : State) : (setStack k x s).out = s.out := rfl
@[simp] theorem setStack_image (k : Nat) (x : StackState) (s : State) : (setStack k x s).image = s.image := rfl
@[simp] theorem setStack_cores (k : Nat) (x : StackState) (s : State) : (setStack k x s).cores = s.cores := rfl
@[simp] theorem setStack_clusters (k : Nat) (x : StackState) (s : State) : (setStack k x s).clusters = s.clusters := rfl
@[simp] theorem setStack_coreMaps (k : Nat) (x : StackState) (s : State) : (setStack k x s).coreMaps = s.coreMaps := rfl
@[simp] theorem setStack_ctxs (k : Nat) (x : StackState) (s : State) : (setStack k x s).ctxs = s.ctxs := rfl
@[simp] theorem setStack_ctxCounts (k : Nat) (x : StackState) (s : State) : (setStack k x s).ctxCounts = s.ctxCounts := rfl
@[simp] theorem setStack_ddr (k : Nat) (x : StackState) (s : State) : (setStack k x s).ddr = s.ddr := rfl
@[simp] theorem setStack_coreSel (k : Nat) (x : StackState) (s : State) : (setStack k x s).coreSel = s.coreSel := rfl
@[simp] theorem setStack_qps (k : Nat) (x : StackState) (s : State) : (setStack k x s).qps = s.qps := rfl
@[simp] theorem setStack_slab (k : Nat) (x : StackState) (s : State) : (setStack k x s).slab = s.slab := rfl
@[simp] theorem setStack_serv (k : Nat) (x : StackState) (s : State) : (setStack k x s).serv = s.serv := rfl
@[simp] theorem setStack_text (k : Nat) (x : StackState) (s : State) : (setStack k x s).text = s.text := rfl

@[simp] theorem giveBack_pending (h : Holder) (s : State) : (giveBack h s).pending = s.pending := rfl
@[simp] theorem giveBack_variant (h : Holder) (s : State) : (giveBack h s).variant = s.variant := rfl
@[simp] theorem giveBack_freeCtr (h : Holder) (s : State) : (giveBack h s).freeCtr = s.freeCtr := rfl
@[simp] theorem giveBack_clk (h : Holder) (s : State) : (giveBack h s).clk = s.clk := rfl
@[simp] theorem giveBack_fc (h : Holder) (s : State) : (giveBack h s).fc = s.fc := rfl
@[simp] theorem giveBack_tallies (h : Holder) (s : State) : (giveBack h s).tallies = s.tallies := rfl
@[simp] theorem giveBack_cmd (h : Holder) (s : State) : (giveBack h s).cmd = s.cmd := rfl
@[simp] theorem giveBack_flt (h : Holder) (s : State) : (giveBack h s).flt = s.flt := rfl
@[simp] theorem giveBack_twin (h : Holder) (s : State) : (giveBack h s).twin = s.twin := rfl
@[simp] theorem giveBack_jtag (h : Holder) (s : State) : (giveBack h s).jtag = s.jtag := rfl
@[simp] theorem giveBack_flash (h : Holder) (s : State) : (giveBack h s).flash = s.flash := rfl
@[simp] theorem giveBack_fuses (h : Holder) (s : State) : (giveBack h s).fuses = s.fuses := rfl
@[simp] theorem giveBack_boot (h : Holder) (s : State) : (giveBack h s).boot = s.boot := rfl
@[simp] theorem giveBack_pins (h : Holder) (s : State) : (giveBack h s).pins = s.pins := rfl
@[simp] theorem giveBack_intk (h : Holder) (s : State) : (giveBack h s).intk = s.intk := rfl
@[simp] theorem giveBack_prep (h : Holder) (s : State) : (giveBack h s).prep = s.prep := rfl
@[simp] theorem giveBack_out (h : Holder) (s : State) : (giveBack h s).out = s.out := rfl
@[simp] theorem giveBack_image (h : Holder) (s : State) : (giveBack h s).image = s.image := rfl
@[simp] theorem giveBack_cores (h : Holder) (s : State) : (giveBack h s).cores = s.cores := rfl
@[simp] theorem giveBack_clusters (h : Holder) (s : State) : (giveBack h s).clusters = s.clusters := rfl
@[simp] theorem giveBack_coreMaps (h : Holder) (s : State) : (giveBack h s).coreMaps = s.coreMaps := rfl
@[simp] theorem giveBack_ctxs (h : Holder) (s : State) : (giveBack h s).ctxs = s.ctxs := rfl
@[simp] theorem giveBack_ctxCounts (h : Holder) (s : State) : (giveBack h s).ctxCounts = s.ctxCounts := rfl
@[simp] theorem giveBack_ddr (h : Holder) (s : State) : (giveBack h s).ddr = s.ddr := rfl
@[simp] theorem giveBack_coreSel (h : Holder) (s : State) : (giveBack h s).coreSel = s.coreSel := rfl
@[simp] theorem giveBack_qps (h : Holder) (s : State) : (giveBack h s).qps = s.qps := rfl
@[simp] theorem giveBack_slab (h : Holder) (s : State) : (giveBack h s).slab = s.slab := rfl
@[simp] theorem giveBack_serv (h : Holder) (s : State) : (giveBack h s).serv = s.serv := rfl
@[simp] theorem giveBack_text (h : Holder) (s : State) : (giveBack h s).text = s.text := rfl

@[simp] theorem setTally_pending (n : Nat) (t : Tally) (s : State) : (setTally n t s).pending = s.pending := rfl
@[simp] theorem setTally_variant (n : Nat) (t : Tally) (s : State) : (setTally n t s).variant = s.variant := rfl
@[simp] theorem setTally_freeCtr (n : Nat) (t : Tally) (s : State) : (setTally n t s).freeCtr = s.freeCtr := rfl
@[simp] theorem setTally_clk (n : Nat) (t : Tally) (s : State) : (setTally n t s).clk = s.clk := rfl
@[simp] theorem setTally_fc (n : Nat) (t : Tally) (s : State) : (setTally n t s).fc = s.fc := rfl
@[simp] theorem setTally_cmd (n : Nat) (t : Tally) (s : State) : (setTally n t s).cmd = s.cmd := rfl
@[simp] theorem setTally_pwr (n : Nat) (t : Tally) (s : State) : (setTally n t s).pwr = s.pwr := rfl
@[simp] theorem setTally_flt (n : Nat) (t : Tally) (s : State) : (setTally n t s).flt = s.flt := rfl
@[simp] theorem setTally_twin (n : Nat) (t : Tally) (s : State) : (setTally n t s).twin = s.twin := rfl
@[simp] theorem setTally_jtag (n : Nat) (t : Tally) (s : State) : (setTally n t s).jtag = s.jtag := rfl
@[simp] theorem setTally_flash (n : Nat) (t : Tally) (s : State) : (setTally n t s).flash = s.flash := rfl
@[simp] theorem setTally_fuses (n : Nat) (t : Tally) (s : State) : (setTally n t s).fuses = s.fuses := rfl
@[simp] theorem setTally_boot (n : Nat) (t : Tally) (s : State) : (setTally n t s).boot = s.boot := rfl
@[simp] theorem setTally_pins (n : Nat) (t : Tally) (s : State) : (setTally n t s).pins = s.pins := rfl
@[simp] theorem setTally_intk (n : Nat) (t : Tally) (s : State) : (setTally n t s).intk = s.intk := rfl
@[simp] theorem setTally_prep (n : Nat) (t : Tally) (s : State) : (setTally n t s).prep = s.prep := rfl
@[simp] theorem setTally_out (n : Nat) (t : Tally) (s : State) : (setTally n t s).out = s.out := rfl
@[simp] theorem setTally_image (n : Nat) (t : Tally) (s : State) : (setTally n t s).image = s.image := rfl
@[simp] theorem setTally_cores (n : Nat) (t : Tally) (s : State) : (setTally n t s).cores = s.cores := rfl
@[simp] theorem setTally_clusters (n : Nat) (t : Tally) (s : State) : (setTally n t s).clusters = s.clusters := rfl
@[simp] theorem setTally_coreMaps (n : Nat) (t : Tally) (s : State) : (setTally n t s).coreMaps = s.coreMaps := rfl
@[simp] theorem setTally_ctxs (n : Nat) (t : Tally) (s : State) : (setTally n t s).ctxs = s.ctxs := rfl
@[simp] theorem setTally_ctxCounts (n : Nat) (t : Tally) (s : State) : (setTally n t s).ctxCounts = s.ctxCounts := rfl
@[simp] theorem setTally_ddr (n : Nat) (t : Tally) (s : State) : (setTally n t s).ddr = s.ddr := rfl
@[simp] theorem setTally_coreSel (n : Nat) (t : Tally) (s : State) : (setTally n t s).coreSel = s.coreSel := rfl
@[simp] theorem setTally_qps (n : Nat) (t : Tally) (s : State) : (setTally n t s).qps = s.qps := rfl
@[simp] theorem setTally_slab (n : Nat) (t : Tally) (s : State) : (setTally n t s).slab = s.slab := rfl
@[simp] theorem setTally_serv (n : Nat) (t : Tally) (s : State) : (setTally n t s).serv = s.serv := rfl
@[simp] theorem setTally_text (n : Nat) (t : Tally) (s : State) : (setTally n t s).text = s.text := rfl

@[simp] theorem drive_pending (p : Nat) (b : Bool) (s : State) : (drive p b s).pending = s.pending := rfl
@[simp] theorem drive_variant (p : Nat) (b : Bool) (s : State) : (drive p b s).variant = s.variant := rfl
@[simp] theorem drive_freeCtr (p : Nat) (b : Bool) (s : State) : (drive p b s).freeCtr = s.freeCtr := rfl
@[simp] theorem drive_clk (p : Nat) (b : Bool) (s : State) : (drive p b s).clk = s.clk := rfl
@[simp] theorem drive_fc (p : Nat) (b : Bool) (s : State) : (drive p b s).fc = s.fc := rfl
@[simp] theorem drive_tallies (p : Nat) (b : Bool) (s : State) : (drive p b s).tallies = s.tallies := rfl
@[simp] theorem drive_cmd (p : Nat) (b : Bool) (s : State) : (drive p b s).cmd = s.cmd := rfl
@[simp] theorem drive_pwr (p : Nat) (b : Bool) (s : State) : (drive p b s).pwr = s.pwr := rfl
@[simp] theorem drive_flt (p : Nat) (b : Bool) (s : State) : (drive p b s).flt = s.flt := rfl
@[simp] theorem drive_twin (p : Nat) (b : Bool) (s : State) : (drive p b s).twin = s.twin := rfl
@[simp] theorem drive_jtag (p : Nat) (b : Bool) (s : State) : (drive p b s).jtag = s.jtag := rfl
@[simp] theorem drive_flash (p : Nat) (b : Bool) (s : State) : (drive p b s).flash = s.flash := rfl
@[simp] theorem drive_fuses (p : Nat) (b : Bool) (s : State) : (drive p b s).fuses = s.fuses := rfl
@[simp] theorem drive_boot (p : Nat) (b : Bool) (s : State) : (drive p b s).boot = s.boot := rfl
@[simp] theorem drive_intk (p : Nat) (b : Bool) (s : State) : (drive p b s).intk = s.intk := rfl
@[simp] theorem drive_prep (p : Nat) (b : Bool) (s : State) : (drive p b s).prep = s.prep := rfl
@[simp] theorem drive_out (p : Nat) (b : Bool) (s : State) : (drive p b s).out = s.out := rfl
@[simp] theorem drive_image (p : Nat) (b : Bool) (s : State) : (drive p b s).image = s.image := rfl
@[simp] theorem drive_cores (p : Nat) (b : Bool) (s : State) : (drive p b s).cores = s.cores := rfl
@[simp] theorem drive_clusters (p : Nat) (b : Bool) (s : State) : (drive p b s).clusters = s.clusters := rfl
@[simp] theorem drive_coreMaps (p : Nat) (b : Bool) (s : State) : (drive p b s).coreMaps = s.coreMaps := rfl
@[simp] theorem drive_ctxs (p : Nat) (b : Bool) (s : State) : (drive p b s).ctxs = s.ctxs := rfl
@[simp] theorem drive_ctxCounts (p : Nat) (b : Bool) (s : State) : (drive p b s).ctxCounts = s.ctxCounts := rfl
@[simp] theorem drive_ddr (p : Nat) (b : Bool) (s : State) : (drive p b s).ddr = s.ddr := rfl
@[simp] theorem drive_coreSel (p : Nat) (b : Bool) (s : State) : (drive p b s).coreSel = s.coreSel := rfl
@[simp] theorem drive_qps (p : Nat) (b : Bool) (s : State) : (drive p b s).qps = s.qps := rfl
@[simp] theorem drive_slab (p : Nat) (b : Bool) (s : State) : (drive p b s).slab = s.slab := rfl
@[simp] theorem drive_serv (p : Nat) (b : Bool) (s : State) : (drive p b s).serv = s.serv := rfl
@[simp] theorem drive_text (p : Nat) (b : Bool) (s : State) : (drive p b s).text = s.text := rfl

@[simp] theorem modTx_pending (p : Nat) (f : TxPort → TxPort) (s : State) : (modTx p f s).pending = s.pending := rfl
@[simp] theorem modTx_variant (p : Nat) (f : TxPort → TxPort) (s : State) : (modTx p f s).variant = s.variant := rfl
@[simp] theorem modTx_freeCtr (p : Nat) (f : TxPort → TxPort) (s : State) : (modTx p f s).freeCtr = s.freeCtr := rfl
@[simp] theorem modTx_clk (p : Nat) (f : TxPort → TxPort) (s : State) : (modTx p f s).clk = s.clk := rfl
@[simp] theorem modTx_fc (p : Nat) (f : TxPort → TxPort) (s : State) : (modTx p f s).fc = s.fc := rfl
@[simp] theorem modTx_tallies (p : Nat) (f : TxPort → TxPort) (s : State) : (modTx p f s).tallies = s.tallies := rfl
@[simp] theorem modTx_cmd (p : Nat) (f : TxPort → TxPort) (s : State) : (modTx p f s).cmd = s.cmd := rfl
@[simp] theorem modTx_pwr (p : Nat) (f : TxPort → TxPort) (s : State) : (modTx p f s).pwr = s.pwr := rfl
@[simp] theorem modTx_flt (p : Nat) (f : TxPort → TxPort) (s : State) : (modTx p f s).flt = s.flt := rfl
@[simp] theorem modTx_twin (p : Nat) (f : TxPort → TxPort) (s : State) : (modTx p f s).twin = s.twin := rfl
@[simp] theorem modTx_jtag (p : Nat) (f : TxPort → TxPort) (s : State) : (modTx p f s).jtag = s.jtag := rfl
@[simp] theorem modTx_flash (p : Nat) (f : TxPort → TxPort) (s : State) : (modTx p f s).flash = s.flash := rfl
@[simp] theorem modTx_fuses (p : Nat) (f : TxPort → TxPort) (s : State) : (modTx p f s).fuses = s.fuses := rfl
@[simp] theorem modTx_boot (p : Nat) (f : TxPort → TxPort) (s : State) : (modTx p f s).boot = s.boot := rfl
@[simp] theorem modTx_pins (p : Nat) (f : TxPort → TxPort) (s : State) : (modTx p f s).pins = s.pins := rfl
@[simp] theorem modTx_intk (p : Nat) (f : TxPort → TxPort) (s : State) : (modTx p f s).intk = s.intk := rfl
@[simp] theorem modTx_prep (p : Nat) (f : TxPort → TxPort) (s : State) : (modTx p f s).prep = s.prep := rfl
@[simp] theorem modTx_image (p : Nat) (f : TxPort → TxPort) (s : State) : (modTx p f s).image = s.image := rfl
@[simp] theorem modTx_cores (p : Nat) (f : TxPort → TxPort) (s : State) : (modTx p f s).cores = s.cores := rfl
@[simp] theorem modTx_clusters (p : Nat) (f : TxPort → TxPort) (s : State) : (modTx p f s).clusters = s.clusters := rfl
@[simp] theorem modTx_coreMaps (p : Nat) (f : TxPort → TxPort) (s : State) : (modTx p f s).coreMaps = s.coreMaps := rfl
@[simp] theorem modTx_ctxs (p : Nat) (f : TxPort → TxPort) (s : State) : (modTx p f s).ctxs = s.ctxs := rfl
@[simp] theorem modTx_ctxCounts (p : Nat) (f : TxPort → TxPort) (s : State) : (modTx p f s).ctxCounts = s.ctxCounts := rfl
@[simp] theorem modTx_ddr (p : Nat) (f : TxPort → TxPort) (s : State) : (modTx p f s).ddr = s.ddr := rfl
@[simp] theorem modTx_coreSel (p : Nat) (f : TxPort → TxPort) (s : State) : (modTx p f s).coreSel = s.coreSel := rfl
@[simp] theorem modTx_qps (p : Nat) (f : TxPort → TxPort) (s : State) : (modTx p f s).qps = s.qps := rfl
@[simp] theorem modTx_slab (p : Nat) (f : TxPort → TxPort) (s : State) : (modTx p f s).slab = s.slab := rfl
@[simp] theorem modTx_serv (p : Nat) (f : TxPort → TxPort) (s : State) : (modTx p f s).serv = s.serv := rfl
@[simp] theorem modTx_text (p : Nat) (f : TxPort → TxPort) (s : State) : (modTx p f s).text = s.text := rfl

@[simp] theorem modMask_pending (k : Nat) (f : MaskUnit → MaskUnit) (s : State) : (modMask k f s).pending = s.pending := rfl
@[simp] theorem modMask_variant (k : Nat) (f : MaskUnit → MaskUnit) (s : State) : (modMask k f s).variant = s.variant := rfl
@[simp] theorem modMask_freeCtr (k : Nat) (f : MaskUnit → MaskUnit) (s : State) : (modMask k f s).freeCtr = s.freeCtr := rfl
@[simp] theorem modMask_clk (k : Nat) (f : MaskUnit → MaskUnit) (s : State) : (modMask k f s).clk = s.clk := rfl
@[simp] theorem modMask_fc (k : Nat) (f : MaskUnit → MaskUnit) (s : State) : (modMask k f s).fc = s.fc := rfl
@[simp] theorem modMask_tallies (k : Nat) (f : MaskUnit → MaskUnit) (s : State) : (modMask k f s).tallies = s.tallies := rfl
@[simp] theorem modMask_cmd (k : Nat) (f : MaskUnit → MaskUnit) (s : State) : (modMask k f s).cmd = s.cmd := rfl
@[simp] theorem modMask_pwr (k : Nat) (f : MaskUnit → MaskUnit) (s : State) : (modMask k f s).pwr = s.pwr := rfl
@[simp] theorem modMask_flt (k : Nat) (f : MaskUnit → MaskUnit) (s : State) : (modMask k f s).flt = s.flt := rfl
@[simp] theorem modMask_twin (k : Nat) (f : MaskUnit → MaskUnit) (s : State) : (modMask k f s).twin = s.twin := rfl
@[simp] theorem modMask_jtag (k : Nat) (f : MaskUnit → MaskUnit) (s : State) : (modMask k f s).jtag = s.jtag := rfl
@[simp] theorem modMask_flash (k : Nat) (f : MaskUnit → MaskUnit) (s : State) : (modMask k f s).flash = s.flash := rfl
@[simp] theorem modMask_fuses (k : Nat) (f : MaskUnit → MaskUnit) (s : State) : (modMask k f s).fuses = s.fuses := rfl
@[simp] theorem modMask_boot (k : Nat) (f : MaskUnit → MaskUnit) (s : State) : (modMask k f s).boot = s.boot := rfl
@[simp] theorem modMask_pins (k : Nat) (f : MaskUnit → MaskUnit) (s : State) : (modMask k f s).pins = s.pins := rfl
@[simp] theorem modMask_intk (k : Nat) (f : MaskUnit → MaskUnit) (s : State) : (modMask k f s).intk = s.intk := rfl
@[simp] theorem modMask_prep (k : Nat) (f : MaskUnit → MaskUnit) (s : State) : (modMask k f s).prep = s.prep := rfl
@[simp] theorem modMask_out (k : Nat) (f : MaskUnit → MaskUnit) (s : State) : (modMask k f s).out = s.out := rfl
@[simp] theorem modMask_image (k : Nat) (f : MaskUnit → MaskUnit) (s : State) : (modMask k f s).image = s.image := rfl
@[simp] theorem modMask_cores (k : Nat) (f : MaskUnit → MaskUnit) (s : State) : (modMask k f s).cores = s.cores := rfl
@[simp] theorem modMask_clusters (k : Nat) (f : MaskUnit → MaskUnit) (s : State) : (modMask k f s).clusters = s.clusters := rfl
@[simp] theorem modMask_coreMaps (k : Nat) (f : MaskUnit → MaskUnit) (s : State) : (modMask k f s).coreMaps = s.coreMaps := rfl
@[simp] theorem modMask_ctxs (k : Nat) (f : MaskUnit → MaskUnit) (s : State) : (modMask k f s).ctxs = s.ctxs := rfl
@[simp] theorem modMask_ctxCounts (k : Nat) (f : MaskUnit → MaskUnit) (s : State) : (modMask k f s).ctxCounts = s.ctxCounts := rfl
@[simp] theorem modMask_ddr (k : Nat) (f : MaskUnit → MaskUnit) (s : State) : (modMask k f s).ddr = s.ddr := rfl
@[simp] theorem modMask_coreSel (k : Nat) (f : MaskUnit → MaskUnit) (s : State) : (modMask k f s).coreSel = s.coreSel := rfl
@[simp] theorem modMask_qps (k : Nat) (f : MaskUnit → MaskUnit) (s : State) : (modMask k f s).qps = s.qps := rfl
@[simp] theorem modMask_slab (k : Nat) (f : MaskUnit → MaskUnit) (s : State) : (modMask k f s).slab = s.slab := rfl
@[simp] theorem modMask_serv (k : Nat) (f : MaskUnit → MaskUnit) (s : State) : (modMask k f s).serv = s.serv := rfl

@[simp] theorem modQp_pending (n : Nat) (f : Qp → Qp) (s : State) : (modQp n f s).pending = s.pending := rfl
@[simp] theorem modQp_variant (n : Nat) (f : Qp → Qp) (s : State) : (modQp n f s).variant = s.variant := rfl
@[simp] theorem modQp_freeCtr (n : Nat) (f : Qp → Qp) (s : State) : (modQp n f s).freeCtr = s.freeCtr := rfl
@[simp] theorem modQp_clk (n : Nat) (f : Qp → Qp) (s : State) : (modQp n f s).clk = s.clk := rfl
@[simp] theorem modQp_fc (n : Nat) (f : Qp → Qp) (s : State) : (modQp n f s).fc = s.fc := rfl
@[simp] theorem modQp_tallies (n : Nat) (f : Qp → Qp) (s : State) : (modQp n f s).tallies = s.tallies := rfl
@[simp] theorem modQp_cmd (n : Nat) (f : Qp → Qp) (s : State) : (modQp n f s).cmd = s.cmd := rfl
@[simp] theorem modQp_pwr (n : Nat) (f : Qp → Qp) (s : State) : (modQp n f s).pwr = s.pwr := rfl
@[simp] theorem modQp_flt (n : Nat) (f : Qp → Qp) (s : State) : (modQp n f s).flt = s.flt := rfl
@[simp] theorem modQp_twin (n : Nat) (f : Qp → Qp) (s : State) : (modQp n f s).twin = s.twin := rfl
@[simp] theorem modQp_jtag (n : Nat) (f : Qp → Qp) (s : State) : (modQp n f s).jtag = s.jtag := rfl
@[simp] theorem modQp_flash (n : Nat) (f : Qp → Qp) (s : State) : (modQp n f s).flash = s.flash := rfl
@[simp] theorem modQp_fuses (n : Nat) (f : Qp → Qp) (s : State) : (modQp n f s).fuses = s.fuses := rfl
@[simp] theorem modQp_boot (n : Nat) (f : Qp → Qp) (s : State) : (modQp n f s).boot = s.boot := rfl
@[simp] theorem modQp_pins (n : Nat) (f : Qp → Qp) (s : State) : (modQp n f s).pins = s.pins := rfl
@[simp] theorem modQp_intk (n : Nat) (f : Qp → Qp) (s : State) : (modQp n f s).intk = s.intk := rfl
@[simp] theorem modQp_prep (n : Nat) (f : Qp → Qp) (s : State) : (modQp n f s).prep = s.prep := rfl
@[simp] theorem modQp_out (n : Nat) (f : Qp → Qp) (s : State) : (modQp n f s).out = s.out := rfl
@[simp] theorem modQp_image (n : Nat) (f : Qp → Qp) (s : State) : (modQp n f s).image = s.image := rfl
@[simp] theorem modQp_cores (n : Nat) (f : Qp → Qp) (s : State) : (modQp n f s).cores = s.cores := rfl
@[simp] theorem modQp_clusters (n : Nat) (f : Qp → Qp) (s : State) : (modQp n f s).clusters = s.clusters := rfl
@[simp] theorem modQp_coreMaps (n : Nat) (f : Qp → Qp) (s : State) : (modQp n f s).coreMaps = s.coreMaps := rfl
@[simp] theorem modQp_ctxs (n : Nat) (f : Qp → Qp) (s : State) : (modQp n f s).ctxs = s.ctxs := rfl
@[simp] theorem modQp_ctxCounts (n : Nat) (f : Qp → Qp) (s : State) : (modQp n f s).ctxCounts = s.ctxCounts := rfl
@[simp] theorem modQp_ddr (n : Nat) (f : Qp → Qp) (s : State) : (modQp n f s).ddr = s.ddr := rfl
@[simp] theorem modQp_coreSel (n : Nat) (f : Qp → Qp) (s : State) : (modQp n f s).coreSel = s.coreSel := rfl
@[simp] theorem modQp_slab (n : Nat) (f : Qp → Qp) (s : State) : (modQp n f s).slab = s.slab := rfl
@[simp] theorem modQp_serv (n : Nat) (f : Qp → Qp) (s : State) : (modQp n f s).serv = s.serv := rfl
@[simp] theorem modQp_text (n : Nat) (f : Qp → Qp) (s : State) : (modQp n f s).text = s.text := rfl

@[simp] theorem hold_pending (r u : Nat) (h : Holder) (s : State) : (hold r u h s).pending = s.pending := by unfold hold; split <;> rfl
@[simp] theorem hold_variant (r u : Nat) (h : Holder) (s : State) : (hold r u h s).variant = s.variant := by unfold hold; split <;> rfl
@[simp] theorem hold_freeCtr (r u : Nat) (h : Holder) (s : State) : (hold r u h s).freeCtr = s.freeCtr := by unfold hold; split <;> rfl
@[simp] theorem hold_clk (r u : Nat) (h : Holder) (s : State) : (hold r u h s).clk = s.clk := by unfold hold; split <;> rfl
@[simp] theorem hold_fc (r u : Nat) (h : Holder) (s : State) : (hold r u h s).fc = s.fc := by unfold hold; split <;> rfl
@[simp] theorem hold_tallies (r u : Nat) (h : Holder) (s : State) : (hold r u h s).tallies = s.tallies := by unfold hold; split <;> rfl
@[simp] theorem hold_cmd (r u : Nat) (h : Holder) (s : State) : (hold r u h s).cmd = s.cmd := by unfold hold; split <;> rfl
@[simp] theorem hold_flt (r u : Nat) (h : Holder) (s : State) : (hold r u h s).flt = s.flt := by unfold hold; split <;> rfl
@[simp] theorem hold_twin (r u : Nat) (h : Holder) (s : State) : (hold r u h s).twin = s.twin := by unfold hold; split <;> rfl
@[simp] theorem hold_jtag (r u : Nat) (h : Holder) (s : State) : (hold r u h s).jtag = s.jtag := by unfold hold; split <;> rfl
@[simp] theorem hold_flash (r u : Nat) (h : Holder) (s : State) : (hold r u h s).flash = s.flash := by unfold hold; split <;> rfl
@[simp] theorem hold_fuses (r u : Nat) (h : Holder) (s : State) : (hold r u h s).fuses = s.fuses := by unfold hold; split <;> rfl
@[simp] theorem hold_boot (r u : Nat) (h : Holder) (s : State) : (hold r u h s).boot = s.boot := by unfold hold; split <;> rfl
@[simp] theorem hold_pins (r u : Nat) (h : Holder) (s : State) : (hold r u h s).pins = s.pins := by unfold hold; split <;> rfl
@[simp] theorem hold_intk (r u : Nat) (h : Holder) (s : State) : (hold r u h s).intk = s.intk := by unfold hold; split <;> rfl
@[simp] theorem hold_prep (r u : Nat) (h : Holder) (s : State) : (hold r u h s).prep = s.prep := by unfold hold; split <;> rfl
@[simp] theorem hold_out (r u : Nat) (h : Holder) (s : State) : (hold r u h s).out = s.out := by unfold hold; split <;> rfl
@[simp] theorem hold_image (r u : Nat) (h : Holder) (s : State) : (hold r u h s).image = s.image := by unfold hold; split <;> rfl
@[simp] theorem hold_cores (r u : Nat) (h : Holder) (s : State) : (hold r u h s).cores = s.cores := by unfold hold; split <;> rfl
@[simp] theorem hold_clusters (r u : Nat) (h : Holder) (s : State) : (hold r u h s).clusters = s.clusters := by unfold hold; split <;> rfl
@[simp] theorem hold_coreMaps (r u : Nat) (h : Holder) (s : State) : (hold r u h s).coreMaps = s.coreMaps := by unfold hold; split <;> rfl
@[simp] theorem hold_ctxs (r u : Nat) (h : Holder) (s : State) : (hold r u h s).ctxs = s.ctxs := by unfold hold; split <;> rfl
@[simp] theorem hold_ctxCounts (r u : Nat) (h : Holder) (s : State) : (hold r u h s).ctxCounts = s.ctxCounts := by unfold hold; split <;> rfl
@[simp] theorem hold_ddr (r u : Nat) (h : Holder) (s : State) : (hold r u h s).ddr = s.ddr := by unfold hold; split <;> rfl
@[simp] theorem hold_coreSel (r u : Nat) (h : Holder) (s : State) : (hold r u h s).coreSel = s.coreSel := by unfold hold; split <;> rfl
@[simp] theorem hold_qps (r u : Nat) (h : Holder) (s : State) : (hold r u h s).qps = s.qps := by unfold hold; split <;> rfl
@[simp] theorem hold_slab (r u : Nat) (h : Holder) (s : State) : (hold r u h s).slab = s.slab := by unfold hold; split <;> rfl
@[simp] theorem hold_serv (r u : Nat) (h : Holder) (s : State) : (hold r u h s).serv = s.serv := by unfold hold; split <;> rfl
@[simp] theorem hold_text (r u : Nat) (h : Holder) (s : State) : (hold r u h s).text = s.text := by unfold hold; split <;> rfl

end Sys2Proof.Machine
end

