-- ==== Sys2Proof/Laws/Slots.lean ====
section
/-! SUPPORT. Forecast slots: what an operation leaves at a slot number, and what the messages of an operation leave of the slots. -/
namespace Sys2Proof.Machine

theorem Tab.find_erase {α : Type} (t : Tab α) (k j : Nat) : Tab.find (Tab.erase t k) j = if j = k then none else Tab.find t j := by
  induction t with
  | nil => simp [Tab.erase, Tab.find]
  | cons e t ih =>
    obtain ⟨i, a⟩ := e
    unfold Tab.erase at *
    by_cases h : i = k
    · subst h
      simp only [List.filter, bne_self_eq_false, ih, Tab.find]
      by_cases hj : j = i
      · simp [hj]
      · simp [hj, Ne.symm hj]
    · have : (i != k) = true := by simp [h]
      simp only [List.filter, this, Tab.find, ih]
      by_cases hj : i = j
      · subst hj; simp [h]
      · simp [hj]

theorem Tab.find_map {α : Type} (t : Tab α) (n j : Nat) (f : α → α) :
    Tab.find (t.map (fun e => if e.1 = n then (n, f e.2) else e)) j = if j = n then (Tab.find t j).map f else Tab.find t j := by
  induction t with
  | nil => simp [Tab.find]
  | cons e t ih =>
    obtain ⟨i, a⟩ := e
    by_cases h : i = n
    · subst h
      by_cases hj : i = j
      · subst hj; simp [Tab.find]
      · simp only [List.map, if_true, Tab.find, hj, if_false, ih]
    · by_cases hj : i = j
      · subst hj; simp [h, Tab.find]
      · simp only [List.map, h, if_false, Tab.find, hj, ih]

theorem Tab.find_mapAll {α : Type} (t : Tab α) (j : Nat) (f : α → α) : Tab.find (t.map (fun e => (e.1, f e.2))) j = (Tab.find t j).map f := by
  induction t with
  | nil => rfl
  | cons e t ih =>
    obtain ⟨i, a⟩ := e
    by_cases h : i = j <;> simp [Tab.find, h, ih]

theorem Tab.find_set {α : Type} (t : Tab α) (k : Nat) (a : α) : Tab.find (Tab.set t k a) k = some a := by
  induction t with
  | nil => simp [Tab.set, Tab.find]
  | cons e t ih =>
    obtain ⟨i, b⟩ := e
    unfold Tab.set
    by_cases h : i = k
    · simp [h, Tab.find]
    · simp only [h, if_false]
      split
      · simp [Tab.find]
      · simp only [Tab.find, h, if_false]; exact ih

theorem freeSlot_slotAt (n : Nat) (s : State) : slotAt (freeSlot n s) n = none := by
  unfold slotAt freeSlot; simp [Tab.find_erase]

theorem freeSlot_slotAt_other {n m : Nat} (h : m ≠ n) (s : State) : slotAt (freeSlot n s) m = slotAt s m := by
  unfold slotAt freeSlot; simp [Tab.find_erase, h]

theorem modSlot_slotAt (n : Nat) (f : Slot → Slot) (s : State) : slotAt (modSlot n f s) n = (slotAt s n).map f := by
  unfold slotAt modSlot; simp [Tab.find_map]

theorem modSlot_slotAt_other {n m : Nat} (h : m ≠ n) (f : Slot → Slot) (s : State) : slotAt (modSlot n f s) m = slotAt s m := by
  unfold slotAt modSlot; simp [Tab.find_map, h]

theorem foldl_keep {α σ β : Type} (f : σ → α → σ) (g : σ → β) (h : ∀ s a, g (f s a) = g s) (l : List α) (s : σ) : g (l.foldl f s) = g s := by
  induction l generalizing s with
  | nil => rfl
  | cons a l ih => rw [List.foldl_cons, ih, h]

/-- The charge of the transmit ports leaves the slots. -/
@[simp] theorem refreshPorts_fc (s : State) : (refreshPorts s).fc = s.fc := by
  unfold refreshPorts
  refine foldl_keep _ State.fc (fun s p => ?_) _ _
  split
  · split <;> simp
  · simp

theorem refreshPorts_slotAt (s : State) (n : Nat) : slotAt (refreshPorts s) n = slotAt s n := by
  unfold slotAt; rw [refreshPorts_fc]

@[simp] theorem countDenied_fc (c : Nat) (s : State) : (countDenied c s).fc = s.fc := rfl
@[simp] theorem countLost_fc (c : Nat) (s : State) : (countLost c s).fc = s.fc := rfl
@[simp] theorem raiseIbi_fc (m c i : Nat) (s : State) : (raiseIbi m c i s).fc = s.fc := by unfold raiseIbi; split <;> rfl

/-- The Forecast unit, but for the stamps of awaited arrivals, which messages set (02 R49). -/
def plainFc (s : State) : Forecast := { s.fc with slots := s.fc.slots.map (fun e => (e.1, { e.2 with arrival := none })) }

theorem plainFc_of {s t : State} (h : s.fc = t.fc) : plainFc s = plainFc t := by unfold plainFc; rw [h]

theorem plainFc_mapSlots {f : Slot → Slot} (h : ∀ x : Slot, ({ f x with arrival := none } : Slot) = { x with arrival := none }) (s : State) :
    plainFc (mapSlots f s) = plainFc s := by
  unfold plainFc mapSlots
  simp only [List.map_map]
  congr 1
  apply List.map_congr_left
  intro e _
  simp [h]

theorem plainFc_slotAt {s t : State} (h : plainFc s = plainFc t) (n : Nat) (f : Slot → Slot)
    (hf : ∀ x : Slot, f { x with arrival := none } = f x) : (slotAt s n).map f = (slotAt t n).map f := by
  have e : ∀ s : State, (Tab.find (plainFc s).slots n).map f = (slotAt s n).map f := by
    intro s
    have := Tab.find_mapAll s.fc.slots n (fun x : Slot => ({ x with arrival := none } : Slot))
    unfold slotAt
    show (Tab.find (s.fc.slots.map (fun e => (e.1, ({ e.2 with arrival := none } : Slot)))) n).map f = _
    rw [this]
    cases Tab.find s.fc.slots n with
    | none => rfl
    | some x => exact congrArg some (hf x)
  rw [← e s, ← e t, h]

theorem deliver_plainFc (c d : Nat) (b : Bytes) (s : State) : plainFc (deliver c d b s) = plainFc s := by
  unfold deliver
  have k : ∀ (f : Channel → Channel) (v : Option Nat), plainFc (mapSlots (fun sl => if awaitsMessage sl c d then { sl with arrival := v } else sl) (modChan c f s)) = plainFc s := by
    intro f v
    rw [plainFc_mapSlots (by intro x; split <;> rfl)]
    exact plainFc_of rfl
  simp only
  split
  · rw [plainFc_of (raiseIbi_fc _ _ _ _)]; exact k _ _
  · exact k _ _

theorem postQuiet_plainFc (c d : Nat) (w : Bool) (b : Bytes) (s : State) : plainFc (postQuiet c d w b s) = plainFc s := by
  unfold postQuiet
  repeat' first | exact deliver_plainFc _ _ _ _ | exact plainFc_of rfl | split

theorem cmdEvent_plainFc (e c d x y z : Nat) (s : State) : plainFc (cmdEvent e c d x y z s) = plainFc s := by
  unfold cmdEvent
  split
  · exact postQuiet_plainFc _ _ _ _ _
  · rfl

/-- A message leaves the slots, but for the arrivals that it is. -/
theorem post_plainFc (c d : Nat) (w : Bool) (b : Bytes) (s : State) : plainFc (post c d w b s) = plainFc s := by
  unfold post
  simp only
  split
  · split
    · exact plainFc_of rfl
    · rw [cmdEvent_plainFc]; exact plainFc_of rfl
  · split
    · split
      · rw [cmdEvent_plainFc]; exact plainFc_of rfl
      · exact plainFc_of rfl
    · exact postQuiet_plainFc _ _ _ _ _

end Sys2Proof.Machine
end

