-- ==== Sys2Proof/Laws/Ledger.lean ====
section
/-! SUPPORT. What the grant and the return of shares do to the ledger (14 R449). -/
namespace Sys2Proof.Machine

theorem dispatchList_pwr (cl : Nat) (l : List PendingTile) (s : State) : (dispatchList cl l s).pwr = s.pwr := by
  induction l generalizing s with
  | nil => rfl
  | cons t ts ih =>
    unfold dispatchList
    split
    · split
      · rw [ih]; rfl
      · rw [ih]; rfl
      · rw [ih]
    · rw [ih]

/-- The start of tiles leaves the power state. -/
@[simp] theorem dispatchAll_pwr (s : State) : (dispatchAll s).pwr = s.pwr := by
  have g : ∀ s : State, ((List.range 16).foldl (fun s c => dispatchCluster c s) s).pwr = s.pwr :=
    fun s => foldl_keep _ State.pwr (fun s c => dispatchList_pwr _ _ _) _ _
  unfold dispatchAll
  simp only [g]

theorem windowSum_filter (now : Nat) (l : List (Nat × Nat)) :
    windowSum now (l.filter (fun e => decide (now < e.1 + 1000))) = windowSum now l := by
  unfold windowSum; rw [List.filter_filter]; simp

theorem foldl_add (l : List (Nat × Nat)) (k : Nat) : l.foldl (fun n e => n + e.2) k = k + l.foldl (fun n e => n + e.2) 0 := by
  induction l generalizing k with
  | nil => rfl
  | cons e l ih => simp only [List.foldl_cons, Nat.zero_add]; rw [ih, ih e.2, Nat.add_assoc]

theorem windowSum_cons (now u : Nat) (l : List (Nat × Nat)) : windowSum now ((now, u) :: l) = windowSum now l + u := by
  unfold windowSum
  have : decide (now < now + 1000) = true := by simp
  simp only [List.filter, this, List.foldl_cons, Nat.zero_add]
  rw [foldl_add, Nat.add_comm]

/-- What one granted share adds. -/
theorem grantShare_pwr (x : Share) (s : State) :
    (grantShare x s).pwr.shares = s.pwr.shares ∧ (grantShare x s).pwr.charges = s.pwr.charges ++ [⟨1, x.units, x.holder⟩] ∧
    windowSum s.clk.tb (grantShare x s).pwr.granted = windowSum s.clk.tb s.pwr.granted + x.units ∧ (grantShare x s).clk = s.clk := by
  unfold grantShare
  simp only
  have h : windowSum s.clk.tb ((s.clk.tb, x.units) :: s.pwr.granted.filter (fun e => decide (s.clk.tb < e.1 + 1000)))
      = windowSum s.clk.tb s.pwr.granted + x.units := by rw [windowSum_cons, windowSum_filter]
  split <;> exact ⟨rfl, rfl, h, rfl⟩

/-- Shares are granted from the front, as far as the microsecond allows. -/
theorem pumpShares_grants (n : Nat) (s : State) : ∃ g : List Share,
    s.pwr.shares = g ++ (pumpShares n s).pwr.shares ∧
    (pumpShares n s).pwr.charges = s.pwr.charges ++ g.map (fun x => ⟨1, x.units, x.holder⟩) ∧
    (windowSum s.clk.tb s.pwr.granted ≤ 80 → windowSum s.clk.tb (pumpShares n s).pwr.granted ≤ 80) ∧
    (s.pwr.shares.length < n → ∀ x xs, (pumpShares n s).pwr.shares = x :: xs → 80 < windowSum s.clk.tb (pumpShares n s).pwr.granted + x.units) := by
  induction n generalizing s with
  | zero => exact ⟨[], by simp [pumpShares], by simp [pumpShares], by simp [pumpShares], fun h => absurd h (Nat.not_lt_zero _)⟩
  | succ n ih =>
    unfold pumpShares
    cases hs : s.pwr.shares with
    | nil => simp only; exact ⟨[], by simp [hs], by simp, by simp, by simp [hs]⟩
    | cons x xs =>
      simp only
      split
      · rename_i hw
        obtain ⟨h1, h2, h3, h4⟩ := grantShare_pwr x { s with pwr := { s.pwr with shares := xs } }
        obtain ⟨g, g1, g2, g3, g4⟩ := ih (grantShare x { s with pwr := { s.pwr with shares := xs } })
        rw [h4] at g3 g4
        refine ⟨x :: g, ?_, ?_, ?_, ?_⟩
        · rw [h1] at g1; simp only at g1; rw [List.cons_append, ← g1]
        · rw [g2, h2]; simp
        · intro _; exact g3 (by rw [h3]; exact hw)
        · intro hl; refine g4 ?_
          rw [h1]; simp at hl ⊢; exact hl
      · rename_i hw
        refine ⟨[], by simp [hs], by simp, by simp, ?_⟩
        intro _ y ys e
        rw [hs] at e; cases e; omega

theorem pumpReturns_returns (n : Nat) (s : State) : ∃ g : List Share,
    s.pwr.returns = g ++ (pumpReturns n s).pwr.returns ∧
    (pumpReturns n s).pwr.charges = g.foldl (fun l x => l.erase ⟨1, x.units, x.holder⟩) s.pwr.charges ∧
    (windowSum s.clk.tb s.pwr.returned ≤ 80 → windowSum s.clk.tb (pumpReturns n s).pwr.returned ≤ 80) ∧
    (s.pwr.returns.length < n → ∀ x xs, (pumpReturns n s).pwr.returns = x :: xs → 80 < windowSum s.clk.tb (pumpReturns n s).pwr.returned + x.units) := by
  induction n generalizing s with
  | zero => exact ⟨[], by simp [pumpReturns], by simp [pumpReturns], by simp [pumpReturns], fun h => absurd h (Nat.not_lt_zero _)⟩
  | succ n ih =>
    unfold pumpReturns
    cases hs : s.pwr.returns with
    | nil => simp only; exact ⟨[], by simp [hs], by simp, by simp, by simp [hs]⟩
    | cons x xs =>
      simp only
      split
      · rename_i hw
        have h3 : windowSum s.clk.tb (takeBack x { s with pwr := { s.pwr with returns := xs } }).pwr.returned
            = windowSum s.clk.tb s.pwr.returned + x.units := by
          show windowSum s.clk.tb ((s.clk.tb, x.units) :: s.pwr.returned.filter (fun e => decide (s.clk.tb < e.1 + 1000))) = _
          rw [windowSum_cons, windowSum_filter]
        obtain ⟨g, g1, g2, g3, g4⟩ := ih (takeBack x { s with pwr := { s.pwr with returns := xs } })
        refine ⟨x :: g, ?_, ?_, ?_, ?_⟩
        · rw [List.cons_append, ← g1]; rfl
        · rw [g2]; rfl
        · intro _; exact g3 (by show windowSum s.clk.tb _ ≤ 80; rw [h3]; exact hw)
        · intro hl; refine g4 ?_
          show xs.length < n
          simp at hl; exact hl
      · rename_i hw
        refine ⟨[], by simp [hs], by simp, by simp, ?_⟩
        intro _ y ys e
        rw [hs] at e; cases e; omega

end Sys2Proof.Machine
end

