-- ==== Sys2Proof/Laws/Tallies.lean ====
section
/-! SUPPORT. Tallies: what replacing one leaves of it and of the others. -/
namespace Sys2Proof.Machine

theorem Tab.find_set_other {α : Type} (t : Tab α) {k j : Nat} (h : j ≠ k) (a : α) : Tab.find (Tab.set t k a) j = Tab.find t j := by
  induction t with
  | nil => simp [Tab.set, Tab.find, Ne.symm h]
  | cons e t ih =>
    obtain ⟨i, b⟩ := e
    unfold Tab.set
    by_cases h1 : i = k
    · subst h1; simp [Tab.find, Ne.symm h]
    · simp only [h1, if_false]
      split
      · simp [Tab.find, Ne.symm h]
      · simp only [Tab.find, ih]

/-- The tally replaced reads as what it was replaced by. -/
theorem setTally_same (n : Nat) (t : Tally) (s : State) : tallyAt (setTally n t s) n = t := by
  unfold tallyAt setTally Tab.get
  simp only
  split
  · rename_i h; rw [Tab.find_erase]; simp [h]
  · rw [Tab.find_set]; rfl

/-- Every other tally is as before. -/
theorem setTally_other {n u : Nat} (h : u ≠ n) (t : Tally) (s : State) : tallyAt (setTally n t s) u = tallyAt s u := by
  unfold tallyAt setTally Tab.get
  simp only
  split
  · rw [Tab.find_erase]; simp [h]
  · rw [Tab.find_set_other _ h]

end Sys2Proof.Machine
end

