-- ==== Sys2Proof/Laws/Cores.lean ====
section
/-! SUPPORT. How a core's instruction runs, whatever its effect; registers read after a write. -/
namespace Sys2Proof.Machine

theorem coreRow_of {g o nz dt c : Nat} {eff : Eff} {w : DWord} {s : State} (h : Runs (advance dt s) c w g o nz) (hd : opDefined g o = true) :
    coreRow g o nz eff dt c w s = .next (match eff c w.toNat (advance dt s) with
      | .ok (.step t) => goto c ((coreAt (advance dt s) c).r.pc + 1) t
      | .ok (.jump pc t) => goto c pc t
      | .ok (.stay t) => t
      | .error (.fault st) => coreFault st c (advance dt s)
      | .error .parked => modCore c (fun k => { k with stalled := some w }) (advance dt s)
      | .error (.asleep k) => touchSram k (modCore c (fun x => { x with stalled := some w }) (advance dt s))) := by
  unfold coreRow
  simp only [h.turn, h.group, h.op, h.pred, h.clean, hd, bne_self_eq_false, Bool.or_self, Bool.and_false, Bool.not_true, Bool.false_eq_true, if_false]
  all_goals rfl

theorem core_step {g o nz dt c : Nat} {eff : Eff} {w : DWord} {s t : State} {i : Instr} (hi : exec i s = coreRow g o nz eff dt c w s) (h : Runs (advance dt s) c w g o nz) (hd : opDefined g o = true)
    (he : eff c w.toNat (advance dt s) = .ok (.step t)) : exec i s = .next (andNext c (advance dt s) t) := by
  rw [hi, coreRow_of h hd, he]; rfl

theorem core_jump {g o nz dt c pc : Nat} {eff : Eff} {w : DWord} {s t : State} {i : Instr} (hi : exec i s = coreRow g o nz eff dt c w s) (h : Runs (advance dt s) c w g o nz) (hd : opDefined g o = true)
    (he : eff c w.toNat (advance dt s) = .ok (.jump pc t)) : exec i s = .next (goto c pc t) := by
  rw [hi, coreRow_of h hd, he]

theorem core_stay {g o nz dt c : Nat} {eff : Eff} {w : DWord} {s t : State} {i : Instr} (hi : exec i s = coreRow g o nz eff dt c w s) (h : Runs (advance dt s) c w g o nz) (hd : opDefined g o = true)
    (he : eff c w.toNat (advance dt s) = .ok (.stay t)) : exec i s = .next t := by
  rw [hi, coreRow_of h hd, he]

theorem core_fault {g o nz dt c st : Nat} {eff : Eff} {w : DWord} {s : State} {i : Instr} (hi : exec i s = coreRow g o nz eff dt c w s) (h : Runs (advance dt s) c w g o nz) (hd : opDefined g o = true)
    (he : eff c w.toNat (advance dt s) = .error (.fault st)) : exec i s = .next (coreFault st c (advance dt s)) := by
  rw [hi, coreRow_of h hd, he]

theorem stops_any (l : List (Option LoopLevel)) (pc : Nat) (b : Bool)
    (h : b = true ↔ ∃ x, some x ∈ l ∧ x.stop = pc) : l.any (fun l => match l with | some x => x.stop == pc | none => false) = b := by
  rw [Bool.eq_iff_iff, h, List.any_eq_true]
  constructor
  · rintro ⟨x, hx, e⟩
    cases x with
    | none => simp at e
    | some x => exact ⟨x, hx, by simpa using e⟩
  · rintro ⟨x, hx, e⟩
    exact ⟨_, hx, by simp [e]⟩

/-- No body ends here. -/
theorem landAt_plain {n pc : Nat} {r : CoreRegs} (h : ∀ x, some x ∈ r.loops → x.stop ≠ pc) : landAt (n + 1) pc r = some { r with pc := pc } := by
  unfold landAt
  have h' := stops_any r.loops pc false ⟨fun e => absurd e (by decide), fun ⟨x, hx, e⟩ => absurd e (h x hx)⟩
  exact if_neg (fun e => absurd (h'.symm.trans e) (by decide))

/-- A body ends here. -/
theorem landAt_end {n pc i : Nat} {r : CoreRegs} {l m : LoopLevel} (hm : some m ∈ r.loops) (he : m.stop = pc) (hi : innermost r.loops = some (i, l)) :
    landAt (n + 1) pc r = (if l.stop ≠ pc then none
      else if 1 < l.left then some { r with pc := l.start, loops := setNth r.loops i (some { l with left := l.left - 1 }) }
      else landAt n pc { r with loops := setNth r.loops i none }) := by
  conv => lhs; unfold landAt
  refine (if_pos (stops_any r.loops pc true ⟨fun _ => ⟨m, hm, he⟩, fun _ => rfl⟩)).trans ?_
  simp only [hi]

/-- X0 reads as 0. -/
@[simp] theorem xr_zero (s : State) (c : Nat) : xr s c 0 = 0 := rfl
/-- A write of X0 does nothing. -/
@[simp] theorem setX_zero (c v : Nat) (s : State) : setX c 0 v s = s := rfl
/-- P0 reads as 1. -/
@[simp] theorem pr_zero (s : State) (c : Nat) : pr s c 0 = true := rfl
@[simp] theorem setP_zero (c : Nat) (b : Bool) (s : State) : setP c 0 b s = s := rfl

theorem need_ok {b : Bool} {st : Nat} (h : b = true) : need b st = .ok () := by unfold need; simp [h]

/-! ### Frames -/

theorem nth_modNth_other {α : Type} (l : List α) {k j : Nat} (h : j ≠ k) (f : α → α) (d : α) : nth (modNth l k f) j d = nth l j d := by
  induction l generalizing k j with
  | nil => rfl
  | cons a l ih =>
    cases k <;> cases j <;> first | rfl | exact absurd rfl h | skip
    exact ih (fun e => h (by rw [e]))

theorem nth_modNth_same {α : Type} (l : List α) {k : Nat} (h : k < l.length) (f : α → α) (d : α) : nth (modNth l k f) k d = f (nth l k d) := by
  induction l generalizing k with
  | nil => simp at h
  | cons a l ih =>
    cases k with
    | zero => rfl
    | succ k => exact ih (by simpa using h)

theorem modNth_past {α : Type} (l : List α) {k : Nat} (h : l.length ≤ k) (f : α → α) : modNth l k f = l := by
  induction l generalizing k with
  | nil => rfl
  | cons a l ih =>
    cases k with
    | zero => simp at h
    | succ k => simp only [modNth]; rw [ih (by simpa using h)]

theorem onlyCore_modCore (c : Nat) (f : Core → Core) (s : State) : OnlyCore c s (modCore c f s) :=
  ⟨rfl, fun _ hk => nth_modNth_other _ hk _ _⟩

theorem onlyCluster_modCluster (c : Nat) (f : Cluster → Cluster) (s : State) : OnlyCluster c s (modCluster c f s) :=
  ⟨rfl, fun _ hk => nth_modNth_other _ hk _ _⟩

theorem coreAt_modCore {c : Nat} (f : Core → Core) (s : State) (h : c < s.cores.length) : coreAt (modCore c f s) c = f (coreAt s c) :=
  nth_modNth_same _ h _ _

/-- What holds of the core as it is and as the change makes it holds of the core after. -/
theorem coreAt_modCore_any {P : Core → Prop} {c : Nat} {f : Core → Core} {s : State} (h0 : P (coreAt s c)) (h1 : P (f (coreAt s c))) :
    P (coreAt (modCore c f s) c) := by
  by_cases h : c < s.cores.length
  · rw [coreAt_modCore f s h]; exact h1
  · have : modCore c f s = s := by unfold modCore; rw [modNth_past _ (by omega)]
    rw [this]; exact h0

theorem clusterAt_modCluster {c : Nat} (f : Cluster → Cluster) (s : State) (h : c < s.clusters.length) : clusterAt (modCluster c f s) c = f (clusterAt s c) :=
  nth_modNth_same _ h _ _

/-- A block that was written reads back. -/
theorem Memory.read_writeN_inside {m : Memory} (a j : Nat) (l : Bytes) (w : Memory.wf m = true) (h : j < l.length) :
    Memory.read (Memory.writeN m a l) (a + j) = nth l j 0 := by
  induction l generalizing m a j with
  | nil => simp at h
  | cons b l ih =>
    cases j with
    | zero =>
      show Memory.read (Memory.writeN (Memory.write m a b) (a + 1) l) (a + 0) = b
      rw [Memory.read_writeN_outside _ _ _ (Memory.write_wf a b w) (by omega), Memory.read_write _ _ _ w]
      simp
    | succ j =>
      show Memory.read (Memory.writeN (Memory.write m a b) (a + 1) l) (a + (j + 1)) = nth l j 0
      rw [show a + (j + 1) = a + 1 + j by omega]
      exact ih (a + 1) j (Memory.write_wf a b w) (by simpa using h)

end Sys2Proof.Machine
end

