-- ==== Sys2Proof/Laws/Events.lean ====
section
/-! SUPPORT. What an event changes: the mailboxes, the slots that wait for a message, the free counter; and what faults change. -/
namespace Sys2Proof.Machine

theorem Told.refl (s : State) : Told s s := ⟨s.cmd, s.fc, s.freeCtr, rfl⟩

theorem Told.trans {s t u : State} (a : Told s t) (b : Told t u) : Told s u := by
  obtain ⟨_, _, _, rfl⟩ := a
  obtain ⟨c, f, n, rfl⟩ := b
  exact ⟨c, f, n, rfl⟩

theorem told_raiseIbi (m c i : Nat) (s : State) : Told s (raiseIbi m c i s) := by
  unfold raiseIbi
  split
  · exact .refl s
  · exact ⟨_, s.fc, s.freeCtr, rfl⟩

theorem told_modChan (c : Nat) (f : Channel → Channel) (s : State) : Told s (modChan c f s) := ⟨_, s.fc, s.freeCtr, rfl⟩

theorem told_deliver (c k : Nat) (b : Bytes) (s : State) : Told s (deliver c k b s) := by
  unfold deliver
  simp only []
  split
  · exact Told.trans (Told.trans (told_modChan c _ s) ⟨_, _, _, rfl⟩) (told_raiseIbi _ _ _ _)
  · exact Told.trans (told_modChan c _ s) ⟨_, _, _, rfl⟩

theorem told_countDenied (c : Nat) (s : State) : Told s (countDenied c s) := ⟨_, s.fc, s.freeCtr, rfl⟩
theorem told_countLost (c : Nat) (s : State) : Told s (countLost c s) := ⟨_, s.fc, s.freeCtr, rfl⟩

theorem told_postQuiet (c k : Nat) (h : Bool) (b : Bytes) (s : State) : Told s (postQuiet c k h b s) := by
  unfold postQuiet
  split
  · exact told_countDenied c s
  · split
    · exact ⟨_, s.fc, s.freeCtr, rfl⟩
    · split
      · exact told_deliver c k b s
      · split
        · exact ⟨_, s.fc, s.freeCtr, rfl⟩
        · exact told_countLost c s

theorem told_cmdEvent (e c k n m x : Nat) (s : State) : Told s (cmdEvent e c k n m x s) := by
  unfold cmdEvent
  split
  · exact told_postQuiet _ _ _ _ s
  · exact .refl s

theorem told_post (c k : Nat) (h : Bool) (b : Bytes) (s : State) : Told s (post c k h b s) := by
  unfold post
  simp only []
  split
  · split
    · exact told_countDenied c s
    · exact (told_countDenied c s).trans (told_cmdEvent _ _ _ _ _ _ _)
  · split
    · split
      · exact (told_countLost c s).trans (told_cmdEvent _ _ _ _ _ _ _)
      · exact told_countLost c s
    · exact told_postQuiet _ _ _ _ s

theorem told_report (k : Nat) (h : Bool) (c m : Nat) (al : Bool) (e : Nat) (b : Bytes) (s : State) : Told s (report k h c m al e b s) := by
  unfold report
  split
  · exact told_post _ _ _ _ s
  · exact .refl s

theorem told_draw (s : State) : Told s (draw s).2 := ⟨s.cmd, s.fc, _, rfl⟩

theorem told_openEvent (k c m : Nat) (al : Bool) (e st : Nat) (s : State) : Told s (openEvent k c m al e st s) :=
  ((told_draw s).trans (told_draw _)).trans (told_report _ _ _ _ _ _ _ _)

theorem told_pwrEvent (e a v : Nat) (r : Bytes) (s : State) : Told s (pwrEvent e a v r s) := told_report _ _ _ _ _ _ _ s
theorem told_fltEvent (e st : Nat) (s : State) : Told s (fltEvent e st s) := told_openEvent _ _ _ _ _ _ s
theorem told_secEvent (e st : Nat) (s : State) : Told s (secEvent e st s) := told_openEvent _ _ _ _ _ _ s
theorem told_pinEvent (e a v : Nat) (s : State) : Told s (pinEvent e a v s) := told_report _ _ _ _ _ _ _ s
theorem told_servEvent (e : Nat) (n : ServNote) (s : State) : Told s (servEvent e n s) := told_report _ _ _ _ _ _ _ s
theorem told_outEvent (e p h r : Nat) (s : State) : Told s (outEvent e p h r s) := told_report _ _ _ _ _ _ _ s
theorem told_intkEvent (k e st l t : Nat) (b : Bytes) (s : State) : Told s (intkEvent k e st l t b s) := told_report _ _ _ _ _ _ _ s
theorem told_prepEvent (k e st h r b : Nat) (x : Bytes) (s : State) : Told s (prepEvent k e st h r b x s) := told_report _ _ _ _ _ _ _ s

theorem told_foldl {α : Type} (f : State → α → State) (h : ∀ s x, Told s (f s x)) (l : List α) (s : State) : Told s (l.foldl f s) := by
  induction l generalizing s with
  | nil => exact .refl s
  | cons x xs ih => exact (h s x).trans (ih _)

/-- The pins of a function change nothing but the pins. -/
theorem funcPins_pins (s : State) : ∃ p, funcPins s = { s with pins := p } := by
  unfold funcPins
  generalize List.range 16 = l
  induction l generalizing s with
  | nil => exact ⟨s.pins, rfl⟩
  | cons x xs ih =>
    have k : ∃ p, (let f := pinFunc s x
      if f = 5 then drive x ((s.boot.ready && !recovering s && awake s) != pinLow s x) s
      else if f = 4 then drive x ((s.twin.state == 1 || s.twin.state == 2) != pinLow s x) s
      else s) = { s with pins := p } := by
      simp only []
      split
      · exact ⟨_, rfl⟩
      · split
        · exact ⟨_, rfl⟩
        · exact ⟨s.pins, rfl⟩
    obtain ⟨p, hp⟩ := k
    simp only [List.foldl_cons, hp]
    obtain ⟨p2, h2⟩ := ih { s with pins := p }
    exact ⟨p2, h2⟩

end Sys2Proof.Machine
end

