-- ==== Sys2Proof/Laws/Kept.lean ====
section
/-! SUPPORT. What commands leave alone: the queue, the variant, the fuses, the container slots of the flash, TB, and the static address.
One lemma for each operation says that it keeps them (files Kept*.lean). -/
namespace Sys2Proof.Machine

/-- The part of the state that only a few named commands change. -/
structure Kept where
  pending : List Instr
  variant : Variant
  fuses : Fuses
  slots : List (List (Nat × Byte))
  tb : Nat
  addr : Nat

def State.kept (s : State) : Kept := ⟨s.pending, s.variant, s.fuses, s.flash.slots, s.clk.tb, s.cmd.staticAddr⟩

theorem kept_mk (a0 : List Instr) (a1 : Variant) (a2 : Nat) (a3 : Clock) (a4 : Forecast) (a5 : Tab Tally) (a6 : Command) (a7 : Power)
    (a8 : Faults) (a9 : Twin) (b0 : Jtag) (b1 : Flash) (b2 : Fuses) (b3 : BootState) (b4 : Pins) (b5 : Intake) (b6 : Prep) (b7 : Output)
    (b8 : Option Image) (b9 : List Core) (c0 : List Cluster) (c1 : List (List (Option Nat))) (c2 : Tab Context) (c3 : CtxCounts)
    (c4 : Memory) (c5 : Nat) (c6 : Tab Qp) (c7 : SlabState) (c8 : Serving) (c9 : TextState) :
    State.kept ⟨a0, a1, a2, a3, a4, a5, a6, a7, a8, a9, b0, b1, b2, b3, b4, b5, b6, b7, b8, b9, c0, c1, c2, c3, c4, c5, c6, c7, c8, c9⟩
      = ⟨a0, a1, b2, b1.slots, a3.tb, a6.staticAddr⟩ := id rfl

theorem kept_fold (t : State) : Kept.mk t.pending t.variant t.fuses t.flash.slots t.clk.tb t.cmd.staticAddr = t.kept := id rfl

theorem kept_ite {c : Prop} [Decidable c] (a b : State) : (if c then a else b).kept = if c then a.kept else b.kept := by split <;> rfl

theorem snd_ite {α β : Type} {c : Prop} [Decidable c] (a b : α × β) : (if c then a else b).2 = if c then a.2 else b.2 := by split <;> rfl

theorem kept_foldl {α : Type} (l : List α) (g : State → α → State) {s : State} {k : Kept} (h : ∀ s a, (g s a).kept = s.kept) (hs : s.kept = k) :
    (l.foldl g s).kept = k := by
  induction l generalizing s with
  | nil => exact hs
  | cons a l ih => exact ih ((h s a).trans hs)

end Sys2Proof.Machine
end

