-- ==== Sys2Proof/Laws/KeptOps.lean ====
section
/-! SUPPORT. What Ops.lean keeps. -/
set_option linter.unusedSimpArgs false
set_option linter.unusedVariables false
set_option linter.unusedTactic false
set_option linter.unreachableTactic false
namespace Sys2Proof.Machine

theorem draw_kept (s : State) : (draw s).2.kept = s.kept := rfl

theorem raiseIbi_kept (mdb chan info : Nat) (s : State) : (raiseIbi mdb chan info s).kept = s.kept := by
  unfold raiseIbi
  repeat' (first | with_reducible rfl | with_reducible assumption | (intro _ _) | (intro _) | exact trivial | simp only [kept_mk, kept_fold, kept_ite, ite_self] | split | with_reducible refine kept_foldl _ _ ?_ ?_)

theorem rearmIbi_kept (mdb chan : Nat) (s : State) : (rearmIbi mdb chan s).kept = s.kept := by
  unfold rearmIbi
  repeat' (first | with_reducible rfl | with_reducible assumption | (intro _ _) | (intro _) | exact trivial | simp only [kept_mk, kept_fold, kept_ite, ite_self] | split | with_reducible refine kept_foldl _ _ ?_ ?_)

theorem modChan_kept (c : Nat) (f : Channel → Channel) (s : State) : (modChan c f s).kept = s.kept := by
  unfold modChan
  repeat' (first | with_reducible rfl | with_reducible assumption | (intro _ _) | (intro _) | exact trivial | simp only [kept_mk, kept_fold, kept_ite, ite_self] | split | with_reducible refine kept_foldl _ _ ?_ ?_)

theorem mapSlots_kept (f : Slot → Slot) (s : State) : (mapSlots f s).kept = s.kept := by
  unfold mapSlots
  repeat' (first | with_reducible rfl | with_reducible assumption | (intro _ _) | (intro _) | exact trivial | simp only [kept_mk, kept_fold, kept_ite, ite_self] | split | with_reducible refine kept_foldl _ _ ?_ ?_)

theorem deliver_kept (c sender : Nat) (body : Bytes) (s : State) : (deliver c sender body s).kept = s.kept := by
  unfold deliver
  repeat' (first | with_reducible rfl | with_reducible assumption | (intro _ _) | (intro _) | exact trivial | simp only [kept_mk, kept_fold, kept_ite, ite_self, modChan_kept, mapSlots_kept, raiseIbi_kept] | split | with_reducible refine kept_foldl _ _ ?_ ?_)

theorem countDenied_kept (c : Nat) (s : State) : (countDenied c s).kept = s.kept := by
  unfold countDenied
  repeat' (first | with_reducible rfl | with_reducible assumption | (intro _ _) | (intro _) | exact trivial | simp only [kept_mk, kept_fold, kept_ite, ite_self, modChan_kept] | split | with_reducible refine kept_foldl _ _ ?_ ?_)

theorem countLost_kept (c : Nat) (s : State) : (countLost c s).kept = s.kept := by
  unfold countLost
  repeat' (first | with_reducible rfl | with_reducible assumption | (intro _ _) | (intro _) | exact trivial | simp only [kept_mk, kept_fold, kept_ite, ite_self, modChan_kept] | split | with_reducible refine kept_foldl _ _ ?_ ?_)

theorem postQuiet_kept (c sender : Nat) (holds : Bool) (body : Bytes) (s : State) : (postQuiet c sender holds body s).kept = s.kept := by
  unfold postQuiet
  repeat' (first | with_reducible rfl | with_reducible assumption | (intro _ _) | (intro _) | exact trivial | simp only [kept_mk, kept_fold, kept_ite, ite_self, countDenied_kept, deliver_kept, countLost_kept] | split | with_reducible refine kept_foldl _ _ ?_ ?_)

theorem cmdEvent_kept (ev chan sender epoch changed count : Nat) (s : State) : (cmdEvent ev chan sender epoch changed count s).kept = s.kept := by
  unfold cmdEvent
  repeat' (first | with_reducible rfl | with_reducible assumption | (intro _ _) | (intro _) | exact trivial | simp only [kept_mk, kept_fold, kept_ite, ite_self, postQuiet_kept] | split | with_reducible refine kept_foldl _ _ ?_ ?_)

theorem post_kept (c sender : Nat) (holds : Bool) (body : Bytes) (s : State) : (post c sender holds body s).kept = s.kept := by
  unfold post
  repeat' (first | with_reducible rfl | with_reducible assumption | (intro _ _) | (intro _) | exact trivial | simp only [kept_mk, kept_fold, kept_ite, ite_self, countDenied_kept, cmdEvent_kept, countLost_kept, postQuiet_kept] | split | with_reducible refine kept_foldl _ _ ?_ ?_)

theorem admitMessages_kept (n c : Nat) (s : State) : (admitMessages n c s).kept = s.kept := by
  induction n generalizing s with
  | zero => rfl
  | succ n ih =>
    unfold admitMessages
    repeat' (first | rfl | simp only [ih, kept_mk, kept_fold, deliver_kept] | split)

theorem roomMade_kept (c : Nat) (s : State) : (roomMade c s).kept = s.kept := by
  unfold roomMade
  repeat' (first | with_reducible rfl | with_reducible assumption | (intro _ _) | (intro _) | exact trivial | simp only [kept_mk, kept_fold, kept_ite, ite_self, admitMessages_kept, modChan_kept] | split | with_reducible refine kept_foldl _ _ ?_ ?_)

theorem report_kept (sender : Nat) (holds : Bool) (chanPar maskPar : Nat) (always : Bool) (ev : Nat) (body : Bytes) (s : State) : (report sender holds chanPar maskPar always ev body s).kept = s.kept := by
  unfold report
  repeat' (first | with_reducible rfl | with_reducible assumption | (intro _ _) | (intro _) | exact trivial | simp only [kept_mk, kept_fold, kept_ite, ite_self, post_kept] | split | with_reducible refine kept_foldl _ _ ?_ ?_)

theorem pwrEvent_kept (ev arg value : Nat) (rec : Bytes) (s : State) : (pwrEvent ev arg value rec s).kept = s.kept := by
  unfold pwrEvent
  repeat' (first | with_reducible rfl | with_reducible assumption | (intro _ _) | (intro _) | exact trivial | simp only [kept_mk, kept_fold, kept_ite, ite_self, report_kept] | split | with_reducible refine kept_foldl _ _ ?_ ?_)

theorem openEvent_kept (sender chanPar maskPar : Nat) (always : Bool) (ev status : Nat) (s : State) : (openEvent sender chanPar maskPar always ev status s).kept = s.kept := by
  unfold openEvent
  repeat' (first | with_reducible rfl | with_reducible assumption | (intro _ _) | (intro _) | exact trivial | simp only [kept_mk, kept_fold, kept_ite, ite_self, draw_kept, report_kept] | split | with_reducible refine kept_foldl _ _ ?_ ?_)

theorem fltEvent_kept (ev status : Nat) (s : State) : (fltEvent ev status s).kept = s.kept := by
  unfold fltEvent
  repeat' (first | with_reducible rfl | with_reducible assumption | (intro _ _) | (intro _) | exact trivial | simp only [kept_mk, kept_fold, kept_ite, ite_self, openEvent_kept] | split | with_reducible refine kept_foldl _ _ ?_ ?_)

theorem secEvent_kept (ev status : Nat) (s : State) : (secEvent ev status s).kept = s.kept := by
  unfold secEvent
  repeat' (first | with_reducible rfl | with_reducible assumption | (intro _ _) | (intro _) | exact trivial | simp only [kept_mk, kept_fold, kept_ite, ite_self, openEvent_kept] | split | with_reducible refine kept_foldl _ _ ?_ ?_)

theorem pinEvent_kept (ev arg value : Nat) (s : State) : (pinEvent ev arg value s).kept = s.kept := by
  unfold pinEvent
  repeat' (first | with_reducible rfl | with_reducible assumption | (intro _ _) | (intro _) | exact trivial | simp only [kept_mk, kept_fold, kept_ite, ite_self, report_kept] | split | with_reducible refine kept_foldl _ _ ?_ ?_)

theorem servEvent_kept (ev : Nat) (e : ServNote) (s : State) : (servEvent ev e s).kept = s.kept := by
  unfold servEvent
  repeat' (first | with_reducible rfl | with_reducible assumption | (intro _ _) | (intro _) | exact trivial | simp only [kept_mk, kept_fold, kept_ite, ite_self, report_kept] | split | with_reducible refine kept_foldl _ _ ?_ ?_)

theorem hold_kept (rail units : Nat) (h : Holder) (s : State) : (hold rail units h s).kept = s.kept := by
  unfold hold
  repeat' (first | with_reducible rfl | with_reducible assumption | (intro _ _) | (intro _) | exact trivial | simp only [kept_mk, kept_fold, kept_ite, ite_self] | split | with_reducible refine kept_foldl _ _ ?_ ?_)

theorem giveBack_kept (h : Holder) (s : State) : (giveBack h s).kept = s.kept := by
  unfold giveBack
  repeat' (first | with_reducible rfl | with_reducible assumption | (intro _ _) | (intro _) | exact trivial | simp only [kept_mk, kept_fold, kept_ite, ite_self] | split | with_reducible refine kept_foldl _ _ ?_ ?_)

theorem modSlot_kept (n : Nat) (f : Slot → Slot) (s : State) : (modSlot n f s).kept = s.kept := by
  unfold modSlot
  repeat' (first | with_reducible rfl | with_reducible assumption | (intro _ _) | (intro _) | exact trivial | simp only [kept_mk, kept_fold, kept_ite, ite_self] | split | with_reducible refine kept_foldl _ _ ?_ ?_)

theorem freeSlot_kept (n : Nat) (s : State) : (freeSlot n s).kept = s.kept := by
  unfold freeSlot
  repeat' (first | with_reducible rfl | with_reducible assumption | (intro _ _) | (intro _) | exact trivial | simp only [kept_mk, kept_fold, kept_ite, ite_self] | split | with_reducible refine kept_foldl _ _ ?_ ?_)

theorem addSlot_kept (sl : Slot) (s : State) : (addSlot sl s).kept = s.kept := by
  unfold addSlot
  repeat' (first | with_reducible rfl | with_reducible assumption | (intro _ _) | (intro _) | exact trivial | simp only [kept_mk, kept_fold, kept_ite, ite_self] | split | with_reducible refine kept_foldl _ _ ?_ ?_)

theorem dropSlots_kept (p : SlotUse → Bool) (s : State) : (dropSlots p s).kept = s.kept := by
  unfold dropSlots
  repeat' (first | with_reducible rfl | with_reducible assumption | (intro _ _) | (intro _) | exact trivial | simp only [kept_mk, kept_fold, kept_ite, ite_self] | split | with_reducible refine kept_foldl _ _ ?_ ?_)

theorem refreshPorts_kept (s : State) : (refreshPorts s).kept = s.kept := by
  unfold refreshPorts
  repeat' (first | with_reducible rfl | with_reducible assumption | (intro _ _) | (intro _) | exact trivial | simp only [kept_mk, kept_fold, kept_ite, ite_self, hold_kept, giveBack_kept] | split | with_reducible refine kept_foldl _ _ ?_ ?_)

theorem modCore_kept (c : Nat) (f : Core → Core) (s : State) : (modCore c f s).kept = s.kept := by
  unfold modCore
  repeat' (first | with_reducible rfl | with_reducible assumption | (intro _ _) | (intro _) | exact trivial | simp only [kept_mk, kept_fold, kept_ite, ite_self] | split | with_reducible refine kept_foldl _ _ ?_ ?_)

theorem modRegs_kept (c : Nat) (f : CoreRegs → CoreRegs) (s : State) : (modRegs c f s).kept = s.kept := by
  unfold modRegs
  repeat' (first | with_reducible rfl | with_reducible assumption | (intro _ _) | (intro _) | exact trivial | simp only [kept_mk, kept_fold, kept_ite, ite_self, modCore_kept] | split | with_reducible refine kept_foldl _ _ ?_ ?_)

theorem modCluster_kept (c : Nat) (f : Cluster → Cluster) (s : State) : (modCluster c f s).kept = s.kept := by
  unfold modCluster
  repeat' (first | with_reducible rfl | with_reducible assumption | (intro _ _) | (intro _) | exact trivial | simp only [kept_mk, kept_fold, kept_ite, ite_self] | split | with_reducible refine kept_foldl _ _ ?_ ?_)

theorem modStream_kept (k : Nat) (f : Stream → Stream) (s : State) : (modStream k f s).kept = s.kept := by
  unfold modStream
  repeat' (first | with_reducible rfl | with_reducible assumption | (intro _ _) | (intro _) | exact trivial | simp only [kept_mk, kept_fold, kept_ite, ite_self] | split | with_reducible refine kept_foldl _ _ ?_ ?_)

theorem modSheet_kept (id : Nat) (f : Sheet → Sheet) (s : State) : (modSheet id f s).kept = s.kept := by
  unfold modSheet
  repeat' (first | with_reducible rfl | with_reducible assumption | (intro _ _) | (intro _) | exact trivial | simp only [kept_mk, kept_fold, kept_ite, ite_self] | split | with_reducible refine kept_foldl _ _ ?_ ?_)

theorem noteEpoch_kept (sheet block job epoch : Nat) (s : State) : (noteEpoch sheet block job epoch s).kept = s.kept := by
  unfold noteEpoch
  repeat' (first | with_reducible rfl | with_reducible assumption | (intro _ _) | (intro _) | exact trivial | simp only [kept_mk, kept_fold, kept_ite, ite_self, modSheet_kept] | split | with_reducible refine kept_foldl _ _ ?_ ?_)

end Sys2Proof.Machine
end

