-- ==== Sys2Proof/Laws/KeptFaultOps.lean ====
section
/-! SUPPORT. What FaultOps.lean keeps. -/
set_option linter.unusedSimpArgs false
set_option linter.unusedVariables false
set_option linter.unusedTactic false
set_option linter.unreachableTactic false
namespace Sys2Proof.Machine

theorem drive_kept (p : Nat) (level : Bool) (s : State) : (drive p level s).kept = s.kept := by
  unfold drive
  repeat' (first | with_reducible rfl | with_reducible assumption | (intro _ _) | (intro _) | exact trivial | simp only [kept_mk, kept_fold, kept_ite, ite_self] | split | with_reducible refine kept_foldl _ _ ?_ ?_)

theorem releasePin_kept (p : Nat) (s : State) : (releasePin p s).kept = s.kept := by
  unfold releasePin
  repeat' (first | with_reducible rfl | with_reducible assumption | (intro _ _) | (intro _) | exact trivial | simp only [kept_mk, kept_fold, kept_ite, ite_self] | split | with_reducible refine kept_foldl _ _ ?_ ?_)

theorem funcPins_kept (s : State) : (funcPins s).kept = s.kept := by
  unfold funcPins
  repeat' (first | with_reducible rfl | with_reducible assumption | (intro _ _) | (intro _) | exact trivial | simp only [kept_mk, kept_fold, kept_ite, ite_self, drive_kept] | split | with_reducible refine kept_foldl _ _ ?_ ?_)

theorem freezeNow_kept (self : Bool) (s : State) : (freezeNow self s).kept = s.kept := by
  unfold freezeNow
  repeat' (first | with_reducible rfl | with_reducible assumption | (intro _ _) | (intro _) | exact trivial | simp only [kept_mk, kept_fold, kept_ite, ite_self, drive_kept] | split | with_reducible refine kept_foldl _ _ ?_ ?_)

theorem logFault_kept (status action unit whereAt sides steps flags : Nat) (s : State) : (logFault status action unit whereAt sides steps flags s).kept = s.kept := by
  unfold logFault
  repeat' (first | with_reducible rfl | with_reducible assumption | (intro _ _) | (intro _) | exact trivial | simp only [kept_mk, kept_fold, kept_ite, ite_self] | split | with_reducible refine kept_foldl _ _ ?_ ?_)

theorem discardWork_kept (f status : Nat) (s : State) : (discardWork f status s).kept = s.kept := by
  unfold discardWork
  repeat' (first | with_reducible rfl | with_reducible assumption | (intro _ _) | (intro _) | exact trivial | simp only [kept_mk, kept_fold, kept_ite, ite_self] | split | with_reducible refine kept_foldl _ _ ?_ ?_)

theorem stepDiscarded_kept (f : Nat) (e : Nat × Nat) (s : State) : (stepDiscarded f e s).kept = s.kept := by
  unfold stepDiscarded
  repeat' (first | with_reducible rfl | with_reducible assumption | (intro _ _) | (intro _) | exact trivial | simp only [kept_mk, kept_fold, kept_ite, ite_self, servEvent_kept] | split | with_reducible refine kept_foldl _ _ ?_ ?_)

theorem raiseFault_kept (status unit whereAt flags : Nat) (s : State) : (raiseFault status unit whereAt flags s).kept = s.kept := by
  unfold raiseFault
  repeat' (first | with_reducible rfl | with_reducible assumption | (intro _ _) | (intro _) | exact trivial | simp only [kept_mk, kept_fold, kept_ite, ite_self, freezeNow_kept, logFault_kept, discardWork_kept, stepDiscarded_kept, fltEvent_kept, funcPins_kept, raiseIbi_kept] | split | with_reducible refine kept_foldl _ _ ?_ ?_)

theorem coreFault_kept (status c : Nat) (s : State) : (coreFault status c s).kept = s.kept := by
  unfold coreFault
  repeat' (first | with_reducible rfl | with_reducible assumption | (intro _ _) | (intro _) | exact trivial | simp only [kept_mk, kept_fold, kept_ite, ite_self, raiseFault_kept, modCore_kept] | split | with_reducible refine kept_foldl _ _ ?_ ?_)

end Sys2Proof.Machine
end

