-- ==== Sys2Proof/Laws/KeptTally.lean ====
section
/-! SUPPORT. What Tally.lean keeps. -/
set_option linter.unusedSimpArgs false
set_option linter.unusedVariables false
set_option linter.unusedTactic false
set_option linter.unreachableTactic false
namespace Sys2Proof.Machine

theorem setTally_kept (n : Nat) (t : Tally) (s : State) : (setTally n t s).kept = s.kept := by
  unfold setTally
  repeat' (first | with_reducible rfl | with_reducible assumption | (intro _ _) | (intro _) | exact trivial | simp only [kept_mk, kept_fold, kept_ite, ite_self] | split | with_reducible refine kept_foldl _ _ ?_ ?_)

theorem startTile_kept (c : Nat) (t : PendingTile) (s : State) : (startTile c t s).kept = s.kept := by
  unfold startTile
  repeat' (first | with_reducible rfl | with_reducible assumption | (intro _ _) | (intro _) | exact trivial | simp only [kept_mk, kept_fold, kept_ite, ite_self, modCore_kept] | split | with_reducible refine kept_foldl _ _ ?_ ?_)

theorem dispatchList_kept (cl : Nat) (x0 : List PendingTile) (s : State) : (dispatchList cl x0 s).kept = s.kept := by
  induction x0 generalizing s with
  | nil =>
    unfold dispatchList
    repeat' (first | with_reducible rfl | with_reducible assumption | (intro _ _) | (intro _) | exact trivial | simp only [kept_mk, kept_fold, kept_ite, ite_self, startTile_kept, modCluster_kept] | split | with_reducible refine kept_foldl _ _ ?_ ?_)
  | cons y l ih =>
    unfold dispatchList
    repeat' (first | with_reducible rfl | with_reducible assumption | (intro _ _) | (intro _) | exact trivial | simp only [kept_mk, kept_fold, kept_ite, ite_self, ih, startTile_kept, modCluster_kept] | split | with_reducible refine kept_foldl _ _ ?_ ?_)

theorem dispatchCluster_kept (cl : Nat) (s : State) : (dispatchCluster cl s).kept = s.kept := by
  unfold dispatchCluster
  repeat' (first | with_reducible rfl | with_reducible assumption | (intro _ _) | (intro _) | exact trivial | simp only [kept_mk, kept_fold, kept_ite, ite_self, dispatchList_kept] | split | with_reducible refine kept_foldl _ _ ?_ ?_)

theorem dispatchAll_kept (s : State) : (dispatchAll s).kept = s.kept := by
  unfold dispatchAll
  repeat' (first | with_reducible rfl | with_reducible assumption | (intro _ _) | (intro _) | exact trivial | simp only [kept_mk, kept_fold, kept_ite, ite_self, dispatchCluster_kept] | split | with_reducible refine kept_foldl _ _ ?_ ?_)

theorem grantWaiter_kept (n : Nat) (w : Nat × Nat) (s : State) : (grantWaiter n w s).kept = s.kept := by
  unfold grantWaiter
  repeat' (first | with_reducible rfl | with_reducible assumption | (intro _ _) | (intro _) | exact trivial | simp only [kept_mk, kept_fold, kept_ite, ite_self, modCore_kept, modCluster_kept] | split | with_reducible refine kept_foldl _ _ ?_ ?_)

theorem serveWaiters_kept (n : Nat) (s : State) : (serveWaiters n s).kept = s.kept := by
  unfold serveWaiters
  repeat' (first | with_reducible rfl | with_reducible assumption | (intro _ _) | (intro _) | exact trivial | simp only [kept_mk, kept_fold, kept_ite, ite_self, setTally_kept, grantWaiter_kept] | split | with_reducible refine kept_foldl _ _ ?_ ?_)

theorem bandSignal_kept (n : Nat) (s : State) : (bandSignal n s).kept = s.kept := by
  unfold bandSignal
  repeat' (first | with_reducible rfl | with_reducible assumption | (intro _ _) | (intro _) | exact trivial | simp only [kept_mk, kept_fold, kept_ite, ite_self] | split | with_reducible refine kept_foldl _ _ ?_ ?_)

theorem signalTally_kept (n k : Nat) (s : State) : (signalTally n k s).kept = s.kept := by
  unfold signalTally
  repeat' (first | with_reducible rfl | with_reducible assumption | (intro _ _) | (intro _) | exact trivial | simp only [kept_mk, kept_fold, kept_ite, ite_self, serveWaiters_kept, setTally_kept, dispatchAll_kept, bandSignal_kept, raiseFault_kept] | split | with_reducible refine kept_foldl _ _ ?_ ?_)

theorem setCount_kept (n v : Nat) (s : State) : (setCount n v s).kept = s.kept := by
  unfold setCount
  repeat' (first | with_reducible rfl | with_reducible assumption | (intro _ _) | (intro _) | exact trivial | simp only [kept_mk, kept_fold, kept_ite, ite_self, dispatchAll_kept, serveWaiters_kept, setTally_kept] | split | with_reducible refine kept_foldl _ _ ?_ ?_)

theorem armTally_kept (n a : Nat) (s : State) : (armTally n a s).kept = s.kept := by
  unfold armTally
  repeat' (first | with_reducible rfl | with_reducible assumption | (intro _ _) | (intro _) | exact trivial | simp only [kept_mk, kept_fold, kept_ite, ite_self, setTally_kept] | split | with_reducible refine kept_foldl _ _ ?_ ?_)

theorem ringDoorbell_kept (c v : Nat) (s : State) : (ringDoorbell c v s).kept = s.kept := by
  unfold ringDoorbell
  repeat' (first | with_reducible rfl | with_reducible assumption | (intro _ _) | (intro _) | exact trivial | simp only [kept_mk, kept_fold, kept_ite, ite_self, modChan_kept, raiseIbi_kept, signalTally_kept] | split | with_reducible refine kept_foldl _ _ ?_ ?_)

end Sys2Proof.Machine
end

