-- ==== Sys2Proof/Laws/KeptPowerOps.lean ====
section
/-! SUPPORT. What PowerOps.lean keeps. -/
set_option linter.unusedSimpArgs false
set_option linter.unusedVariables false
set_option linter.unusedTactic false
set_option linter.unreachableTactic false
namespace Sys2Proof.Machine

theorem setStack_kept (k : Nat) (x : StackState) (s : State) : (setStack k x s).kept = s.kept := by
  unfold setStack
  repeat' (first | with_reducible rfl | with_reducible assumption | (intro _ _) | (intro _) | exact trivial | simp only [kept_mk, kept_fold, kept_ite, ite_self] | split | with_reducible refine kept_foldl _ _ ?_ ?_)

theorem withMode_kept (f : State → State) (s : State) (hf : ∀  s, (f  s).kept = s.kept) : (withMode f s).kept = s.kept := by
  unfold withMode
  repeat' (first | with_reducible rfl | with_reducible assumption | (intro _ _) | (intro _) | exact trivial | simp only [kept_mk, kept_fold, kept_ite, ite_self, pwrEvent_kept, hf] | split | with_reducible refine kept_foldl _ _ ?_ ?_)

theorem grantShare_kept (x : Share) (s : State) : (grantShare x s).kept = s.kept := by
  unfold grantShare
  repeat' (first | with_reducible rfl | with_reducible assumption | (intro _ _) | (intro _) | exact trivial | simp only [kept_mk, kept_fold, kept_ite, ite_self, modCore_kept] | split | with_reducible refine kept_foldl _ _ ?_ ?_)

theorem pumpShares_kept  (x0 : Nat) (s : State) : (pumpShares x0 s).kept = s.kept := by
  induction x0 generalizing s with
  | zero =>
    unfold pumpShares
    repeat' (first | with_reducible rfl | with_reducible assumption | (intro _ _) | (intro _) | exact trivial | simp only [kept_mk, kept_fold, kept_ite, ite_self, grantShare_kept] | split | with_reducible refine kept_foldl _ _ ?_ ?_)
  | succ k ih =>
    unfold pumpShares
    repeat' (first | with_reducible rfl | with_reducible assumption | (intro _ _) | (intro _) | exact trivial | simp only [kept_mk, kept_fold, kept_ite, ite_self, ih, grantShare_kept] | split | with_reducible refine kept_foldl _ _ ?_ ?_)

theorem grantNow_kept (s : State) : (grantNow s).kept = s.kept := by
  unfold grantNow
  repeat' (first | with_reducible rfl | with_reducible assumption | (intro _ _) | (intro _) | exact trivial | simp only [kept_mk, kept_fold, kept_ite, ite_self, dispatchAll_kept, pumpShares_kept] | split | with_reducible refine kept_foldl _ _ ?_ ?_)

theorem takeBack_kept (x : Share) (s : State) : (takeBack x s).kept = s.kept := by
  unfold takeBack
  repeat' (first | with_reducible rfl | with_reducible assumption | (intro _ _) | (intro _) | exact trivial | simp only [kept_mk, kept_fold, kept_ite, ite_self] | split | with_reducible refine kept_foldl _ _ ?_ ?_)

theorem pumpReturns_kept  (x0 : Nat) (s : State) : (pumpReturns x0 s).kept = s.kept := by
  induction x0 generalizing s with
  | zero =>
    unfold pumpReturns
    repeat' (first | with_reducible rfl | with_reducible assumption | (intro _ _) | (intro _) | exact trivial | simp only [kept_mk, kept_fold, kept_ite, ite_self, takeBack_kept] | split | with_reducible refine kept_foldl _ _ ?_ ?_)
  | succ k ih =>
    unfold pumpReturns
    repeat' (first | with_reducible rfl | with_reducible assumption | (intro _ _) | (intro _) | exact trivial | simp only [kept_mk, kept_fold, kept_ite, ite_self, ih, takeBack_kept] | split | with_reducible refine kept_foldl _ _ ?_ ?_)

theorem returnCluster_kept (c : Nat) (s : State) : (returnCluster c s).kept = s.kept := by
  unfold returnCluster
  repeat' (first | with_reducible rfl | with_reducible assumption | (intro _ _) | (intro _) | exact trivial | simp only [kept_mk, kept_fold, kept_ite, ite_self, pumpReturns_kept, modCore_kept] | split | with_reducible refine kept_foldl _ _ ?_ ?_)

theorem chargeClusters_kept (l : List Nat) (pt : Nat → Nat) (s : State) : (chargeClusters l pt s).kept = s.kept := by
  unfold chargeClusters
  repeat' (first | with_reducible rfl | with_reducible assumption | (intro _ _) | (intro _) | exact trivial | simp only [kept_mk, kept_fold, kept_ite, ite_self] | split | with_reducible refine kept_foldl _ _ ?_ ?_)

theorem setSram_kept (k u : Nat) (s : State) : (setSram k u s).kept = s.kept := by
  unfold setSram
  repeat' (first | with_reducible rfl | with_reducible assumption | (intro _ _) | (intro _) | exact trivial | simp only [kept_mk, kept_fold, kept_ite, ite_self, hold_kept, giveBack_kept] | split | with_reducible refine kept_foldl _ _ ?_ ?_)

theorem postWake_kept (d cause : Nat) (s : State) : (postWake d cause s).kept = s.kept := by
  unfold postWake
  repeat' (first | with_reducible rfl | with_reducible assumption | (intro _ _) | (intro _) | exact trivial | simp only [kept_mk, kept_fold, kept_ite, ite_self, addSlot_kept] | split | with_reducible refine kept_foldl _ _ ?_ ?_)

theorem recordWake_kept (from_ cause domain : Nat) (s : State) : (recordWake from_ cause domain s).kept = s.kept := by
  unfold recordWake
  repeat' (first | with_reducible rfl | with_reducible assumption | (intro _ _) | (intro _) | exact trivial | simp only [kept_mk, kept_fold, kept_ite, ite_self] | split | with_reducible refine kept_foldl _ _ ?_ ?_)

theorem ringAndWake_kept (c v : Nat) (s : State) : (ringAndWake c v s).kept = s.kept := by
  unfold ringAndWake
  repeat' (first | with_reducible rfl | with_reducible assumption | (intro _ _) | (intro _) | exact trivial | simp only [kept_mk, kept_fold, kept_ite, ite_self, ringDoorbell_kept, postWake_kept] | split | with_reducible refine kept_foldl _ _ ?_ ?_)

theorem cancelEntry_kept (k : Nat) (s : State) : (cancelEntry k s).kept = s.kept := by
  unfold cancelEntry
  repeat' (first | with_reducible rfl | with_reducible assumption | (intro _ _) | (intro _) | exact trivial | simp only [kept_mk, kept_fold, kept_ite, ite_self, setStack_kept] | split | with_reducible refine kept_foldl _ _ ?_ ?_)

theorem touchSram_kept (k : Nat) (s : State) : (touchSram k s).kept = s.kept := by
  unfold touchSram
  repeat' (first | with_reducible rfl | with_reducible assumption | (intro _ _) | (intro _) | exact trivial | simp only [kept_mk, kept_fold, kept_ite, ite_self, cancelEntry_kept, postWake_kept] | split | with_reducible refine kept_foldl _ _ ?_ ?_)

theorem touchDie_kept (k : Nat) (s : State) : (touchDie k s).kept = s.kept := by
  unfold touchDie
  repeat' (first | with_reducible rfl | with_reducible assumption | (intro _ _) | (intro _) | exact trivial | simp only [kept_mk, kept_fold, kept_ite, ite_self, setStack_kept, postWake_kept] | split | with_reducible refine kept_foldl _ _ ?_ ?_)

end Sys2Proof.Machine
end

