-- ==== Sys2Proof/Laws/KeptForecast.lean ====
section
/-! SUPPORT. What Forecast.lean keeps. -/
set_option linter.unusedSimpArgs false
set_option linter.unusedVariables false
set_option linter.unusedTactic false
set_option linter.unreachableTactic false
namespace Sys2Proof.Machine

/-- The state that a reply leaves. -/
def Reply.after (r : Reply) (s : State) : State :=
  match r with
  | .ok _ t => t
  | .refuse _ _ => s
  | .refuseWith _ _ t => t

theorem after_ok (d : Bytes) (t s : State) : (Reply.ok d t).after s = t := rfl
theorem after_refuse (n : Nat) (d : Bytes) (s : State) : (Reply.refuse n d).after s = s := rfl
theorem after_refuseWith (n : Nat) (d : Bytes) (t s : State) : (Reply.refuseWith n d t).after s = t := rfl
theorem after_ite {c : Prop} [Decidable c] (a b : Reply) (s : State) : (if c then a else b).after s = if c then a.after s else b.after s := by
  split <;> rfl

theorem timeReadBody_kept (p : Packet) (s : State) : ((timeReadBody p s).after s).kept = s.kept := by
  unfold timeReadBody
  repeat' (first | with_reducible rfl | with_reducible assumption | (intro _ _) | (intro _) | exact trivial | simp only [after_ok, after_refuse, after_refuseWith, after_ite, kept_mk, kept_fold, kept_ite, ite_self] | split | with_reducible refine kept_foldl _ _ ?_ ?_)

theorem slotPostBody_kept (p : Packet) (s : State) : ((slotPostBody p s).after s).kept = s.kept := by
  unfold slotPostBody
  repeat' (first | with_reducible rfl | with_reducible assumption | (intro _ _) | (intro _) | exact trivial | simp only [after_ok, after_refuse, after_refuseWith, after_ite, kept_mk, kept_fold, kept_ite, ite_self, refreshPorts_kept] | split | with_reducible refine kept_foldl _ _ ?_ ?_)

theorem slotCancelBody_kept (p : Packet) (s : State) : ((slotCancelBody p s).after s).kept = s.kept := by
  unfold slotCancelBody
  repeat' (first | with_reducible rfl | with_reducible assumption | (intro _ _) | (intro _) | exact trivial | simp only [after_ok, after_refuse, after_refuseWith, after_ite, kept_mk, kept_fold, kept_ite, ite_self, modSlot_kept, refreshPorts_kept, freeSlot_kept] | split | with_reducible refine kept_foldl _ _ ?_ ?_)

theorem slotQueryBody_kept (p : Packet) (s : State) : ((slotQueryBody p s).after s).kept = s.kept := by
  unfold slotQueryBody
  repeat' (first | with_reducible rfl | with_reducible assumption | (intro _ _) | (intro _) | exact trivial | simp only [after_ok, after_refuse, after_refuseWith, after_ite, kept_mk, kept_fold, kept_ite, ite_self] | split | with_reducible refine kept_foldl _ _ ?_ ?_)

theorem waitOn_kept (n rail : Nat) (s : State) : (waitOn n rail s).kept = s.kept := by
  unfold waitOn
  repeat' (first | with_reducible rfl | with_reducible assumption | (intro _ _) | (intro _) | exact trivial | simp only [kept_mk, kept_fold, kept_ite, ite_self, modSlot_kept] | split | with_reducible refine kept_foldl _ _ ?_ ?_)

theorem handOver_kept (n : Nat) (s : State) : (handOver n s).kept = s.kept := by
  unfold handOver
  repeat' (first | with_reducible rfl | with_reducible assumption | (intro _ _) | (intro _) | exact trivial | simp only [kept_mk, kept_fold, kept_ite, ite_self, modSlot_kept] | split | with_reducible refine kept_foldl _ _ ?_ ?_)

theorem takeClusters_kept (n : Nat) (sl : Slot) (pt : Nat → Nat) (s : State) : (takeClusters n sl pt s).kept = s.kept := by
  unfold takeClusters
  repeat' (first | with_reducible rfl | with_reducible assumption | (intro _ _) | (intro _) | exact trivial | simp only [kept_mk, kept_fold, kept_ite, ite_self, handOver_kept, withMode_kept, grantNow_kept, chargeClusters_kept, modSlot_kept, waitOn_kept] | split | with_reducible refine kept_foldl _ _ ?_ ?_ | with_reducible refine Eq.trans (withMode_kept _ _ ?_) ?_)

theorem tryAdmit_kept (n : Nat) (s : State) : (tryAdmit n s).kept = s.kept := by
  unfold tryAdmit
  repeat' (first | with_reducible rfl | with_reducible assumption | (intro _ _) | (intro _) | exact trivial | simp only [kept_mk, kept_fold, kept_ite, ite_self, takeClusters_kept, hold_kept, waitOn_kept, handOver_kept, modSlot_kept, setSram_kept, grantNow_kept] | split | with_reducible refine kept_foldl _ _ ?_ ?_)

theorem retryWaiting_kept (s : State) : (retryWaiting s).kept = s.kept := by
  unfold retryWaiting
  repeat' (first | with_reducible rfl | with_reducible assumption | (intro _ _) | (intro _) | exact trivial | simp only [kept_mk, kept_fold, kept_ite, ite_self, tryAdmit_kept] | split | with_reducible refine kept_foldl _ _ ?_ ?_)

theorem countWait_kept (n : Nat) (s : State) : (countWait n s).kept = s.kept := by
  unfold countWait
  repeat' (first | with_reducible rfl | with_reducible assumption | (intro _ _) | (intro _) | exact trivial | simp only [kept_mk, kept_fold, kept_ite, ite_self] | split | with_reducible refine kept_foldl _ _ ?_ ?_)

theorem offer_kept (n : Nat) (s : State) : (offer n s).kept = s.kept := by
  unfold offer
  repeat' (first | with_reducible rfl | with_reducible assumption | (intro _ _) | (intro _) | exact trivial | simp only [kept_mk, kept_fold, kept_ite, ite_self, modSlot_kept, countWait_kept, tryAdmit_kept] | split | with_reducible refine kept_foldl _ _ ?_ ?_)

theorem countLate_kept (s : State) : (countLate s).kept = s.kept := by
  unfold countLate
  repeat' (first | with_reducible rfl | with_reducible assumption | (intro _ _) | (intro _) | exact trivial | simp only [kept_mk, kept_fold, kept_ite, ite_self] | split | with_reducible refine kept_foldl _ _ ?_ ?_)

theorem finishAt_kept (t at_ n : Nat) (sl : Slot) (timeout won : Bool) (arrival : Nat) (s : State) : (finishAt t at_ n sl timeout won arrival s).kept = s.kept := by
  unfold finishAt
  repeat' (first | with_reducible rfl | with_reducible assumption | (intro _ _) | (intro _) | exact trivial | simp only [kept_mk, kept_fold, kept_ite, ite_self, countLate_kept, post_kept, refreshPorts_kept, freeSlot_kept, modSlot_kept] | split | with_reducible refine kept_foldl _ _ ?_ ?_)

theorem finishLaunch_kept (n : Nat) (sl : Slot) (timeout won : Bool) (arrival : Nat) (s : State) : (finishLaunch n sl timeout won arrival s).kept = s.kept := by
  unfold finishLaunch
  repeat' (first | with_reducible rfl | with_reducible assumption | (intro _ _) | (intro _) | exact trivial | simp only [kept_mk, kept_fold, kept_ite, ite_self, finishAt_kept] | split | with_reducible refine kept_foldl _ _ ?_ ?_)

theorem launch_kept (cls n : Nat) (f : Slot → State → State) (s : State) (hf : ∀ x0 s, (f x0 s).kept = s.kept) : (launch cls n f s).kept = s.kept := by
  unfold launch
  repeat' (first | with_reducible rfl | with_reducible assumption | (intro _ _) | (intro _) | exact trivial | simp only [kept_mk, kept_fold, kept_ite, ite_self, finishLaunch_kept, hf] | split | with_reducible refine kept_foldl _ _ ?_ ?_)

theorem pulsePin_kept (p width : Nat) (level : Bool) (s : State) : (pulsePin p width level s).kept = s.kept := by
  unfold pulsePin
  repeat' (first | with_reducible rfl | with_reducible assumption | (intro _ _) | (intro _) | exact trivial | simp only [kept_mk, kept_fold, kept_ite, ite_self, drive_kept] | split | with_reducible refine kept_foldl _ _ ?_ ?_)

theorem preDispatchPlain_kept (n : Nat) (s : State) : (preDispatchPlain n s).kept = s.kept := by
  unfold preDispatchPlain
  repeat' (first | with_reducible rfl | with_reducible assumption | (intro _ _) | (intro _) | exact trivial | simp only [kept_mk, kept_fold, kept_ite, ite_self, offer_kept] | split | with_reducible refine kept_foldl _ _ ?_ ?_)

theorem execShareGrant_kept (dt : Nat) (s : State) : ∃ t, execShareGrant dt s = .next t ∧ t.kept = (advance dt s).kept := by
  unfold execShareGrant
  refine ⟨_, rfl, ?_⟩
  generalize advance dt s = s
  repeat' (first | with_reducible rfl | with_reducible assumption | (intro _ _) | (intro _) | exact trivial | simp only [kept_mk, kept_fold, kept_ite, ite_self, grantNow_kept] | split | with_reducible refine kept_foldl _ _ ?_ ?_)

theorem execShareReturn_kept (dt : Nat) (s : State) : ∃ t, execShareReturn dt s = .next t ∧ t.kept = (advance dt s).kept := by
  unfold execShareReturn
  refine ⟨_, rfl, ?_⟩
  generalize advance dt s = s
  repeat' (first | with_reducible rfl | with_reducible assumption | (intro _ _) | (intro _) | exact trivial | simp only [kept_mk, kept_fold, kept_ite, ite_self, withMode_kept, retryWaiting_kept, pumpReturns_kept] | split | with_reducible refine kept_foldl _ _ ?_ ?_ | with_reducible refine Eq.trans (withMode_kept _ _ ?_) ?_)

theorem execStrobe_kept (dt n : Nat) (s : State) : ∃ t, execStrobe dt n s = .next t ∧ t.kept = (advance dt s).kept := by
  unfold execStrobe
  refine ⟨_, rfl, ?_⟩
  generalize advance dt s = s
  repeat' (first | with_reducible rfl | with_reducible assumption | (intro _ _) | (intro _) | exact trivial | simp only [kept_mk, kept_fold, kept_ite, ite_self, launch_kept, pulsePin_kept] | split | with_reducible refine kept_foldl _ _ ?_ ?_ | with_reducible refine Eq.trans (launch_kept _ _ _ _ ?_) ?_)

theorem execLineTrig_kept (dt n : Nat) (s : State) : ∃ t, execLineTrig dt n s = .next t ∧ t.kept = (advance dt s).kept := by
  unfold execLineTrig
  refine ⟨_, rfl, ?_⟩
  generalize advance dt s = s
  repeat' (first | with_reducible rfl | with_reducible assumption | (intro _ _) | (intro _) | exact trivial | simp only [kept_mk, kept_fold, kept_ite, ite_self, launch_kept, pulsePin_kept] | split | with_reducible refine kept_foldl _ _ ?_ ?_ | with_reducible refine Eq.trans (launch_kept _ _ _ _ ?_) ?_)

theorem execPinSet_kept (dt n : Nat) (s : State) : ∃ t, execPinSet dt n s = .next t ∧ t.kept = (advance dt s).kept := by
  unfold execPinSet
  refine ⟨_, rfl, ?_⟩
  generalize advance dt s = s
  repeat' (first | with_reducible rfl | with_reducible assumption | (intro _ _) | (intro _) | exact trivial | simp only [kept_mk, kept_fold, kept_ite, ite_self, launch_kept, drive_kept] | split | with_reducible refine kept_foldl _ _ ?_ ?_ | with_reducible refine Eq.trans (launch_kept _ _ _ _ ?_) ?_)

theorem execTallySignalAction_kept (dt n : Nat) (s : State) : ∃ t, execTallySignalAction dt n s = .next t ∧ t.kept = (advance dt s).kept := by
  unfold execTallySignalAction
  refine ⟨_, rfl, ?_⟩
  generalize advance dt s = s
  repeat' (first | with_reducible rfl | with_reducible assumption | (intro _ _) | (intro _) | exact trivial | simp only [kept_mk, kept_fold, kept_ite, ite_self, launch_kept, signalTally_kept] | split | with_reducible refine kept_foldl _ _ ?_ ?_ | with_reducible refine Eq.trans (launch_kept _ _ _ _ ?_) ?_)

theorem execDoorbell_kept (dt n : Nat) (s : State) : ∃ t, execDoorbell dt n s = .next t ∧ t.kept = (advance dt s).kept := by
  unfold execDoorbell
  refine ⟨_, rfl, ?_⟩
  generalize advance dt s = s
  repeat' (first | with_reducible rfl | with_reducible assumption | (intro _ _) | (intro _) | exact trivial | simp only [kept_mk, kept_fold, kept_ite, ite_self, launch_kept, ringAndWake_kept, countDenied_kept, cmdEvent_kept] | split | with_reducible refine kept_foldl _ _ ?_ ?_ | with_reducible refine Eq.trans (launch_kept _ _ _ _ ?_) ?_)

theorem execQuietPoint_kept (dt n : Nat) (s : State) : ∃ t, execQuietPoint dt n s = .next t ∧ t.kept = (advance dt s).kept := by
  unfold execQuietPoint
  refine ⟨_, rfl, ?_⟩
  generalize advance dt s = s
  repeat' (first | with_reducible rfl | with_reducible assumption | (intro _ _) | (intro _) | exact trivial | simp only [kept_mk, kept_fold, kept_ite, ite_self, launch_kept, cmdEvent_kept] | split | with_reducible refine kept_foldl _ _ ?_ ?_ | with_reducible refine Eq.trans (launch_kept _ _ _ _ ?_) ?_)

theorem execTbMark_kept (dt n : Nat) (s : State) : ∃ t, execTbMark dt n s = .next t ∧ t.kept = (advance dt s).kept := by
  unfold execTbMark
  refine ⟨_, rfl, ?_⟩
  generalize advance dt s = s
  repeat' (first | with_reducible rfl | with_reducible assumption | (intro _ _) | (intro _) | exact trivial | simp only [kept_mk, kept_fold, kept_ite, ite_self, launch_kept] | split | with_reducible refine kept_foldl _ _ ?_ ?_ | with_reducible refine Eq.trans (launch_kept _ _ _ _ ?_) ?_)

theorem execWatch_kept (dt n : Nat) (s : State) : ∃ t, execWatch dt n s = .next t ∧ t.kept = (advance dt s).kept := by
  unfold execWatch
  refine ⟨_, rfl, ?_⟩
  generalize advance dt s = s
  repeat' (first | with_reducible rfl | with_reducible assumption | (intro _ _) | (intro _) | exact trivial | simp only [kept_mk, kept_fold, kept_ite, ite_self, launch_kept] | split | with_reducible refine kept_foldl _ _ ?_ ?_ | with_reducible refine Eq.trans (launch_kept _ _ _ _ ?_) ?_)

theorem execWake_kept (dt n : Nat) (s : State) : ∃ t, execWake dt n s = .next t ∧ t.kept = (advance dt s).kept := by
  unfold execWake
  refine ⟨_, rfl, ?_⟩
  generalize advance dt s = s
  repeat' (first | with_reducible rfl | with_reducible assumption | (intro _ _) | (intro _) | exact trivial | simp only [kept_mk, kept_fold, kept_ite, ite_self, launch_kept, recordWake_kept, setStack_kept] | split | with_reducible refine kept_foldl _ _ ?_ ?_ | with_reducible refine Eq.trans (launch_kept _ _ _ _ ?_) ?_)

theorem execDownshift_kept (dt n : Nat) (s : State) : ∃ t, execDownshift dt n s = .next t ∧ t.kept = (advance dt s).kept := by
  unfold execDownshift
  refine ⟨_, rfl, ?_⟩
  generalize advance dt s = s
  repeat' (first | with_reducible rfl | with_reducible assumption | (intro _ _) | (intro _) | exact trivial | simp only [kept_mk, kept_fold, kept_ite, ite_self, takeClusters_kept] | split | with_reducible refine kept_foldl _ _ ?_ ?_)

theorem execLedgerWaitReport_kept (dt n : Nat) (s : State) : ∃ t, execLedgerWaitReport dt n s = .next t ∧ t.kept = (advance dt s).kept := by
  unfold execLedgerWaitReport
  refine ⟨_, rfl, ?_⟩
  generalize advance dt s = s
  repeat' (first | with_reducible rfl | with_reducible assumption | (intro _ _) | (intro _) | exact trivial | simp only [kept_mk, kept_fold, kept_ite, ite_self, pwrEvent_kept, modSlot_kept] | split | with_reducible refine kept_foldl _ _ ?_ ?_)

end Sys2Proof.Machine
end

