-- ==== Sys2Proof/Laws/KeptRing.lean ====
section
/-! SUPPORT. What Ring.lean keeps. -/
set_option linter.unusedSimpArgs false
set_option linter.unusedVariables false
set_option linter.unusedTactic false
set_option linter.unreachableTactic false
namespace Sys2Proof.Machine

theorem outEvent_kept (ev port sheet record : Nat) (s : State) : (outEvent ev port sheet record s).kept = s.kept := by
  unfold outEvent
  repeat' (first | with_reducible rfl | with_reducible assumption | (intro _ _) | (intro _) | exact trivial | simp only [kept_mk, kept_fold, kept_ite, ite_self, report_kept] | split | with_reducible refine kept_foldl _ _ ?_ ?_)

theorem refreshHigh_kept (s : State) : (refreshHigh s).kept = s.kept := by
  unfold refreshHigh
  repeat' (first | with_reducible rfl | with_reducible assumption | (intro _ _) | (intro _) | exact trivial | simp only [kept_mk, kept_fold, kept_ite, ite_self, outEvent_kept] | split | with_reducible refine kept_foldl _ _ ?_ ?_)

theorem putEntries_kept (l : List RingEntry) (s : State) : (putEntries l s).kept = s.kept := by
  unfold putEntries
  repeat' (first | with_reducible rfl | with_reducible assumption | (intro _ _) | (intro _) | exact trivial | simp only [kept_mk, kept_fold, kept_ite, ite_self, refreshHigh_kept] | split | with_reducible refine kept_foldl _ _ ?_ ?_)

theorem freeEntries_kept (s : State) : (freeEntries s).kept = s.kept := by
  unfold freeEntries
  repeat' (first | with_reducible rfl | with_reducible assumption | (intro _ _) | (intro _) | exact trivial | simp only [kept_mk, kept_fold, kept_ite, ite_self, refreshHigh_kept] | split | with_reducible refine kept_foldl _ _ ?_ ?_)

theorem modEntries_kept (p : EntryKind → Bool) (f : RingEntry → RingEntry) (s : State) : (modEntries p f s).kept = s.kept := by
  unfold modEntries
  repeat' (first | with_reducible rfl | with_reducible assumption | (intro _ _) | (intro _) | exact trivial | simp only [kept_mk, kept_fold, kept_ite, ite_self] | split | with_reducible refine kept_foldl _ _ ?_ ?_)

end Sys2Proof.Machine
end

