-- ==== Sys2Proof/Laws/KeptCommand.lean ====
section
/-! SUPPORT. What Command.lean keeps. -/
set_option linter.unusedSimpArgs false
set_option linter.unusedVariables false
set_option linter.unusedTactic false
set_option linter.unreachableTactic false
namespace Sys2Proof.Machine

theorem sendItem_kept (i : MirrorItem) (s : State) : (sendItem i s).kept = s.kept := by
  unfold sendItem
  repeat' (first | with_reducible rfl | with_reducible assumption | (intro _ _) | (intro _) | exact trivial | simp only [kept_mk, kept_fold, kept_ite, ite_self, putEntries_kept] | split | with_reducible refine kept_foldl _ _ ?_ ?_)

theorem mirror_kept (kind : Nat) (body : Bytes) (s : State) : (mirror kind body s).kept = s.kept := by
  unfold mirror
  repeat' (first | with_reducible rfl | with_reducible assumption | (intro _ _) | (intro _) | exact trivial | simp only [kept_mk, kept_fold, kept_ite, ite_self, sendItem_kept] | split | with_reducible refine kept_foldl _ _ ?_ ?_)

theorem queueReply_kept (sender : Nat) (r : Bytes) (s : State) : (queueReply sender r s).kept = s.kept := by
  unfold queueReply
  repeat' (first | with_reducible rfl | with_reducible assumption | (intro _ _) | (intro _) | exact trivial | simp only [kept_mk, kept_fold, kept_ite, ite_self, raiseIbi_kept] | split | with_reducible refine kept_foldl _ _ ?_ ?_)

theorem reply_kept (p : Packet) (status epoch exec : Nat) (data : Bytes) (s : State) : (reply p status epoch exec data s).kept = s.kept := by
  unfold reply
  repeat' (first | with_reducible rfl | with_reducible assumption | (intro _ _) | (intro _) | exact trivial | simp only [kept_mk, kept_fold, kept_ite, ite_self, queueReply_kept] | split | with_reducible refine kept_foldl _ _ ?_ ?_)

theorem standbyCheck_kept (p : Packet) (s : State) (r : Reply) (h : (r.after s).kept = s.kept) :
    ((standbyCheck p s r).after s).kept = s.kept := by
  unfold standbyCheck
  split
  · cases r with
    | ok d t => rfl
    | refuse st d => simp only; split <;> rfl
    | refuseWith st d t => rfl
  · exact h

theorem mirrorCommand_kept (p : Packet) (s : State) : (mirrorCommand p s).kept = s.kept := by
  unfold mirrorCommand
  repeat' (first | with_reducible rfl | with_reducible assumption | (intro _ _) | (intro _) | exact trivial | simp only [kept_mk, kept_fold, kept_ite, ite_self, mirror_kept] | split | with_reducible refine kept_foldl _ _ ?_ ?_)

theorem runPacket_kept (body : Body) (p : Packet) (s : State) (h : ∀ p s, ((body p s).after s).kept = s.kept) :
    (runPacket body p s).kept = s.kept := by
  have hs := standbyCheck_kept p s (body p s) (h p s)
  unfold runPacket
  extract_lets exec
  cases p.framing with
  | some st => exact reply_kept _ _ _ _ _ _
  | none =>
    cases refusedFirst p s with
    | some st => exact reply_kept _ _ _ _ _ _
    | none =>
      revert hs
      cases standbyCheck p s (body p s) with
      | ok d t => intro hs; simp only [reply_kept, mirrorCommand_kept]; exact hs
      | refuse st d => intro _; exact reply_kept _ _ _ _ _ _
      | refuseWith st d t => intro hs; simp only [reply_kept]; exact hs

theorem touchFront_kept (s : State) : (touchFront s).kept = s.kept := by
  unfold touchFront
  repeat' (first | with_reducible rfl | with_reducible assumption | (intro _ _) | (intro _) | exact trivial | simp only [kept_mk, kept_fold, kept_ite, ite_self, touchSram_kept] | split | with_reducible refine kept_foldl _ _ ?_ ?_)

theorem receive_kept (body : Body) (p : Packet) (s : State) (h : ∀ p s, ((body p s).after s).kept = s.kept) :
    (receive body p s).kept = s.kept := by
  unfold receive
  repeat' (first | with_reducible rfl | simp only [runPacket_kept body p s h, touchFront_kept, kept_mk, kept_fold] | split)

theorem hostRow_kept (opcode : Nat) (body : Body) (hb : ∀ p s, ((body p s).after s).kept = s.kept) (dt : Nat) (h : Hdr) (params : Bytes) (s : State) :
    ∃ t, hostRow opcode body dt h params s = .next t ∧ t.kept = (advance dt s).kept :=
  ⟨_, rfl, receive_kept body _ _ hb⟩

theorem refuseFraming_kept (status op tag : Nat) (s : State) : (refuseFraming status op tag s).kept = s.kept :=
  receive_kept _ _ _ (fun _ _ => rfl)

theorem execFramingRefusal_kept (dt : Nat) (k : BadPacket) (s : State) : ∃ t, execFramingRefusal dt k s = .next t ∧ t.kept = (advance dt s).kept := by
  unfold execFramingRefusal
  refine ⟨_, rfl, ?_⟩
  generalize advance dt s = s
  repeat' (first | with_reducible rfl | with_reducible assumption | (intro _ _) | (intro _) | exact trivial | simp only [kept_mk, kept_fold, kept_ite, ite_self, refuseFraming_kept] | split | with_reducible refine kept_foldl _ _ ?_ ?_)

theorem execPacketGap_kept (dt : Nat) (header : Option Bytes) (s : State) : ∃ t, execPacketGap dt header s = .next t ∧ t.kept = (advance dt s).kept := by
  unfold execPacketGap
  refine ⟨_, rfl, ?_⟩
  generalize advance dt s = s
  repeat' (first | with_reducible rfl | with_reducible assumption | (intro _ _) | (intro _) | exact trivial | simp only [kept_mk, kept_fold, kept_ite, ite_self, refuseFraming_kept] | split | with_reducible refine kept_foldl _ _ ?_ ?_)

theorem execOpcodeUnknown_kept (dt : Nat) (h : Hdr) (opcode : Nat) (params : Bytes) (s : State) :
    ∃ t, execOpcodeUnknown dt h opcode params s = .next t ∧ t.kept = (advance dt s).kept := by
  refine ⟨_, rfl, ?_⟩
  split
  · rfl
  · exact receive_kept _ _ _ (fun _ _ => rfl)

theorem execTimeRead_kept (dt : Nat) (h : Hdr) (p : Bytes) (s : State) : ∃ t, execTimeRead dt h p s = .next t ∧ t.kept = (advance dt s).kept :=
  hostRow_kept _ _ (fun p s => timeReadBody_kept p s) dt h p s

theorem execSlotPost_kept (dt : Nat) (h : Hdr) (p : Bytes) (s : State) : ∃ t, execSlotPost dt h p s = .next t ∧ t.kept = (advance dt s).kept :=
  hostRow_kept _ _ (fun p s => slotPostBody_kept p s) dt h p s

theorem execSlotCancel_kept (dt : Nat) (h : Hdr) (p : Bytes) (s : State) : ∃ t, execSlotCancel dt h p s = .next t ∧ t.kept = (advance dt s).kept :=
  hostRow_kept _ _ (fun p s => slotCancelBody_kept p s) dt h p s

theorem execSlotQuery_kept (dt : Nat) (h : Hdr) (p : Bytes) (s : State) : ∃ t, execSlotQuery dt h p s = .next t ∧ t.kept = (advance dt s).kept :=
  hostRow_kept _ _ (fun p s => slotQueryBody_kept p s) dt h p s

end Sys2Proof.Machine
end

