-- ==== Sys2Proof/Laws/KeptParamWrite.lean ====
section
/-! SUPPORT. What ParamWrite.lean keeps. -/
set_option linter.unusedSimpArgs false
set_option linter.unusedVariables false
set_option linter.unusedTactic false
set_option linter.unreachableTactic false
namespace Sys2Proof.Machine

theorem applied_kept (id v : Nat) (s : State) : (applied id v s).kept = s.kept := by
  unfold applied
  repeat' (first | with_reducible rfl | with_reducible assumption | (intro _ _) | (intro _) | exact trivial | simp only [kept_mk, kept_fold, kept_ite, ite_self, releasePin_kept, drive_kept, funcPins_kept, refreshPorts_kept, hold_kept, giveBack_kept] | split | with_reducible refine kept_foldl _ _ ?_ ?_)

theorem applyNow_kept (id v : Nat) (s : State) : (applyNow id v s).kept = s.kept := by
  unfold applyNow
  repeat' (first | with_reducible rfl | with_reducible assumption | (intro _ _) | (intro _) | exact trivial | simp only [kept_mk, kept_fold, kept_ite, ite_self, applied_kept] | split | with_reducible refine kept_foldl _ _ ?_ ?_)

theorem stageValue_kept (id v : Nat) (s : State) : (stageValue id v s).kept = s.kept := by
  unfold stageValue
  repeat' (first | with_reducible rfl | with_reducible assumption | (intro _ _) | (intro _) | exact trivial | simp only [kept_mk, kept_fold, kept_ite, ite_self] | split | with_reducible refine kept_foldl _ _ ?_ ?_)

theorem endDiscovery_kept (s : State) : (endDiscovery s).kept = s.kept := by
  unfold endDiscovery
  repeat' (first | with_reducible rfl | with_reducible assumption | (intro _ _) | (intro _) | exact trivial | simp only [kept_mk, kept_fold, kept_ite, ite_self] | split | with_reducible refine kept_foldl _ _ ?_ ?_)

theorem applyEntries_kept (new : Tab Nat) (s : State) : (applyEntries new s).kept = s.kept := by
  unfold applyEntries
  repeat' (first | with_reducible rfl | with_reducible assumption | (intro _ _) | (intro _) | exact trivial | simp only [kept_mk, kept_fold, kept_ite, ite_self, stageValue_kept, applyNow_kept] | split | with_reducible refine kept_foldl _ _ ?_ ?_)

theorem paramWriteBody_kept (p : Packet) (s : State) : ((paramWriteBody p s).after s).kept = s.kept := by
  unfold paramWriteBody
  repeat' (first | with_reducible rfl | with_reducible assumption | (intro _ _) | (intro _) | exact trivial | simp only [after_ok, after_refuse, after_refuseWith, after_ite, kept_mk, kept_fold, kept_ite, ite_self, applyEntries_kept, endDiscovery_kept] | split | with_reducible refine kept_foldl _ _ ?_ ?_)

theorem execParamWrite_kept (dt : Nat) (h : Hdr) (p : Bytes) (s : State) : ∃ t, execParamWrite dt h p s = .next t ∧ t.kept = (advance dt s).kept :=
  hostRow_kept _ _ (fun p s => paramWriteBody_kept p s) dt h p s

end Sys2Proof.Machine
end

