-- ==== Sys2Proof/Laws/KeptParamRead.lean ====
section
/-! SUPPORT. What ParamRead.lean keeps. -/
set_option linter.unusedSimpArgs false
set_option linter.unusedVariables false
set_option linter.unusedTactic false
set_option linter.unreachableTactic false
namespace Sys2Proof.Machine

theorem paramReadBody_kept (p : Packet) (s : State) : ((paramReadBody p s).after s).kept = s.kept := by
  unfold paramReadBody
  repeat' (first | with_reducible rfl | with_reducible assumption | (intro _ _) | (intro _) | exact trivial | simp only [after_ok, after_refuse, after_refuseWith, after_ite, kept_mk, kept_fold, kept_ite, ite_self, draw_kept] | split | with_reducible refine kept_foldl _ _ ?_ ?_)

theorem execParamRead_kept (dt : Nat) (h : Hdr) (p : Bytes) (s : State) : ∃ t, execParamRead dt h p s = .next t ∧ t.kept = (advance dt s).kept :=
  hostRow_kept _ _ (fun p s => paramReadBody_kept p s) dt h p s

end Sys2Proof.Machine
end

