-- ==== Sys2Proof/Laws/KeptEpoch.lean ====
section
/-! SUPPORT. What Epoch.lean keeps. -/
set_option linter.unusedSimpArgs false
set_option linter.unusedVariables false
set_option linter.unusedTactic false
set_option linter.unreachableTactic false
namespace Sys2Proof.Machine

theorem adoptIds_kept (p : Nat → Bool) (s : State) : (adoptIds p s).kept = s.kept := by
  unfold adoptIds
  repeat' (first | with_reducible rfl | with_reducible assumption | (intro _ _) | (intro _) | exact trivial | simp only [kept_mk, kept_fold, kept_ite, ite_self] | split | with_reducible refine kept_foldl _ _ ?_ ?_)

theorem adoptStream_kept (k : Nat) (s : State) : (adoptStream k s).kept = s.kept := by
  unfold adoptStream
  repeat' (first | with_reducible rfl | with_reducible assumption | (intro _ _) | (intro _) | exact trivial | simp only [kept_mk, kept_fold, kept_ite, ite_self, adoptIds_kept, modStream_kept] | split | with_reducible refine kept_foldl _ _ ?_ ?_)

theorem adoptClass_kept (c : Nat) (s : State) : (adoptClass c s).kept = s.kept := by
  unfold adoptClass
  repeat' (first | with_reducible rfl | with_reducible assumption | (intro _ _) | (intro _) | exact trivial | simp only [kept_mk, kept_fold, kept_ite, ite_self, adoptIds_kept] | split | with_reducible refine kept_foldl _ _ ?_ ?_)

theorem adoptJob_kept (j : Nat) (s : State) : (adoptJob j s).kept = s.kept := by
  unfold adoptJob
  repeat' (first | with_reducible rfl | with_reducible assumption | (intro _ _) | (intro _) | exact trivial | simp only [kept_mk, kept_fold, kept_ite, ite_self] | split | with_reducible refine kept_foldl _ _ ?_ ?_)

theorem adoptBlocks_kept (s : State) : (adoptBlocks s).kept = s.kept := by
  unfold adoptBlocks
  repeat' (first | with_reducible rfl | with_reducible assumption | (intro _ _) | (intro _) | exact trivial | simp only [kept_mk, kept_fold, kept_ite, ite_self, adoptIds_kept] | split | with_reducible refine kept_foldl _ _ ?_ ?_)

theorem execEpochAdoption_kept (dt : Nat) (s : State) : ∃ t, execEpochAdoption dt s = .next t ∧ t.kept = (advance dt s).kept := by
  unfold execEpochAdoption
  refine ⟨_, rfl, ?_⟩
  generalize advance dt s = s
  repeat' (first | with_reducible rfl | with_reducible assumption | (intro _ _) | (intro _) | exact trivial | simp only [kept_mk, kept_fold, kept_ite, ite_self, adoptBlocks_kept] | split | with_reducible refine kept_foldl _ _ ?_ ?_)

theorem postText_kept (s : State) : (postText s).kept = s.kept := by
  unfold postText
  repeat' (first | with_reducible rfl | with_reducible assumption | (intro _ _) | (intro _) | exact trivial | simp only [kept_mk, kept_fold, kept_ite, ite_self] | split | with_reducible refine kept_foldl _ _ ?_ ?_)

theorem postEpoch_kept (quietDue : Option Nat) (s : State) : (postEpoch quietDue s).kept = s.kept := by
  unfold postEpoch
  repeat' (first | with_reducible rfl | with_reducible assumption | (intro _ _) | (intro _) | exact trivial | simp only [kept_mk, kept_fold, kept_ite, ite_self, postText_kept, addSlot_kept, cmdEvent_kept] | split | with_reducible refine kept_foldl _ _ ?_ ?_)

theorem epochPostBody_kept (p : Packet) (s : State) : ((epochPostBody p s).after s).kept = s.kept := by
  unfold epochPostBody
  repeat' (first | with_reducible rfl | with_reducible assumption | (intro _ _) | (intro _) | exact trivial | simp only [after_ok, after_refuse, after_refuseWith, after_ite, kept_mk, kept_fold, kept_ite, ite_self, postEpoch_kept] | split | with_reducible refine kept_foldl _ _ ?_ ?_)

theorem epochDiscardBody_kept (p : Packet) (s : State) : ((epochDiscardBody p s).after s).kept = s.kept := by
  unfold epochDiscardBody
  repeat' (first | with_reducible rfl | with_reducible assumption | (intro _ _) | (intro _) | exact trivial | simp only [after_ok, after_refuse, after_refuseWith, after_ite, kept_mk, kept_fold, kept_ite, ite_self] | split | with_reducible refine kept_foldl _ _ ?_ ?_)

theorem epochStatusBody_kept (p : Packet) (s : State) : ((epochStatusBody p s).after s).kept = s.kept := by
  unfold epochStatusBody
  repeat' (first | with_reducible rfl | with_reducible assumption | (intro _ _) | (intro _) | exact trivial | simp only [after_ok, after_refuse, after_refuseWith, after_ite, kept_mk, kept_fold, kept_ite, ite_self] | split | with_reducible refine kept_foldl _ _ ?_ ?_)

theorem adapterActivateBody_kept (p : Packet) (s : State) : ((adapterActivateBody p s).after s).kept = s.kept := by
  unfold adapterActivateBody
  repeat' (first | with_reducible rfl | with_reducible assumption | (intro _ _) | (intro _) | exact trivial | simp only [after_ok, after_refuse, after_refuseWith, after_ite, kept_mk, kept_fold, kept_ite, ite_self] | split | with_reducible refine kept_foldl _ _ ?_ ?_)

theorem resourceQueryBody_kept (p : Packet) (s : State) : ((resourceQueryBody p s).after s).kept = s.kept := by
  unfold resourceQueryBody
  repeat' (first | with_reducible rfl | with_reducible assumption | (intro _ _) | (intro _) | exact trivial | simp only [after_ok, after_refuse, after_refuseWith, after_ite, kept_mk, kept_fold, kept_ite, ite_self] | split | with_reducible refine kept_foldl _ _ ?_ ?_)

theorem execEpochPost_kept (dt : Nat) (h : Hdr) (p : Bytes) (s : State) : ∃ t, execEpochPost dt h p s = .next t ∧ t.kept = (advance dt s).kept :=
  hostRow_kept _ _ (fun p s => epochPostBody_kept p s) dt h p s

theorem execEpochDiscard_kept (dt : Nat) (h : Hdr) (p : Bytes) (s : State) : ∃ t, execEpochDiscard dt h p s = .next t ∧ t.kept = (advance dt s).kept :=
  hostRow_kept _ _ (fun p s => epochDiscardBody_kept p s) dt h p s

theorem execEpochStatus_kept (dt : Nat) (h : Hdr) (p : Bytes) (s : State) : ∃ t, execEpochStatus dt h p s = .next t ∧ t.kept = (advance dt s).kept :=
  hostRow_kept _ _ (fun p s => epochStatusBody_kept p s) dt h p s

theorem execAdapterActivate_kept (dt : Nat) (h : Hdr) (p : Bytes) (s : State) : ∃ t, execAdapterActivate dt h p s = .next t ∧ t.kept = (advance dt s).kept :=
  hostRow_kept _ _ (fun p s => adapterActivateBody_kept p s) dt h p s

theorem execResourceQuery_kept (dt : Nat) (h : Hdr) (p : Bytes) (s : State) : ∃ t, execResourceQuery dt h p s = .next t ∧ t.kept = (advance dt s).kept :=
  hostRow_kept _ _ (fun p s => resourceQueryBody_kept p s) dt h p s

end Sys2Proof.Machine
end

