-- ==== Sys2Proof/Laws/KeptSecurity.lean ====
section
/-! SUPPORT. What Security.lean keeps. -/
set_option linter.unusedSimpArgs false
set_option linter.unusedVariables false
set_option linter.unusedTactic false
set_option linter.unreachableTactic false
namespace Sys2Proof.Machine

theorem writeDir_kept (f : Directory → Directory) (s : State) : (writeDir f s).kept = s.kept := by
  unfold writeDir
  repeat' (first | with_reducible rfl | with_reducible assumption | (intro _ _) | (intro _) | exact trivial | simp only [kept_mk, kept_fold, kept_ite, ite_self] | split | with_reducible refine kept_foldl _ _ ?_ ?_)

theorem secIdentityBody_kept (p : Packet) (s : State) : ((secIdentityBody p s).after s).kept = s.kept := by
  unfold secIdentityBody
  repeat' (first | with_reducible rfl | with_reducible assumption | (intro _ _) | (intro _) | exact trivial | simp only [after_ok, after_refuse, after_refuseWith, after_ite, kept_mk, kept_fold, kept_ite, ite_self] | split | with_reducible refine kept_foldl _ _ ?_ ?_)

theorem secAttestBody_kept (p : Packet) (s : State) : ((secAttestBody p s).after s).kept = s.kept := by
  unfold secAttestBody
  repeat' (first | with_reducible rfl | with_reducible assumption | (intro _ _) | (intro _) | exact trivial | simp only [after_ok, after_refuse, after_refuseWith, after_ite, kept_mk, kept_fold, kept_ite, ite_self, draw_kept] | split | with_reducible refine kept_foldl _ _ ?_ ?_)

theorem failVerify_kept (st : Nat) (s : State) : (failVerify st s).kept = s.kept := by
  unfold failVerify
  repeat' (first | with_reducible rfl | with_reducible assumption | (intro _ _) | (intro _) | exact trivial | simp only [kept_mk, kept_fold, kept_ite, ite_self, secEvent_kept] | split | with_reducible refine kept_foldl _ _ ?_ ?_)

theorem imageCommitBody_kept (checks : State → Image → Option Nat) (p : Packet) (s : State) : ((imageCommitBody checks p s).after s).kept = s.kept := by
  unfold imageCommitBody
  repeat' (first | with_reducible rfl | with_reducible assumption | (intro _ _) | (intro _) | exact trivial | simp only [after_ok, after_refuse, after_refuseWith, after_ite, kept_mk, kept_fold, kept_ite, ite_self, failVerify_kept, writeDir_kept, secEvent_kept] | split | with_reducible refine kept_foldl _ _ ?_ ?_)

theorem imageActivateBody_kept (p : Packet) (s : State) : ((imageActivateBody p s).after s).kept = s.kept := by
  unfold imageActivateBody
  repeat' (first | with_reducible rfl | with_reducible assumption | (intro _ _) | (intro _) | exact trivial | simp only [after_ok, after_refuse, after_refuseWith, after_ite, kept_mk, kept_fold, kept_ite, ite_self, writeDir_kept] | split | with_reducible refine kept_foldl _ _ ?_ ?_)

theorem profileStoreBody_kept (p : Packet) (s : State) : ((profileStoreBody p s).after s).kept = s.kept := by
  unfold profileStoreBody
  repeat' (first | with_reducible rfl | with_reducible assumption | (intro _ _) | (intro _) | exact trivial | simp only [after_ok, after_refuse, after_refuseWith, after_ite, kept_mk, kept_fold, kept_ite, ite_self] | split | with_reducible refine kept_foldl _ _ ?_ ?_)

theorem askBoot_kept (s : State) : (askBoot s).kept = s.kept := by
  unfold askBoot
  repeat' (first | with_reducible rfl | with_reducible assumption | (intro _ _) | (intro _) | exact trivial | simp only [kept_mk, kept_fold, kept_ite, ite_self] | split | with_reducible refine kept_foldl _ _ ?_ ?_)

theorem secRebootBody_kept (p : Packet) (s : State) : ((secRebootBody p s).after s).kept = s.kept := by
  unfold secRebootBody
  repeat' (first | with_reducible rfl | with_reducible assumption | (intro _ _) | (intro _) | exact trivial | simp only [after_ok, after_refuse, after_refuseWith, after_ite, kept_mk, kept_fold, kept_ite, ite_self, askBoot_kept] | split | with_reducible refine kept_foldl _ _ ?_ ?_)

theorem execSecIdentity_kept (dt : Nat) (h : Hdr) (p : Bytes) (s : State) : ∃ t, execSecIdentity dt h p s = .next t ∧ t.kept = (advance dt s).kept :=
  hostRow_kept _ _ (fun p s => secIdentityBody_kept p s) dt h p s

theorem execSecAttest_kept (dt : Nat) (h : Hdr) (p : Bytes) (s : State) : ∃ t, execSecAttest dt h p s = .next t ∧ t.kept = (advance dt s).kept :=
  hostRow_kept _ _ (fun p s => secAttestBody_kept p s) dt h p s

theorem execImageActivate_kept (dt : Nat) (h : Hdr) (p : Bytes) (s : State) : ∃ t, execImageActivate dt h p s = .next t ∧ t.kept = (advance dt s).kept :=
  hostRow_kept _ _ (fun p s => imageActivateBody_kept p s) dt h p s

theorem execProfileStore_kept (dt : Nat) (h : Hdr) (p : Bytes) (s : State) : ∃ t, execProfileStore dt h p s = .next t ∧ t.kept = (advance dt s).kept :=
  hostRow_kept _ _ (fun p s => profileStoreBody_kept p s) dt h p s

theorem execSecReboot_kept (dt : Nat) (h : Hdr) (p : Bytes) (s : State) : ∃ t, execSecReboot dt h p s = .next t ∧ t.kept = (advance dt s).kept :=
  hostRow_kept _ _ (fun p s => secRebootBody_kept p s) dt h p s

end Sys2Proof.Machine
end

