-- ==== Sys2Proof/Laws/KeptPowerRows.lean ====
section
/-! SUPPORT. What PowerRows.lean keeps. -/
set_option linter.unusedSimpArgs false
set_option linter.unusedVariables false
set_option linter.unusedTactic false
set_option linter.unreachableTactic false
namespace Sys2Proof.Machine

theorem savePlan_kept (s : State) : (savePlan s).kept = s.kept := by
  unfold savePlan
  repeat' (first | with_reducible rfl | with_reducible assumption | (intro _ _) | (intro _) | exact trivial | simp only [kept_mk, kept_fold, kept_ite, ite_self] | split | with_reducible refine kept_foldl _ _ ?_ ?_)

theorem runReplan_kept (s : State) : (runReplan s).kept = s.kept := by
  unfold runReplan
  repeat' (first | with_reducible rfl | with_reducible assumption | (intro _ _) | (intro _) | exact trivial | simp only [kept_mk, kept_fold, kept_ite, ite_self, pwrEvent_kept, savePlan_kept] | split | with_reducible refine kept_foldl _ _ ?_ ?_)

theorem execReplan_kept (dt : Nat) (s : State) : ∃ t, execReplan dt s = .next t ∧ t.kept = (advance dt s).kept := by
  unfold execReplan
  refine ⟨_, rfl, ?_⟩
  generalize advance dt s = s
  repeat' (first | with_reducible rfl | with_reducible assumption | (intro _ _) | (intro _) | exact trivial | simp only [kept_mk, kept_fold, kept_ite, ite_self, runReplan_kept] | split | with_reducible refine kept_foldl _ _ ?_ ?_)

theorem execRingOscillatorCount_kept (dt cluster : Nat) (counts : List Nat) (s : State) : ∃ t, execRingOscillatorCount dt cluster counts s = .next t ∧ t.kept = (advance dt s).kept := by
  unfold execRingOscillatorCount
  refine ⟨_, rfl, ?_⟩
  generalize advance dt s = s
  repeat' (first | with_reducible rfl | with_reducible assumption | (intro _ _) | (intro _) | exact trivial | simp only [kept_mk, kept_fold, kept_ite, ite_self] | split | with_reducible refine kept_foldl _ _ ?_ ?_)

theorem execPathMonitorSample_kept (dt cluster ps : Nat) (s : State) : ∃ t, execPathMonitorSample dt cluster ps s = .next t ∧ t.kept = (advance dt s).kept := by
  unfold execPathMonitorSample
  refine ⟨_, rfl, ?_⟩
  generalize advance dt s = s
  repeat' (first | with_reducible rfl | with_reducible assumption | (intro _ _) | (intro _) | exact trivial | simp only [kept_mk, kept_fold, kept_ite, ite_self] | split | with_reducible refine kept_foldl _ _ ?_ ?_)

theorem execCoreSenseSample_kept (dt microvolt : Nat) (s : State) : ∃ t, execCoreSenseSample dt microvolt s = .next t ∧ t.kept = (advance dt s).kept := by
  unfold execCoreSenseSample
  refine ⟨_, rfl, ?_⟩
  generalize advance dt s = s
  repeat' (first | with_reducible rfl | with_reducible assumption | (intro _ _) | (intro _) | exact trivial | simp only [kept_mk, kept_fold, kept_ite, ite_self] | split | with_reducible refine kept_foldl _ _ ?_ ?_)

theorem enterSleep_kept (s : State) : (enterSleep s).kept = s.kept := by
  unfold enterSleep
  repeat' (first | with_reducible rfl | with_reducible assumption | (intro _ _) | (intro _) | exact trivial | simp only [kept_mk, kept_fold, kept_ite, ite_self, savePlan_kept, withMode_kept] | split | with_reducible refine kept_foldl _ _ ?_ ?_ | with_reducible refine Eq.trans (withMode_kept _ _ ?_) ?_)

theorem askDoze_kept (s : State) : (askDoze s).kept = s.kept := rfl

theorem pwrStateBody_kept (p : Packet) (s : State) : ((pwrStateBody p s).after s).kept = s.kept := by
  unfold pwrStateBody
  repeat' (first | with_reducible rfl | with_reducible assumption | (intro _ _) | (intro _) | exact trivial | simp only [after_ok, after_refuse, after_refuseWith, after_ite, kept_mk, kept_fold, kept_ite, ite_self, askDoze_kept] | split | with_reducible refine kept_foldl _ _ ?_ ?_)

theorem pwrStatusBody_kept (p : Packet) (s : State) : ((pwrStatusBody p s).after s).kept = s.kept := by
  unfold pwrStatusBody
  repeat' (first | with_reducible rfl | with_reducible assumption | (intro _ _) | (intro _) | exact trivial | simp only [after_ok, after_refuse, after_refuseWith, after_ite, kept_mk, kept_fold, kept_ite, ite_self] | split | with_reducible refine kept_foldl _ _ ?_ ?_)

theorem ageQueryBody_kept (p : Packet) (s : State) : ((ageQueryBody p s).after s).kept = s.kept := by
  unfold ageQueryBody
  repeat' (first | with_reducible rfl | with_reducible assumption | (intro _ _) | (intro _) | exact trivial | simp only [after_ok, after_refuse, after_refuseWith, after_ite, kept_mk, kept_fold, kept_ite, ite_self] | split | with_reducible refine kept_foldl _ _ ?_ ?_)

theorem ageReplanBody_kept (p : Packet) (s : State) : ((ageReplanBody p s).after s).kept = s.kept := by
  unfold ageReplanBody
  repeat' (first | with_reducible rfl | with_reducible assumption | (intro _ _) | (intro _) | exact trivial | simp only [after_ok, after_refuse, after_refuseWith, after_ite, kept_mk, kept_fold, kept_ite, ite_self] | split | with_reducible refine kept_foldl _ _ ?_ ?_)

theorem finishSleep_kept (s : State) : (finishSleep s).kept = s.kept := by
  unfold finishSleep
  repeat' (first | with_reducible rfl | with_reducible assumption | (intro _ _) | (intro _) | exact trivial | simp only [kept_mk, kept_fold, kept_ite, ite_self, enterSleep_kept] | split | with_reducible refine kept_foldl _ _ ?_ ?_)

theorem execPwrState_kept (dt : Nat) (h : Hdr) (p : Bytes) (s : State) : ∃ t, execPwrState dt h p s = .next t ∧ t.kept = (advance dt s).kept :=
  ⟨_, rfl, (finishSleep_kept _).trans (receive_kept pwrStateBody _ _ (fun p s => pwrStateBody_kept p s))⟩

theorem execPwrStatus_kept (dt : Nat) (h : Hdr) (p : Bytes) (s : State) : ∃ t, execPwrStatus dt h p s = .next t ∧ t.kept = (advance dt s).kept :=
  hostRow_kept _ _ (fun p s => pwrStatusBody_kept p s) dt h p s

theorem execAgeQuery_kept (dt : Nat) (h : Hdr) (p : Bytes) (s : State) : ∃ t, execAgeQuery dt h p s = .next t ∧ t.kept = (advance dt s).kept :=
  hostRow_kept _ _ (fun p s => ageQueryBody_kept p s) dt h p s

theorem execAgeReplan_kept (dt : Nat) (h : Hdr) (p : Bytes) (s : State) : ∃ t, execAgeReplan dt h p s = .next t ∧ t.kept = (advance dt s).kept :=
  hostRow_kept _ _ (fun p s => ageReplanBody_kept p s) dt h p s

theorem wakeCauseIn_kept (cause : Nat) (s : State) : (wakeCauseIn cause s).kept = s.kept := by
  unfold wakeCauseIn
  repeat' (first | with_reducible rfl | with_reducible assumption | (intro _ _) | (intro _) | exact trivial | simp only [kept_mk, kept_fold, kept_ite, ite_self] | split | with_reducible refine kept_foldl _ _ ?_ ?_)

theorem execSleepWakeWrite_kept (dt addr : Nat) (s : State) : ∃ t, execSleepWakeWrite dt addr s = .next t ∧ t.kept = (advance dt s).kept := by
  unfold execSleepWakeWrite
  refine ⟨_, rfl, ?_⟩
  generalize advance dt s = s
  repeat' (first | with_reducible rfl | with_reducible assumption | (intro _ _) | (intro _) | exact trivial | simp only [kept_mk, kept_fold, kept_ite, ite_self, wakeCauseIn_kept] | split | with_reducible refine kept_foldl _ _ ?_ ?_)

theorem execWakeComparator_kept (dt ticks : Nat) (s : State) : ∃ t, execWakeComparator dt ticks s = .next t ∧ t.kept = (advance dt s).kept := by
  unfold execWakeComparator
  refine ⟨_, rfl, ?_⟩
  generalize advance dt s = s
  repeat' (first | with_reducible rfl | with_reducible assumption | (intro _ _) | (intro _) | exact trivial | simp only [kept_mk, kept_fold, kept_ite, ite_self, wakeCauseIn_kept] | split | with_reducible refine kept_foldl _ _ ?_ ?_)

theorem standingCharges_kept (s : State) : (standingCharges s).kept = s.kept := by
  unfold standingCharges
  repeat' (first | with_reducible rfl | with_reducible assumption | (intro _ _) | (intro _) | exact trivial | simp only [kept_mk, kept_fold, kept_ite, ite_self, hold_kept] | split | with_reducible refine kept_foldl _ _ ?_ ?_)

theorem thaw_kept (cause ticks : Nat) (s : State) : (thaw cause ticks s).kept = { s.kept with tb := restoredTb s ticks } := by
  unfold thaw
  rw [standingCharges_kept]
  have h := recordWake_kept 4 cause 0x7F s
  generalize recordWake 4 cause 0x7F s = t at h
  have h1 := congrArg Kept.pending h
  have h2 := congrArg Kept.variant h
  have h3 := congrArg Kept.fuses h
  have h4 := congrArg Kept.slots h
  simp only [State.kept] at *
  simp only [h1, h2, h3, h4]

theorem execDeviceReady_kept (dt : Nat) (s : State) : ∃ t, execDeviceReady dt s = .next t ∧ t.kept = (advance dt s).kept := by
  unfold execDeviceReady
  refine ⟨_, rfl, ?_⟩
  generalize advance dt s = s
  repeat' (first | with_reducible rfl | with_reducible assumption | (intro _ _) | (intro _) | exact trivial | simp only [kept_mk, kept_fold, kept_ite, ite_self, post_kept, funcPins_kept, raiseIbi_kept] | split | with_reducible refine kept_foldl _ _ ?_ ?_)

theorem dozeStack_kept (k : Nat) (s : State) : (dozeStack k s).kept = s.kept := by
  unfold dozeStack
  repeat' (first | with_reducible rfl | with_reducible assumption | (intro _ _) | (intro _) | exact trivial | simp only [kept_mk, kept_fold, kept_ite, ite_self, setSram_kept, giveBack_kept, setStack_kept, modCore_kept] | split | with_reducible refine kept_foldl _ _ ?_ ?_)

theorem execDozeEntry_kept (dt stack : Nat) (s : State) : ∃ t, execDozeEntry dt stack s = .next t ∧ t.kept = (advance dt s).kept := by
  unfold execDozeEntry
  refine ⟨_, rfl, ?_⟩
  generalize advance dt s = s
  repeat' (first | with_reducible rfl | with_reducible assumption | (intro _ _) | (intro _) | exact trivial | simp only [kept_mk, kept_fold, kept_ite, ite_self, setStack_kept, withMode_kept, retryWaiting_kept, dozeStack_kept] | split | with_reducible refine kept_foldl _ _ ?_ ?_ | with_reducible refine Eq.trans (withMode_kept _ _ ?_) ?_)

theorem dieReady_kept (k : Nat) (s : State) : (dieReady k s).kept = s.kept := by
  unfold dieReady
  extract_lets s1 s2 p0 p1 p2 s3
  have h1 : s1.kept = s.kept := giveBack_kept _ _
  have h2 : s2.kept = s.kept := by simp only [s2, hold_kept, h1]
  have h3 : s3.kept = s.kept := h2
  rw [pumpReturns_kept]
  exact kept_foldl _ _ (fun s i => modCore_kept _ _ s) h3

theorem domainReady_kept (domain : Nat) (s : State) : (domainReady domain s).kept = s.kept := by
  unfold domainReady
  repeat' (first | with_reducible rfl | with_reducible assumption | (intro _ _) | (intro _) | exact trivial | simp only [kept_mk, kept_fold, kept_ite, ite_self, withMode_kept, retryWaiting_kept, dieReady_kept] | split | with_reducible refine kept_foldl _ _ ?_ ?_ | with_reducible refine Eq.trans (withMode_kept _ _ ?_) ?_)

theorem execClusterHoldExpiry_kept (dt cluster : Nat) (s : State) : ∃ t, execClusterHoldExpiry dt cluster s = .next t ∧ t.kept = (advance dt s).kept := by
  unfold execClusterHoldExpiry
  refine ⟨_, rfl, ?_⟩
  generalize advance dt s = s
  repeat' (first | with_reducible rfl | with_reducible assumption | (intro _ _) | (intro _) | exact trivial | simp only [kept_mk, kept_fold, kept_ite, ite_self, withMode_kept, retryWaiting_kept, returnCluster_kept] | split | with_reducible refine kept_foldl _ _ ?_ ?_ | with_reducible refine Eq.trans (withMode_kept _ _ ?_) ?_)

theorem returnIdle_kept (exceeds : State → Nat → Bool) (event : Bool) (x0 : List Nat) (s : State) : (returnIdle exceeds event x0 s).kept = s.kept := by
  induction x0 generalizing s with
  | nil =>
    unfold returnIdle
    repeat' (first | with_reducible rfl | with_reducible assumption | (intro _ _) | (intro _) | exact trivial | simp only [kept_mk, kept_fold, kept_ite, ite_self, withMode_kept, returnCluster_kept, pwrEvent_kept] | split | with_reducible refine kept_foldl _ _ ?_ ?_ | with_reducible refine Eq.trans (withMode_kept _ _ ?_) ?_)
  | cons y l ih =>
    unfold returnIdle
    repeat' (first | with_reducible rfl | with_reducible assumption | (intro _ _) | (intro _) | exact trivial | simp only [kept_mk, kept_fold, kept_ite, ite_self, ih, withMode_kept, returnCluster_kept, pwrEvent_kept] | split | with_reducible refine kept_foldl _ _ ?_ ?_ | with_reducible refine Eq.trans (withMode_kept _ _ ?_) ?_)

theorem execBudgetChange_kept (dt : Nat) (s : State) : ∃ t, execBudgetChange dt s = .next t ∧ t.kept = (advance dt s).kept := by
  unfold execBudgetChange
  refine ⟨_, rfl, ?_⟩
  generalize advance dt s = s
  repeat' (first | with_reducible rfl | with_reducible assumption | (intro _ _) | (intro _) | exact trivial | simp only [kept_mk, kept_fold, kept_ite, ite_self, withMode_kept, retryWaiting_kept, returnIdle_kept] | split | with_reducible refine kept_foldl _ _ ?_ ?_ | with_reducible refine Eq.trans (withMode_kept _ _ ?_) ?_)

theorem execThermalSample_kept (dt : Nat) (temps : List Int) (s : State) : ∃ t, execThermalSample dt temps s = .next t ∧ t.kept = (advance dt s).kept := by
  unfold execThermalSample
  refine ⟨_, rfl, ?_⟩
  generalize advance dt s = s
  repeat' (first | with_reducible rfl | with_reducible assumption | (intro _ _) | (intro _) | exact trivial | simp only [kept_mk, kept_fold, kept_ite, ite_self, freezeNow_kept, logFault_kept, pwrEvent_kept, withMode_kept, retryWaiting_kept, returnIdle_kept] | split | with_reducible refine kept_foldl _ _ ?_ ?_ | with_reducible refine Eq.trans (withMode_kept _ _ ?_) ?_)

theorem execBrownOut_kept (dt rail : Nat) (s : State) : ∃ t, execBrownOut dt rail s = .next t ∧ t.kept = (advance dt s).kept := by
  unfold execBrownOut
  refine ⟨_, rfl, ?_⟩
  generalize advance dt s = s
  repeat' (first | with_reducible rfl | with_reducible assumption | (intro _ _) | (intro _) | exact trivial | simp only [kept_mk, kept_fold, kept_ite, ite_self, dozeStack_kept, withMode_kept, raiseFault_kept] | split | with_reducible refine kept_foldl _ _ ?_ ?_ | with_reducible refine Eq.trans (withMode_kept _ _ ?_) ?_)

theorem execReverseBias_kept (dt cluster : Nat) (s : State) : ∃ t, execReverseBias dt cluster s = .next t ∧ t.kept = (advance dt s).kept := by
  unfold execReverseBias
  refine ⟨_, rfl, ?_⟩
  generalize advance dt s = s
  repeat' (first | with_reducible rfl | with_reducible assumption | (intro _ _) | (intro _) | exact trivial | simp only [kept_mk, kept_fold, kept_ite, ite_self] | split | with_reducible refine kept_foldl _ _ ?_ ?_)

end Sys2Proof.Machine
end

