-- ==== Sys2Proof/Laws/KeptPinRows.lean ====
section
/-! SUPPORT. What PinRows.lean keeps. -/
set_option linter.unusedSimpArgs false
set_option linter.unusedVariables false
set_option linter.unusedTactic false
set_option linter.unreachableTactic false
namespace Sys2Proof.Machine

theorem execRefInterruption_kept (dt ns : Nat) (s : State) : ∃ t, execRefInterruption dt ns s = .next t ∧ t.kept = (advance dt s).kept := by
  unfold execRefInterruption
  refine ⟨_, rfl, ?_⟩
  generalize advance dt s = s
  repeat' (first | with_reducible rfl | with_reducible assumption | (intro _ _) | (intro _) | exact trivial | simp only [kept_mk, kept_fold, kept_ite, ite_self] | split | with_reducible refine kept_foldl _ _ ?_ ?_)

theorem loseAon_kept (s : State) : (loseAon s).kept = s.kept := by
  unfold loseAon
  repeat' (first | with_reducible rfl | with_reducible assumption | (intro _ _) | (intro _) | exact trivial | simp only [kept_mk, kept_fold, kept_ite, ite_self, pinEvent_kept] | split | with_reducible refine kept_foldl _ _ ?_ ?_)

theorem execAonClockLost_kept (dt : Nat) (s : State) : ∃ t, execAonClockLost dt s = .next t ∧ t.kept = (advance dt s).kept := by
  unfold execAonClockLost
  refine ⟨_, rfl, ?_⟩
  generalize advance dt s = s
  repeat' (first | with_reducible rfl | with_reducible assumption | (intro _ _) | (intro _) | exact trivial | simp only [kept_mk, kept_fold, kept_ite, ite_self, askBoot_kept, recordWake_kept, loseAon_kept] | split | with_reducible refine kept_foldl _ _ ?_ ?_)

theorem execAonClockRestored_kept (dt : Nat) (s : State) : ∃ t, execAonClockRestored dt s = .next t ∧ t.kept = (advance dt s).kept := by
  unfold execAonClockRestored
  refine ⟨_, rfl, ?_⟩
  generalize advance dt s = s
  repeat' (first | with_reducible rfl | with_reducible assumption | (intro _ _) | (intro _) | exact trivial | simp only [kept_mk, kept_fold, kept_ite, ite_self, pinEvent_kept] | split | with_reducible refine kept_foldl _ _ ?_ ?_)

theorem execAonCalibration_kept (dt ns : Nat) (s : State) : ∃ t, execAonCalibration dt ns s = .next t ∧ t.kept = (advance dt s).kept := by
  unfold execAonCalibration
  refine ⟨_, rfl, ?_⟩
  generalize advance dt s = s
  repeat' (first | with_reducible rfl | with_reducible assumption | (intro _ _) | (intro _) | exact trivial | simp only [kept_mk, kept_fold, kept_ite, ite_self] | split | with_reducible refine kept_foldl _ _ ?_ ?_)

theorem execTbSync_kept (dt die : Nat) (s : State) : ∃ t, execTbSync dt die s = .next t ∧ t.kept = (advance dt s).kept := by
  unfold execTbSync
  refine ⟨_, rfl, ?_⟩
  generalize advance dt s = s
  repeat' (first | with_reducible rfl | with_reducible assumption | (intro _ _) | (intro _) | exact trivial | simp only [kept_mk, kept_fold, kept_ite, ite_self] | split | with_reducible refine kept_foldl _ _ ?_ ?_)

theorem acceptEdge_kept (p : Nat) (level : Bool) (s : State) : (acceptEdge p level s).kept = s.kept := by
  unfold acceptEdge
  repeat' (first | with_reducible rfl | with_reducible assumption | (intro _ _) | (intro _) | exact trivial | simp only [kept_mk, kept_fold, kept_ite, ite_self] | split | with_reducible refine kept_foldl _ _ ?_ ?_)

theorem execHostInEdge_kept (dt pin : Nat) (level : Bool) (s : State) : ∃ t, execHostInEdge dt pin level s = .next t ∧ t.kept = (advance dt s).kept := by
  unfold execHostInEdge
  refine ⟨_, rfl, ?_⟩
  generalize advance dt s = s
  repeat' (first | with_reducible rfl | with_reducible assumption | (intro _ _) | (intro _) | exact trivial | simp only [kept_mk, kept_fold, kept_ite, ite_self, pinEvent_kept, acceptEdge_kept] | split | with_reducible refine kept_foldl _ _ ?_ ?_)

theorem wakeDies_kept (cause : Nat) (s : State) : (wakeDies cause s).kept = s.kept := by
  unfold wakeDies
  repeat' (first | with_reducible rfl | with_reducible assumption | (intro _ _) | (intro _) | exact trivial | simp only [kept_mk, kept_fold, kept_ite, ite_self, postWake_kept, setStack_kept] | split | with_reducible refine kept_foldl _ _ ?_ ?_)

theorem execWakeInEdge_kept (dt pin : Nat) (level : Bool) (s : State) : ∃ t, execWakeInEdge dt pin level s = .next t ∧ t.kept = (advance dt s).kept := by
  unfold execWakeInEdge
  refine ⟨_, rfl, ?_⟩
  generalize advance dt s = s
  repeat' (first | with_reducible rfl | with_reducible assumption | (intro _ _) | (intro _) | exact trivial | simp only [kept_mk, kept_fold, kept_ite, ite_self, acceptEdge_kept, wakeCauseIn_kept, wakeDies_kept] | split | with_reducible refine kept_foldl _ _ ?_ ?_)

theorem pinStatusBody_kept (p : Packet) (s : State) : ((pinStatusBody p s).after s).kept = s.kept := by
  unfold pinStatusBody
  repeat' (first | with_reducible rfl | with_reducible assumption | (intro _ _) | (intro _) | exact trivial | simp only [after_ok, after_refuse, after_refuseWith, after_ite, kept_mk, kept_fold, kept_ite, ite_self] | split | with_reducible refine kept_foldl _ _ ?_ ?_)

theorem clockStatusBody_kept (p : Packet) (s : State) : ((clockStatusBody p s).after s).kept = s.kept := by
  unfold clockStatusBody
  repeat' (first | with_reducible rfl | with_reducible assumption | (intro _ _) | (intro _) | exact trivial | simp only [after_ok, after_refuse, after_refuseWith, after_ite, kept_mk, kept_fold, kept_ite, ite_self] | split | with_reducible refine kept_foldl _ _ ?_ ?_)

theorem execPinStatus_kept (dt : Nat) (h : Hdr) (p : Bytes) (s : State) : ∃ t, execPinStatus dt h p s = .next t ∧ t.kept = (advance dt s).kept :=
  hostRow_kept _ _ (fun p s => pinStatusBody_kept p s) dt h p s

theorem execClockStatus_kept (dt : Nat) (h : Hdr) (p : Bytes) (s : State) : ∃ t, execClockStatus dt h p s = .next t ∧ t.kept = (advance dt s).kept :=
  hostRow_kept _ _ (fun p s => clockStatusBody_kept p s) dt h p s

end Sys2Proof.Machine
end

