-- ==== Sys2Proof/Laws/KeptFaultRows.lean ====
section
/-! SUPPORT. What FaultRows.lean keeps. -/
set_option linter.unusedSimpArgs false
set_option linter.unusedVariables false
set_option linter.unusedTactic false
set_option linter.unreachableTactic false
namespace Sys2Proof.Machine

theorem writeScratch_kept (core off : Nat) (b : Bytes) (s : State) : (writeScratch core off b s).kept = s.kept := by
  unfold writeScratch
  repeat' (first | with_reducible rfl | with_reducible assumption | (intro _ _) | (intro _) | exact trivial | simp only [kept_mk, kept_fold, kept_ite, ite_self, modCore_kept] | split | with_reducible refine kept_foldl _ _ ?_ ?_)

theorem reloadResident_kept (cores : List Nat) (s : State) : (reloadResident cores s).kept = s.kept := by
  unfold reloadResident
  repeat' (first | with_reducible rfl | with_reducible assumption | (intro _ _) | (intro _) | exact trivial | simp only [kept_mk, kept_fold, kept_ite, ite_self, modCore_kept, writeScratch_kept] | split | with_reducible refine kept_foldl _ _ ?_ ?_)

theorem reloadCommons_kept (s : State) : (reloadCommons s).kept = s.kept := by
  unfold reloadCommons
  repeat' (first | with_reducible rfl | with_reducible assumption | (intro _ _) | (intro _) | exact trivial | simp only [kept_mk, kept_fold, kept_ite, ite_self, modCluster_kept] | split | with_reducible refine kept_foldl _ _ ?_ ?_)

theorem execRecoveryResume_kept (dt : Nat) (s : State) : ∃ t, execRecoveryResume dt s = .next t ∧ t.kept = (advance dt s).kept := by
  unfold execRecoveryResume
  refine ⟨_, rfl, ?_⟩
  generalize advance dt s = s
  repeat' (first | with_reducible rfl | with_reducible assumption | (intro _ _) | (intro _) | exact trivial | simp only [kept_mk, kept_fold, kept_ite, ite_self, reloadCommons_kept, reloadResident_kept, funcPins_kept] | split | with_reducible refine kept_foldl _ _ ?_ ?_)

theorem execSramScrub_kept (dt : Nat) (g : SramGranule) (bits : Nat) (s : State) : ∃ t, execSramScrub dt g bits s = .next t ∧ t.kept = (advance dt s).kept := by
  unfold execSramScrub
  refine ⟨_, rfl, ?_⟩
  generalize advance dt s = s
  repeat' (first | with_reducible rfl | with_reducible assumption | (intro _ _) | (intro _) | exact trivial | simp only [kept_mk, kept_fold, kept_ite, ite_self, raiseFault_kept] | split | with_reducible refine kept_foldl _ _ ?_ ?_)

theorem ddrCorrected_kept (a : Nat) (s : State) : (ddrCorrected a s).kept = s.kept := by
  unfold ddrCorrected
  repeat' (first | with_reducible rfl | with_reducible assumption | (intro _ _) | (intro _) | exact trivial | simp only [kept_mk, kept_fold, kept_ite, ite_self, fltEvent_kept] | split | with_reducible refine kept_foldl _ _ ?_ ?_)

theorem execPatrolScrub_kept (dt addr err : Nat) (s : State) : ∃ t, execPatrolScrub dt addr err s = .next t ∧ t.kept = (advance dt s).kept := by
  unfold execPatrolScrub
  refine ⟨_, rfl, ?_⟩
  generalize advance dt s = s
  repeat' (first | with_reducible rfl | with_reducible assumption | (intro _ _) | (intro _) | exact trivial | simp only [kept_mk, kept_fold, kept_ite, ite_self, ddrCorrected_kept, raiseFault_kept, fltEvent_kept] | split | with_reducible refine kept_foldl _ _ ?_ ?_)

theorem execLinkUncorrected_kept (dt place : Nat) (s : State) : ∃ t, execLinkUncorrected dt place s = .next t ∧ t.kept = (advance dt s).kept := by
  unfold execLinkUncorrected
  refine ⟨_, rfl, ?_⟩
  generalize advance dt s = s
  repeat' (first | with_reducible rfl | with_reducible assumption | (intro _ _) | (intro _) | exact trivial | simp only [kept_mk, kept_fold, kept_ite, ite_self, raiseFault_kept] | split | with_reducible refine kept_foldl _ _ ?_ ?_)

theorem execClockLost_kept (dt : Nat) (s : State) : ∃ t, execClockLost dt s = .next t ∧ t.kept = (advance dt s).kept := by
  unfold execClockLost
  refine ⟨_, rfl, ?_⟩
  generalize advance dt s = s
  repeat' (first | with_reducible rfl | with_reducible assumption | (intro _ _) | (intro _) | exact trivial | simp only [kept_mk, kept_fold, kept_ite, ite_self, raiseFault_kept] | split | with_reducible refine kept_foldl _ _ ?_ ?_)

theorem execControlWatchdog_kept (dt core : Nat) (served : Bool) (s : State) : ∃ t, execControlWatchdog dt core served s = .next t ∧ t.kept = (advance dt s).kept := by
  unfold execControlWatchdog
  refine ⟨_, rfl, ?_⟩
  generalize advance dt s = s
  repeat' (first | with_reducible rfl | with_reducible assumption | (intro _ _) | (intro _) | exact trivial | simp only [kept_mk, kept_fold, kept_ite, ite_self, raiseFault_kept] | split | with_reducible refine kept_foldl _ _ ?_ ?_)

theorem execFreeze_kept (dt : Nat) (s : State) : ∃ t, execFreeze dt s = .next t ∧ t.kept = (advance dt s).kept := by
  unfold execFreeze
  refine ⟨_, rfl, ?_⟩
  generalize advance dt s = s
  repeat' (first | with_reducible rfl | with_reducible assumption | (intro _ _) | (intro _) | exact trivial | simp only [kept_mk, kept_fold, kept_ite, ite_self, freezeNow_kept] | split | with_reducible refine kept_foldl _ _ ?_ ?_)

theorem faultLogBody_kept (p : Packet) (s : State) : ((faultLogBody p s).after s).kept = s.kept := by
  unfold faultLogBody
  repeat' (first | with_reducible rfl | with_reducible assumption | (intro _ _) | (intro _) | exact trivial | simp only [after_ok, after_refuse, after_refuseWith, after_ite, kept_mk, kept_fold, kept_ite, ite_self, rearmIbi_kept] | split | with_reducible refine kept_foldl _ _ ?_ ?_)

theorem faultInjectBody_kept (p : Packet) (s : State) : ((faultInjectBody p s).after s).kept = s.kept := by
  unfold faultInjectBody
  repeat' (first | with_reducible rfl | with_reducible assumption | (intro _ _) | (intro _) | exact trivial | simp only [after_ok, after_refuse, after_refuseWith, after_ite, kept_mk, kept_fold, kept_ite, ite_self, raiseFault_kept] | split | with_reducible refine kept_foldl _ _ ?_ ?_)

theorem execFaultLog_kept (dt : Nat) (h : Hdr) (p : Bytes) (s : State) : ∃ t, execFaultLog dt h p s = .next t ∧ t.kept = (advance dt s).kept :=
  hostRow_kept _ _ (fun p s => faultLogBody_kept p s) dt h p s

theorem execFaultInject_kept (dt : Nat) (h : Hdr) (p : Bytes) (s : State) : ∃ t, execFaultInject dt h p s = .next t ∧ t.kept = (advance dt s).kept :=
  hostRow_kept _ _ (fun p s => faultInjectBody_kept p s) dt h p s

end Sys2Proof.Machine
end

