-- ==== Sys2Proof/Laws/KeptText.lean ====
section
/-! SUPPORT. What Text.lean keeps. -/
set_option linter.unusedSimpArgs false
set_option linter.unusedVariables false
set_option linter.unusedTactic false
set_option linter.unreachableTactic false
namespace Sys2Proof.Machine

theorem tokenize_kept (ch : Nat) (fin reset : Bool) (bytes : Bytes) (s : State) : (tokenize ch fin reset bytes s).2.kept = s.kept := by
  unfold tokenize
  repeat' (first | with_reducible rfl | with_reducible assumption | (intro _ _) | (intro _) | exact trivial | simp only [kept_mk, kept_fold, kept_ite, snd_ite, ite_self] | split | with_reducible refine kept_foldl _ _ ?_ ?_)

theorem textTokenizeBody_kept (p : Packet) (s : State) : ((textTokenizeBody p s).after s).kept = s.kept := by
  unfold textTokenizeBody
  repeat' (first | with_reducible rfl | with_reducible assumption | (intro _ _) | (intro _) | exact trivial | simp only [after_ok, after_refuse, after_refuseWith, after_ite, kept_mk, kept_fold, kept_ite, ite_self, tokenize_kept] | split | with_reducible refine kept_foldl _ _ ?_ ?_)

theorem textDetokenizeBody_kept (p : Packet) (s : State) : ((textDetokenizeBody p s).after s).kept = s.kept := by
  unfold textDetokenizeBody
  repeat' (first | with_reducible rfl | with_reducible assumption | (intro _ _) | (intro _) | exact trivial | simp only [after_ok, after_refuse, after_refuseWith, after_ite, kept_mk, kept_fold, kept_ite, ite_self] | split | with_reducible refine kept_foldl _ _ ?_ ?_)

theorem grammarBindBody_kept (p : Packet) (s : State) : ((grammarBindBody p s).after s).kept = s.kept := by
  unfold grammarBindBody
  repeat' (first | with_reducible rfl | with_reducible assumption | (intro _ _) | (intro _) | exact trivial | simp only [after_ok, after_refuse, after_refuseWith, after_ite, kept_mk, kept_fold, kept_ite, ite_self] | split | with_reducible refine kept_foldl _ _ ?_ ?_)

theorem stopSetBody_kept (p : Packet) (s : State) : ((stopSetBody p s).after s).kept = s.kept := by
  unfold stopSetBody
  repeat' (first | with_reducible rfl | with_reducible assumption | (intro _ _) | (intro _) | exact trivial | simp only [after_ok, after_refuse, after_refuseWith, after_ite, kept_mk, kept_fold, kept_ite, ite_self] | split | with_reducible refine kept_foldl _ _ ?_ ?_)

theorem grammarLoadBody_kept (p : Packet) (s : State) : ((grammarLoadBody p s).after s).kept = s.kept := by
  unfold grammarLoadBody
  repeat' (first | with_reducible rfl | with_reducible assumption | (intro _ _) | (intro _) | exact trivial | simp only [after_ok, after_refuse, after_refuseWith, after_ite, kept_mk, kept_fold, kept_ite, ite_self] | split | with_reducible refine kept_foldl _ _ ?_ ?_)

theorem grammarQueryBody_kept (p : Packet) (s : State) : ((grammarQueryBody p s).after s).kept = s.kept := by
  unfold grammarQueryBody
  repeat' (first | with_reducible rfl | with_reducible assumption | (intro _ _) | (intro _) | exact trivial | simp only [after_ok, after_refuse, after_refuseWith, after_ite, kept_mk, kept_fold, kept_ite, ite_self] | split | with_reducible refine kept_foldl _ _ ?_ ?_)

theorem execTextTokenize_kept (dt : Nat) (h : Hdr) (p : Bytes) (s : State) : ∃ t, execTextTokenize dt h p s = .next t ∧ t.kept = (advance dt s).kept :=
  hostRow_kept _ _ (fun p s => textTokenizeBody_kept p s) dt h p s

theorem execTextDetokenize_kept (dt : Nat) (h : Hdr) (p : Bytes) (s : State) : ∃ t, execTextDetokenize dt h p s = .next t ∧ t.kept = (advance dt s).kept :=
  hostRow_kept _ _ (fun p s => textDetokenizeBody_kept p s) dt h p s

theorem execGrammarBind_kept (dt : Nat) (h : Hdr) (p : Bytes) (s : State) : ∃ t, execGrammarBind dt h p s = .next t ∧ t.kept = (advance dt s).kept :=
  hostRow_kept _ _ (fun p s => grammarBindBody_kept p s) dt h p s

theorem execStopSet_kept (dt : Nat) (h : Hdr) (p : Bytes) (s : State) : ∃ t, execStopSet dt h p s = .next t ∧ t.kept = (advance dt s).kept :=
  hostRow_kept _ _ (fun p s => stopSetBody_kept p s) dt h p s

theorem execGrammarLoad_kept (dt : Nat) (h : Hdr) (p : Bytes) (s : State) : ∃ t, execGrammarLoad dt h p s = .next t ∧ t.kept = (advance dt s).kept :=
  hostRow_kept _ _ (fun p s => grammarLoadBody_kept p s) dt h p s

theorem execGrammarQuery_kept (dt : Nat) (h : Hdr) (p : Bytes) (s : State) : ∃ t, execGrammarQuery dt h p s = .next t ∧ t.kept = (advance dt s).kept :=
  hostRow_kept _ _ (fun p s => grammarQueryBody_kept p s) dt h p s

end Sys2Proof.Machine
end

