-- ==== Sys2Proof/Laws/KeptSlab.lean ====
section
/-! SUPPORT. What Slab.lean keeps. -/
set_option linter.unusedSimpArgs false
set_option linter.unusedVariables false
set_option linter.unusedTactic false
set_option linter.unreachableTactic false
namespace Sys2Proof.Machine

theorem modSlabs_kept (f : SlabState → SlabState) (s : State) : (modSlabs f s).kept = s.kept := by
  unfold modSlabs
  repeat' (first | with_reducible rfl | with_reducible assumption | (intro _ _) | (intro _) | exact trivial | simp only [kept_mk, kept_fold, kept_ite, ite_self] | split | with_reducible refine kept_foldl _ _ ?_ ?_)

theorem dirSet_kept (a st n : Nat) (s : State) : (dirSet a st n s).kept = s.kept := by
  unfold dirSet
  repeat' (first | with_reducible rfl | with_reducible assumption | (intro _ _) | (intro _) | exact trivial | simp only [kept_mk, kept_fold, kept_ite, ite_self] | split | with_reducible refine kept_foldl _ _ ?_ ?_)

theorem putSlab_kept (n : Nat) (b : Option Slab) (s : State) : (putSlab n b s).kept = s.kept := by
  unfold putSlab
  repeat' (first | with_reducible rfl | with_reducible assumption | (intro _ _) | (intro _) | exact trivial | simp only [kept_mk, kept_fold, kept_ite, ite_self, modSlabs_kept] | split | with_reducible refine kept_foldl _ _ ?_ ?_)

theorem modSlab_kept (n : Nat) (f : Slab → Slab) (s : State) : (modSlab n f s).kept = s.kept := by
  unfold modSlab
  repeat' (first | with_reducible rfl | with_reducible assumption | (intro _ _) | (intro _) | exact trivial | simp only [kept_mk, kept_fold, kept_ite, ite_self, putSlab_kept] | split | with_reducible refine kept_foldl _ _ ?_ ?_)

theorem slabEvent_kept (home ev job status seq index slab : Nat) (s : State) : (slabEvent home ev job status seq index slab s).kept = s.kept := by
  unfold slabEvent
  repeat' (first | with_reducible rfl | with_reducible assumption | (intro _ _) | (intro _) | exact trivial | simp only [kept_mk, kept_fold, kept_ite, ite_self, report_kept] | split | with_reducible refine kept_foldl _ _ ?_ ?_)

theorem slabCount_kept (i : Nat) (s : State) : (slabCount i s).kept = s.kept := by
  unfold slabCount
  repeat' (first | with_reducible rfl | with_reducible assumption | (intro _ _) | (intro _) | exact trivial | simp only [kept_mk, kept_fold, kept_ite, ite_self, modSlabs_kept] | split | with_reducible refine kept_foldl _ _ ?_ ?_)

theorem invalidate_kept (p : (Nat × Nat × Nat × Nat) × Nat → Bool) (s : State) : (invalidate p s).kept = s.kept := by
  unfold invalidate
  repeat' (first | with_reducible rfl | with_reducible assumption | (intro _ _) | (intro _) | exact trivial | simp only [kept_mk, kept_fold, kept_ite, ite_self, modSlabs_kept] | split | with_reducible refine kept_foldl _ _ ?_ ?_)

theorem unshare_kept (n : Nat) (b : Slab) (s : State) : (unshare n b s).kept = s.kept := by
  unfold unshare
  repeat' (first | with_reducible rfl | with_reducible assumption | (intro _ _) | (intro _) | exact trivial | simp only [kept_mk, kept_fold, kept_ite, ite_self, setTally_kept, giveBack_kept, modSlabs_kept] | split | with_reducible refine kept_foldl _ _ ?_ ?_)

theorem letGo_kept (n : Nat) (s : State) : (letGo n s).kept = s.kept := by
  unfold letGo
  repeat' (first | with_reducible rfl | with_reducible assumption | (intro _ _) | (intro _) | exact trivial | simp only [kept_mk, kept_fold, kept_ite, ite_self, invalidate_kept, putSlab_kept, unshare_kept] | split | with_reducible refine kept_foldl _ _ ?_ ?_)

theorem dropRef_kept (n : Nat) (s : State) : (dropRef n s).kept = s.kept := by
  unfold dropRef
  repeat' (first | with_reducible rfl | with_reducible assumption | (intro _ _) | (intro _) | exact trivial | simp only [kept_mk, kept_fold, kept_ite, ite_self, setTally_kept, letGo_kept] | split | with_reducible refine kept_foldl _ _ ?_ ?_)

theorem askPromotion_kept (n : Nat) (s : State) : (askPromotion n s).kept = s.kept := by
  unfold askPromotion
  repeat' (first | with_reducible rfl | with_reducible assumption | (intro _ _) | (intro _) | exact trivial | simp only [kept_mk, kept_fold, kept_ite, ite_self, hold_kept, modSlabs_kept] | split | with_reducible refine kept_foldl _ _ ?_ ?_)

theorem addRef_kept (n : Nat) (s : State) : (addRef n s).kept = s.kept := by
  unfold addRef
  repeat' (first | with_reducible rfl | with_reducible assumption | (intro _ _) | (intro _) | exact trivial | simp only [kept_mk, kept_fold, kept_ite, ite_self, askPromotion_kept, signalTally_kept] | split | with_reducible refine kept_foldl _ _ ?_ ?_)

theorem pin_kept (w job step n : Nat) (s : State) : (pin w job step n s).kept = s.kept := by
  unfold pin
  repeat' (first | with_reducible rfl | with_reducible assumption | (intro _ _) | (intro _) | exact trivial | simp only [kept_mk, kept_fold, kept_ite, ite_self, modSlab_kept, modSlabs_kept] | split | with_reducible refine kept_foldl _ _ ?_ ?_)

theorem unpin_kept (n : Nat) (s : State) : (unpin n s).kept = s.kept := by
  unfold unpin
  repeat' (first | with_reducible rfl | with_reducible assumption | (intro _ _) | (intro _) | exact trivial | simp only [kept_mk, kept_fold, kept_ite, ite_self, modSlab_kept, letGo_kept] | split | with_reducible refine kept_foldl _ _ ?_ ?_)

theorem modSeq_kept (i : Nat) (f : Seq → Seq) (s : State) : (modSeq i f s).kept = s.kept := by
  unfold modSeq
  repeat' (first | with_reducible rfl | with_reducible assumption | (intro _ _) | (intro _) | exact trivial | simp only [kept_mk, kept_fold, kept_ite, ite_self, modSlabs_kept] | split | with_reducible refine kept_foldl _ _ ?_ ?_)

theorem dropColumn_kept (v : Victim) (s : State) : (dropColumn v s).kept = s.kept := by
  unfold dropColumn
  repeat' (first | with_reducible rfl | with_reducible assumption | (intro _ _) | (intro _) | exact trivial | simp only [kept_mk, kept_fold, kept_ite, ite_self, dirSet_kept, letGo_kept, modSeq_kept, slabEvent_kept, slabCount_kept] | split | with_reducible refine kept_foldl _ _ ?_ ?_)

theorem dropUntil_kept (enough : State → Bool) (x0 : Nat) (s : State) : (dropUntil enough x0 s).2.kept = s.kept := by
  induction x0 generalizing s with
  | zero =>
    unfold dropUntil
    repeat' (first | with_reducible rfl | with_reducible assumption | (intro _ _) | (intro _) | exact trivial | simp only [kept_mk, kept_fold, kept_ite, snd_ite, ite_self, dropColumn_kept] | split | with_reducible refine kept_foldl _ _ ?_ ?_)
  | succ k ih =>
    unfold dropUntil
    repeat' (first | with_reducible rfl | with_reducible assumption | (intro _ _) | (intro _) | exact trivial | simp only [kept_mk, kept_fold, kept_ite, snd_ite, ite_self, ih, dropColumn_kept] | split | with_reducible refine kept_foldl _ _ ?_ ?_)

theorem allocate_kept (job step : Nat) (s : State) : (allocate job step s).2.kept = s.kept := by
  unfold allocate
  repeat' (first | with_reducible rfl | with_reducible assumption | (intro _ _) | (intro _) | exact trivial | simp only [kept_mk, kept_fold, kept_ite, snd_ite, ite_self, modSlabs_kept, dropUntil_kept] | split | with_reducible refine kept_foldl _ _ ?_ ?_)

theorem openSeq_kept (i job flags prefixId priority dir src index : Nat) (s : State) : (openSeq i job flags prefixId priority dir src index s).2.kept = s.kept := by
  unfold openSeq
  repeat' (first | with_reducible rfl | with_reducible assumption | (intro _ _) | (intro _) | exact trivial | simp only [kept_mk, kept_fold, kept_ite, snd_ite, ite_self, modSlabs_kept, dirSet_kept, addRef_kept] | split | with_reducible refine kept_foldl _ _ ?_ ?_)

theorem seqOpenBody_kept (p : Packet) (s : State) : ((seqOpenBody p s).after s).kept = s.kept := by
  unfold seqOpenBody
  repeat' (first | with_reducible rfl | with_reducible assumption | (intro _ _) | (intro _) | exact trivial | simp only [after_ok, after_refuse, after_refuseWith, after_ite, kept_mk, kept_fold, kept_ite, ite_self, openSeq_kept] | split | with_reducible refine kept_foldl _ _ ?_ ?_)

theorem closeSeq_kept (i : Nat) (q : Seq) (s : State) : (closeSeq i q s).kept = s.kept := by
  unfold closeSeq
  repeat' (first | with_reducible rfl | with_reducible assumption | (intro _ _) | (intro _) | exact trivial | simp only [kept_mk, kept_fold, kept_ite, ite_self, dropRef_kept, letGo_kept, invalidate_kept, modSlabs_kept, modSeq_kept] | split | with_reducible refine kept_foldl _ _ ?_ ?_)

theorem seqCloseBody_kept (p : Packet) (s : State) : ((seqCloseBody p s).after s).kept = s.kept := by
  unfold seqCloseBody
  repeat' (first | with_reducible rfl | with_reducible assumption | (intro _ _) | (intro _) | exact trivial | simp only [after_ok, after_refuse, after_refuseWith, after_ite, kept_mk, kept_fold, kept_ite, ite_self, closeSeq_kept] | split | with_reducible refine kept_foldl _ _ ?_ ?_)

theorem seqCommitBody_kept (p : Packet) (s : State) : ((seqCommitBody p s).after s).kept = s.kept := by
  unfold seqCommitBody
  repeat' (first | with_reducible rfl | with_reducible assumption | (intro _ _) | (intro _) | exact trivial | simp only [after_ok, after_refuse, after_refuseWith, after_ite, kept_mk, kept_fold, kept_ite, ite_self, modSeq_kept] | split | with_reducible refine kept_foldl _ _ ?_ ?_)

theorem enterSeq_kept (step : Nat) (e : Nat × Bool) (s : State) : (enterSeq step e s).kept = s.kept := by
  unfold enterSeq
  repeat' (first | with_reducible rfl | with_reducible assumption | (intro _ _) | (intro _) | exact trivial | simp only [kept_mk, kept_fold, kept_ite, ite_self, modSeq_kept] | split | with_reducible refine kept_foldl _ _ ?_ ?_)

theorem seqEnterBody_kept (p : Packet) (s : State) : ((seqEnterBody p s).after s).kept = s.kept := by
  unfold seqEnterBody
  repeat' (first | with_reducible rfl | with_reducible assumption | (intro _ _) | (intro _) | exact trivial | simp only [after_ok, after_refuse, after_refuseWith, after_ite, kept_mk, kept_fold, kept_ite, ite_self, enterSeq_kept] | split | with_reducible refine kept_foldl _ _ ?_ ?_)

theorem retireStep_kept (job step : Nat) (s : State) : (retireStep job step s).kept = s.kept := by
  unfold retireStep
  repeat' (first | with_reducible rfl | with_reducible assumption | (intro _ _) | (intro _) | exact trivial | simp only [kept_mk, kept_fold, kept_ite, ite_self, modSlabs_kept, unpin_kept] | split | with_reducible refine kept_foldl _ _ ?_ ?_)

theorem stepRetireBody_kept (p : Packet) (s : State) : ((stepRetireBody p s).after s).kept = s.kept := by
  unfold stepRetireBody
  repeat' (first | with_reducible rfl | with_reducible assumption | (intro _ _) | (intro _) | exact trivial | simp only [after_ok, after_refuse, after_refuseWith, after_ite, kept_mk, kept_fold, kept_ite, ite_self, retireStep_kept] | split | with_reducible refine kept_foldl _ _ ?_ ?_)

theorem reserveSlabs_kept (job step n : Nat) (s : State) : (reserveSlabs job step n s).2.kept = s.kept := by
  unfold reserveSlabs
  repeat' (first | with_reducible rfl | with_reducible assumption | (intro _ _) | (intro _) | exact trivial | simp only [kept_mk, kept_fold, kept_ite, snd_ite, ite_self, dropUntil_kept, modSlabs_kept, slabEvent_kept] | split | with_reducible refine kept_foldl _ _ ?_ ?_)

theorem slabReserveBody_kept (p : Packet) (s : State) : ((slabReserveBody p s).after s).kept = s.kept := by
  unfold slabReserveBody
  repeat' (first | with_reducible rfl | with_reducible assumption | (intro _ _) | (intro _) | exact trivial | simp only [after_ok, after_refuse, after_refuseWith, after_ite, kept_mk, kept_fold, kept_ite, ite_self, reserveSlabs_kept] | split | with_reducible refine kept_foldl _ _ ?_ ?_)

theorem sharePrefix_kept (id i : Nat) (q : Seq) (s : State) : (sharePrefix id i q s).kept = s.kept := by
  unfold sharePrefix
  repeat' (first | with_reducible rfl | with_reducible assumption | (intro _ _) | (intro _) | exact trivial | simp only [kept_mk, kept_fold, kept_ite, ite_self, modSlab_kept, setTally_kept, invalidate_kept, modSlabs_kept, dropRef_kept] | split | with_reducible refine kept_foldl _ _ ?_ ?_)

theorem mirrorShare_kept (id : Nat) (s : State) : (mirrorShare id s).kept = s.kept := by
  unfold mirrorShare
  repeat' (first | with_reducible rfl | with_reducible assumption | (intro _ _) | (intro _) | exact trivial | simp only [kept_mk, kept_fold, kept_ite, ite_self, mirror_kept] | split | with_reducible refine kept_foldl _ _ ?_ ?_)

theorem prefixShareBody_kept (p : Packet) (s : State) : ((prefixShareBody p s).after s).kept = s.kept := by
  unfold prefixShareBody
  repeat' (first | with_reducible rfl | with_reducible assumption | (intro _ _) | (intro _) | exact trivial | simp only [after_ok, after_refuse, after_refuseWith, after_ite, kept_mk, kept_fold, kept_ite, ite_self, mirrorShare_kept, sharePrefix_kept] | split | with_reducible refine kept_foldl _ _ ?_ ?_)

theorem dropPrefix_kept (id : Nat) (x : Prefix) (s : State) : (dropPrefix id x s).kept = s.kept := by
  unfold dropPrefix
  repeat' (first | with_reducible rfl | with_reducible assumption | (intro _ _) | (intro _) | exact trivial | simp only [kept_mk, kept_fold, kept_ite, ite_self, modSlabs_kept, dropRef_kept, modSlab_kept] | split | with_reducible refine kept_foldl _ _ ?_ ?_)

theorem prefixDropBody_kept (p : Packet) (s : State) : ((prefixDropBody p s).after s).kept = s.kept := by
  unfold prefixDropBody
  repeat' (first | with_reducible rfl | with_reducible assumption | (intro _ _) | (intro _) | exact trivial | simp only [after_ok, after_refuse, after_refuseWith, after_ite, kept_mk, kept_fold, kept_ite, ite_self, dropPrefix_kept] | split | with_reducible refine kept_foldl _ _ ?_ ?_)

theorem seqQueryBody_kept (p : Packet) (s : State) : ((seqQueryBody p s).after s).kept = s.kept := by
  unfold seqQueryBody
  repeat' (first | with_reducible rfl | with_reducible assumption | (intro _ _) | (intro _) | exact trivial | simp only [after_ok, after_refuse, after_refuseWith, after_ite, kept_mk, kept_fold, kept_ite, ite_self] | split | with_reducible refine kept_foldl _ _ ?_ ?_)

theorem slabQueryBody_kept (p : Packet) (s : State) : ((slabQueryBody p s).after s).kept = s.kept := by
  unfold slabQueryBody
  repeat' (first | with_reducible rfl | with_reducible assumption | (intro _ _) | (intro _) | exact trivial | simp only [after_ok, after_refuse, after_refuseWith, after_ite, kept_mk, kept_fold, kept_ite, ite_self] | split | with_reducible refine kept_foldl _ _ ?_ ?_)

theorem slabStatusBody_kept (p : Packet) (s : State) : ((slabStatusBody p s).after s).kept = s.kept := by
  unfold slabStatusBody
  repeat' (first | with_reducible rfl | with_reducible assumption | (intro _ _) | (intro _) | exact trivial | simp only [after_ok, after_refuse, after_refuseWith, after_ite, kept_mk, kept_fold, kept_ite, ite_self] | split | with_reducible refine kept_foldl _ _ ?_ ?_)

theorem promote_kept (o : Promo) (s : State) : (promote o s).kept = s.kept := by
  unfold promote
  repeat' (first | with_reducible rfl | with_reducible assumption | (intro _ _) | (intro _) | exact trivial | simp only [kept_mk, kept_fold, kept_ite, ite_self, giveBack_kept, modSlabs_kept, modCluster_kept, modSlab_kept, slabEvent_kept, slabCount_kept] | split | with_reducible refine kept_foldl _ _ ?_ ?_)

theorem execPromotion_kept (dt slab : Nat) (s : State) : ∃ t, execPromotion dt slab s = .next t ∧ t.kept = (advance dt s).kept := by
  unfold execPromotion
  refine ⟨_, rfl, ?_⟩
  generalize advance dt s = s
  repeat' (first | with_reducible rfl | with_reducible assumption | (intro _ _) | (intro _) | exact trivial | simp only [kept_mk, kept_fold, kept_ite, ite_self, promote_kept, hold_kept, modSlabs_kept] | split | with_reducible refine kept_foldl _ _ ?_ ?_)

theorem execSeqOpen_kept (dt : Nat) (h : Hdr) (p : Bytes) (s : State) : ∃ t, execSeqOpen dt h p s = .next t ∧ t.kept = (advance dt s).kept :=
  hostRow_kept _ _ (fun p s => seqOpenBody_kept p s) dt h p s

theorem execSeqClose_kept (dt : Nat) (h : Hdr) (p : Bytes) (s : State) : ∃ t, execSeqClose dt h p s = .next t ∧ t.kept = (advance dt s).kept :=
  hostRow_kept _ _ (fun p s => seqCloseBody_kept p s) dt h p s

theorem execSeqCommit_kept (dt : Nat) (h : Hdr) (p : Bytes) (s : State) : ∃ t, execSeqCommit dt h p s = .next t ∧ t.kept = (advance dt s).kept :=
  hostRow_kept _ _ (fun p s => seqCommitBody_kept p s) dt h p s

theorem execSeqEnter_kept (dt : Nat) (h : Hdr) (p : Bytes) (s : State) : ∃ t, execSeqEnter dt h p s = .next t ∧ t.kept = (advance dt s).kept :=
  hostRow_kept _ _ (fun p s => seqEnterBody_kept p s) dt h p s

theorem execStepRetire_kept (dt : Nat) (h : Hdr) (p : Bytes) (s : State) : ∃ t, execStepRetire dt h p s = .next t ∧ t.kept = (advance dt s).kept :=
  hostRow_kept _ _ (fun p s => stepRetireBody_kept p s) dt h p s

theorem execSlabReserve_kept (dt : Nat) (h : Hdr) (p : Bytes) (s : State) : ∃ t, execSlabReserve dt h p s = .next t ∧ t.kept = (advance dt s).kept :=
  hostRow_kept _ _ (fun p s => slabReserveBody_kept p s) dt h p s

theorem execPrefixShare_kept (dt : Nat) (h : Hdr) (p : Bytes) (s : State) : ∃ t, execPrefixShare dt h p s = .next t ∧ t.kept = (advance dt s).kept :=
  hostRow_kept _ _ (fun p s => prefixShareBody_kept p s) dt h p s

theorem execPrefixDrop_kept (dt : Nat) (h : Hdr) (p : Bytes) (s : State) : ∃ t, execPrefixDrop dt h p s = .next t ∧ t.kept = (advance dt s).kept :=
  hostRow_kept _ _ (fun p s => prefixDropBody_kept p s) dt h p s

theorem execSeqQuery_kept (dt : Nat) (h : Hdr) (p : Bytes) (s : State) : ∃ t, execSeqQuery dt h p s = .next t ∧ t.kept = (advance dt s).kept :=
  hostRow_kept _ _ (fun p s => seqQueryBody_kept p s) dt h p s

theorem execSlabQuery_kept (dt : Nat) (h : Hdr) (p : Bytes) (s : State) : ∃ t, execSlabQuery dt h p s = .next t ∧ t.kept = (advance dt s).kept :=
  hostRow_kept _ _ (fun p s => slabQueryBody_kept p s) dt h p s

theorem execSlabStatus_kept (dt : Nat) (h : Hdr) (p : Bytes) (s : State) : ∃ t, execSlabStatus dt h p s = .next t ∧ t.kept = (advance dt s).kept :=
  hostRow_kept _ _ (fun p s => slabStatusBody_kept p s) dt h p s

end Sys2Proof.Machine
end

