-- ==== Sys2Proof/Laws/KeptWalk.lean ====
section
/-! SUPPORT. What Walk.lean keeps. -/
set_option linter.unusedSimpArgs false
set_option linter.unusedVariables false
set_option linter.unusedTactic false
set_option linter.unreachableTactic false
namespace Sys2Proof.Machine

theorem modWalker_kept (w : Nat) (f : Walker → Walker) (s : State) : (modWalker w f s).kept = s.kept := by
  unfold modWalker
  repeat' (first | with_reducible rfl | with_reducible assumption | (intro _ _) | (intro _) | exact trivial | simp only [kept_mk, kept_fold, kept_ite, ite_self, modSlabs_kept] | split | with_reducible refine kept_foldl _ _ ?_ ?_)

theorem slbUse_kept (w : Nat) (key : Nat × Nat × Nat × Nat) (n : Nat) (s : State) : (slbUse w key n s).kept = s.kept := by
  unfold slbUse
  repeat' (first | with_reducible rfl | with_reducible assumption | (intro _ _) | (intro _) | exact trivial | simp only [kept_mk, kept_fold, kept_ite, ite_self, slabCount_kept, modWalker_kept] | split | with_reducible refine kept_foldl _ _ ?_ ?_)

theorem xlatOne_kept (w job step h l g n mode : Nat) (s : State) : (xlatOne w job step h l g n mode s).2.kept = s.kept := by
  unfold xlatOne
  repeat' (first | with_reducible rfl | with_reducible assumption | (intro _ _) | (intro _) | exact trivial | simp only [kept_mk, kept_fold, kept_ite, snd_ite, ite_self, slbUse_kept, slabCount_kept, pin_kept, modSlab_kept, modSeq_kept] | split | with_reducible refine kept_foldl _ _ ?_ ?_)

theorem xlatAll_kept (w job step h l g mode : Nat) (x0 : List Nat) (s : State) : (xlatAll w job step h l g mode x0 s).2.kept = s.kept := by
  induction x0 generalizing s with
  | nil =>
    unfold xlatAll
    repeat' (first | with_reducible rfl | with_reducible assumption | (intro _ _) | (intro _) | exact trivial | simp only [kept_mk, kept_fold, kept_ite, snd_ite, ite_self, xlatOne_kept] | split | with_reducible refine kept_foldl _ _ ?_ ?_)
  | cons y l ih =>
    unfold xlatAll
    repeat' (first | with_reducible rfl | with_reducible assumption | (intro _ _) | (intro _) | exact trivial | simp only [kept_mk, kept_fold, kept_ite, snd_ite, ite_self, ih, xlatOne_kept] | split | with_reducible refine kept_foldl _ _ ?_ ?_)

theorem xlatReply_kept (w : Nat) (r : WalkReq) (rec : Nat) (q : Bytes) (s : State) : (xlatReply w r rec q s).kept = s.kept := by
  unfold xlatReply
  repeat' (first | with_reducible rfl | with_reducible assumption | (intro _ _) | (intro _) | exact trivial | simp only [kept_mk, kept_fold, kept_ite, ite_self, xlatAll_kept, modCore_kept] | split | with_reducible refine kept_foldl _ _ ?_ ?_)

theorem writeRows_kept (g : Geom) (a : Append) (n pos : Nat) (rows : List Bytes) (s : State) : (writeRows g a n pos rows s).kept = s.kept := by
  unfold writeRows
  repeat' (first | with_reducible rfl | with_reducible assumption | (intro _ _) | (intro _) | exact trivial | simp only [kept_mk, kept_fold, kept_ite, ite_self, modSlab_kept] | split | with_reducible refine kept_foldl _ _ ?_ ?_)

theorem restoreColumn_kept (i : Nat) (q : Seq) (g : Geom) (n : Nat) (s : State) : (restoreColumn i q g n s).kept = s.kept := by
  unfold restoreColumn
  repeat' (first | with_reducible rfl | with_reducible assumption | (intro _ _) | (intro _) | exact trivial | simp only [kept_mk, kept_fold, kept_ite, ite_self, slabEvent_kept, slabCount_kept, modSeq_kept] | split | with_reducible refine kept_foldl _ _ ?_ ?_)

theorem adopt_kept (n : Nat) (b : Slab) (q : Seq) (l g ix : Nat) (a : Nat) (s : State) : (adopt n b q l g ix a s).kept = s.kept := by
  unfold adopt
  repeat' (first | with_reducible rfl | with_reducible assumption | (intro _ _) | (intro _) | exact trivial | simp only [kept_mk, kept_fold, kept_ite, ite_self, slabCount_kept, invalidate_kept, unshare_kept, dirSet_kept, putSlab_kept] | split | with_reducible refine kept_foldl _ _ ?_ ?_)

/-- The state that a piece of an append leaves. -/
def Placed.state (p : Placed) : State :=
  match p with
  | .done t => t
  | .wait _ t => t
  | .fault _ t => t

theorem allocate_some {job step : Nat} {s t : State} {o : Option Nat} (h : allocate job step s = (o, t)) : t.kept = s.kept := by
  have := allocate_kept job step s
  rw [h] at this
  exact this

theorem slabFor_kept (job step i : Nat) (q : Seq) (g : Geom) (ap : Append) (n : Nat) (s : State) :
    (slabFor job step i q g ap n s).1.state.kept = s.kept := by
  unfold slabFor
  extract_lets a d
  split
  · rfl
  · split
    · split
      · rfl
      · split
        · rfl
        · split
          · exact adopt_kept _ _ _ _ _ _ _ _
          · split
            · rename_i h; exact allocate_some h
            · rename_i h
              simp only [Placed.state, modSlabs_kept, modSlab_kept, putSlab_kept]
              exact allocate_some h
    · split
      · rename_i h; exact allocate_some h
      · rename_i h
        simp only [Placed.state, modSeq_kept, dirSet_kept, putSlab_kept]
        exact allocate_some h

theorem place_kept (job step f : Nat) (a : Append) (s : State) : (place job step f a s).1.state.kept = s.kept := by
  induction f generalizing a s with
  | zero => rfl
  | succ f ih =>
    unfold place
    split
    · rfl
    · split
      · rfl
      · split
        · rfl
        · extract_lets n
          split
          · rfl
          · split <;> rename_i h <;> have hq := congrArg (fun p => p.1.state.kept) h <;> simp only [slabFor_kept] at hq
            · exact hq.symm
            · exact hq.symm
            · rw [ih]
              simp only [restoreColumn_kept, modSeq_kept, writeRows_kept]
              exact hq.symm

theorem dropReq_kept (w k : Nat) (s : State) : (dropReq w k s).kept = s.kept := by
  unfold dropReq
  repeat' (first | with_reducible rfl | with_reducible assumption | (intro _ _) | (intro _) | exact trivial | simp only [kept_mk, kept_fold, kept_ite, ite_self, modWalker_kept] | split | with_reducible refine kept_foldl _ _ ?_ ?_)

theorem execWalkerReply_kept (dt cluster : Nat) (s : State) : ∃ t, execWalkerReply dt cluster s = .next t ∧ t.kept = (advance dt s).kept := by
  unfold execWalkerReply
  refine ⟨_, rfl, ?_⟩
  generalize advance dt s = s
  split
  · rfl
  · split
    · rfl
    · split
      · simp only [kept_ite, xlatReply_kept, dropReq_kept, ite_self]
      · rename_i a _
        split <;> rename_i h <;> have hq := congrArg (fun p => p.1.state.kept) h <;> simp only [place_kept] at hq
        · simp only [kept_ite, signalTally_kept, dropReq_kept, ite_self]; exact hq.symm
        · simp only [modWalker_kept]; exact hq.symm
        · simp only [raiseFault_kept, dropReq_kept]; exact hq.symm

theorem execCopyOnWriteComplete_kept (dt slab : Nat) (s : State) : ∃ t, execCopyOnWriteComplete dt slab s = .next t ∧ t.kept = (advance dt s).kept := by
  unfold execCopyOnWriteComplete
  refine ⟨_, rfl, ?_⟩
  generalize advance dt s = s
  repeat' (first | with_reducible rfl | with_reducible assumption | (intro _ _) | (intro _) | exact trivial | simp only [kept_mk, kept_fold, kept_ite, ite_self, modSlabs_kept, modSlab_kept, dropRef_kept, dirSet_kept, letGo_kept, unpin_kept, invalidate_kept, slabEvent_kept, slabCount_kept] | split | with_reducible refine kept_foldl _ _ ?_ ?_)

end Sys2Proof.Machine
end

