-- ==== Sys2Proof/Laws/KeptSides.lean ====
section
/-! SUPPORT. What Sides.lean keeps. -/
set_option linter.unusedSimpArgs false
set_option linter.unusedVariables false
set_option linter.unusedTactic false
set_option linter.unreachableTactic false
namespace Sys2Proof.Machine

theorem intkEvent_kept (k ev status line st : Nat) (edge : Bytes) (s : State) : (intkEvent k ev status line st edge s).kept = s.kept := by
  unfold intkEvent
  repeat' (first | with_reducible rfl | with_reducible assumption | (intro _ _) | (intro _) | exact trivial | simp only [kept_mk, kept_fold, kept_ite, ite_self, report_kept] | split | with_reducible refine kept_foldl _ _ ?_ ?_)

theorem prepEvent_kept (k ev status sheet region batch : Nat) (rec : Bytes) (s : State) : (prepEvent k ev status sheet region batch rec s).kept = s.kept := by
  unfold prepEvent
  repeat' (first | with_reducible rfl | with_reducible assumption | (intro _ _) | (intro _) | exact trivial | simp only [kept_mk, kept_fold, kept_ite, ite_self, report_kept] | split | with_reducible refine kept_foldl _ _ ?_ ?_)

theorem pruneRing_kept (k : Nat) (s : State) : (pruneRing k s).kept = s.kept := by
  unfold pruneRing
  repeat' (first | with_reducible rfl | with_reducible assumption | (intro _ _) | (intro _) | exact trivial | simp only [kept_mk, kept_fold, kept_ite, ite_self, modStream_kept] | split | with_reducible refine kept_foldl _ _ ?_ ?_)

theorem discardSide_kept (id status : Nat) (s : State) : (discardSide id status s).kept = s.kept := by
  unfold discardSide
  repeat' (first | with_reducible rfl | with_reducible assumption | (intro _ _) | (intro _) | exact trivial | simp only [kept_mk, kept_fold, kept_ite, ite_self, modSheet_kept, modStream_kept, dropSlots_kept, pruneRing_kept] | split | with_reducible refine kept_foldl _ _ ?_ ?_)

theorem intakeDiscard_kept (id status line st : Nat) (s : State) : (intakeDiscard id status line st s).kept = s.kept := by
  unfold intakeDiscard
  repeat' (first | with_reducible rfl | with_reducible assumption | (intro _ _) | (intro _) | exact trivial | simp only [kept_mk, kept_fold, kept_ite, ite_self, intkEvent_kept, discardSide_kept] | split | with_reducible refine kept_foldl _ _ ?_ ?_)

theorem dropCharge_kept (rail units : Nat) (h : Holder) (s : State) : (dropCharge rail units h s).kept = s.kept := by
  unfold dropCharge
  repeat' (first | with_reducible rfl | with_reducible assumption | (intro _ _) | (intro _) | exact trivial | simp only [kept_mk, kept_fold, kept_ite, ite_self] | split | with_reducible refine kept_foldl _ _ ?_ ?_)

theorem discardStale_kept (id : Nat) (s : State) : (discardStale id s).kept = s.kept := by
  unfold discardStale
  repeat' (first | with_reducible rfl | with_reducible assumption | (intro _ _) | (intro _) | exact trivial | simp only [kept_mk, kept_fold, kept_ite, ite_self, prepEvent_kept, discardSide_kept] | split | with_reducible refine kept_foldl _ _ ?_ ?_)

theorem releaseBands_kept  (x0 : Nat) (x1 : Nat) (s : State) : (releaseBands x0 x1 s).kept = s.kept := by
  induction x0 generalizing x1 s with
  | zero =>
    unfold releaseBands
    repeat' (first | with_reducible rfl | with_reducible assumption | (intro _ _) | (intro _) | exact trivial | simp only [kept_mk, kept_fold, kept_ite, ite_self, modSheet_kept, discardStale_kept, hold_kept] | split | with_reducible refine kept_foldl _ _ ?_ ?_)
  | succ k ih =>
    unfold releaseBands
    repeat' (first | with_reducible rfl | with_reducible assumption | (intro _ _) | (intro _) | exact trivial | simp only [kept_mk, kept_fold, kept_ite, ite_self, ih, modSheet_kept, discardStale_kept, hold_kept] | split | with_reducible refine kept_foldl _ _ ?_ ?_)

theorem releaseAll_kept (k : Nat) (s : State) : (releaseAll k s).kept = s.kept := by
  unfold releaseAll
  repeat' (first | with_reducible rfl | with_reducible assumption | (intro _ _) | (intro _) | exact trivial | simp only [kept_mk, kept_fold, kept_ite, ite_self, releaseBands_kept] | split | with_reducible refine kept_foldl _ _ ?_ ?_)

theorem writeRing_kept (k : Nat) (l : RingLine) (s : State) : (writeRing k l s).kept = s.kept := by
  unfold writeRing
  repeat' (first | with_reducible rfl | with_reducible assumption | (intro _ _) | (intro _) | exact trivial | simp only [kept_mk, kept_fold, kept_ite, ite_self, modStream_kept, releaseAll_kept, pruneRing_kept] | split | with_reducible refine kept_foldl _ _ ?_ ?_)

end Sys2Proof.Machine
end

