-- ==== Sys2Proof/Laws/KeptScan.lean ====
section
/-! SUPPORT. What Scan.lean keeps. -/
set_option linter.unusedSimpArgs false
set_option linter.unusedVariables false
set_option linter.unusedTactic false
set_option linter.unreachableTactic false
namespace Sys2Proof.Machine

theorem learnBacking_kept (s : State) (k : Nat) (c : Class) : (learnBacking s k c).kept = s.kept := by
  unfold learnBacking
  repeat' (first | with_reducible rfl | with_reducible assumption | (intro _ _) | (intro _) | exact trivial | simp only [kept_mk, kept_fold, kept_ite, ite_self, modStream_kept] | split | with_reducible refine kept_foldl _ _ ?_ ?_)

theorem stepBins_kept (s : State) (k : Nat) (gap : Bool) (l : RingLine) : (stepBins s k gap l).kept = s.kept := by
  unfold stepBins
  repeat' (first | with_reducible rfl | with_reducible assumption | (intro _ _) | (intro _) | exact trivial | simp only [kept_mk, kept_fold, kept_ite, ite_self, modStream_kept] | split | with_reducible refine kept_foldl _ _ ?_ ?_)

theorem modSide_kept (k : Nat) (f : OpenSide → OpenSide) (s : State) : (modSide k f s).kept = s.kept := by
  unfold modSide
  repeat' (first | with_reducible rfl | with_reducible assumption | (intro _ _) | (intro _) | exact trivial | simp only [kept_mk, kept_fold, kept_ite, ite_self, modStream_kept, modSheet_kept] | split | with_reducible refine kept_foldl _ _ ?_ ?_)

theorem estimateSkew_kept (k : Nat) (final : Bool) (line st : Nat) (v : Nat × Nat) (s : State) : (estimateSkew k final line st v s).kept = s.kept := by
  unfold estimateSkew
  repeat' (first | with_reducible rfl | with_reducible assumption | (intro _ _) | (intro _) | exact trivial | simp only [kept_mk, kept_fold, kept_ite, ite_self, modSide_kept, modSheet_kept, releaseBands_kept, intkEvent_kept] | split | with_reducible refine kept_foldl _ _ ?_ ?_)

theorem skewAtLine_kept (k line st : Nat) (v : Nat × Nat) (s : State) : (skewAtLine k line st v s).kept = s.kept := by
  unfold skewAtLine
  repeat' (first | with_reducible rfl | with_reducible assumption | (intro _ _) | (intro _) | exact trivial | simp only [kept_mk, kept_fold, kept_ite, ite_self, estimateSkew_kept] | split | with_reducible refine kept_foldl _ _ ?_ ?_)

theorem adoptFlats_kept (k : Nat) (s : State) : (adoptFlats k s).kept = s.kept := by
  unfold adoptFlats
  repeat' (first | with_reducible rfl | with_reducible assumption | (intro _ _) | (intro _) | exact trivial | simp only [kept_mk, kept_fold, kept_ite, ite_self, modStream_kept] | split | with_reducible refine kept_foldl _ _ ?_ ?_)

theorem boundary_kept (k : Nat) (s : State) : (boundary k s).kept = s.kept := by
  unfold boundary
  repeat' (first | with_reducible rfl | with_reducible assumption | (intro _ _) | (intro _) | exact trivial | simp only [kept_mk, kept_fold, kept_ite, ite_self, adoptFlats_kept, adoptStream_kept] | split | with_reducible refine kept_foldl _ _ ?_ ?_)

theorem countQuiet_kept (s : State) : (countQuiet s).kept = s.kept := by
  unfold countQuiet
  repeat' (first | with_reducible rfl | with_reducible assumption | (intro _ _) | (intro _) | exact trivial | simp only [kept_mk, kept_fold, kept_ite, ite_self] | split | with_reducible refine kept_foldl _ _ ?_ ?_)

theorem wakeReaders_kept (s : State) : (wakeReaders s).kept = s.kept := by
  unfold wakeReaders
  repeat' (first | with_reducible rfl | with_reducible assumption | (intro _ _) | (intro _) | exact trivial | simp only [kept_mk, kept_fold, kept_ite, ite_self, postWake_kept] | split | with_reducible refine kept_foldl _ _ ?_ ?_)

theorem beginSide_kept (k t0 conf line line0 : Nat) (replay : Option Nat) (s : State) : (beginSide k t0 conf line line0 replay s).kept = s.kept := by
  unfold beginSide
  repeat' (first | with_reducible rfl | with_reducible assumption | (intro _ _) | (intro _) | exact trivial | simp only [kept_mk, kept_fold, kept_ite, ite_self, modStream_kept, wakeReaders_kept, countQuiet_kept, intkEvent_kept, noteEpoch_kept, addSlot_kept, mirror_kept] | split | with_reducible refine kept_foldl _ _ ?_ ?_)

theorem gapLine_kept (k : Nat) (l : RingLine) (s : State) : (gapLine k l s).kept = s.kept := by
  unfold gapLine
  repeat' (first | with_reducible rfl | with_reducible assumption | (intro _ _) | (intro _) | exact trivial | simp only [kept_mk, kept_fold, kept_ite, ite_self, stepBins_kept, writeRing_kept] | split | with_reducible refine kept_foldl _ _ ?_ ?_)

theorem sideLine_kept (k : Nat) (l : RingLine) (s : State) : (sideLine k l s).kept = s.kept := by
  unfold sideLine
  repeat' (first | with_reducible rfl | with_reducible assumption | (intro _ _) | (intro _) | exact trivial | simp only [kept_mk, kept_fold, kept_ite, ite_self, stepBins_kept, modSide_kept, modStream_kept, writeRing_kept, intakeDiscard_kept, skewAtLine_kept, gapLine_kept] | split | with_reducible refine kept_foldl _ _ ?_ ?_)

theorem settleTimeout_kept (k st : Nat) (s : State) : (settleTimeout k st s).kept = s.kept := by
  unfold settleTimeout
  repeat' (first | with_reducible rfl | with_reducible assumption | (intro _ _) | (intro _) | exact trivial | simp only [kept_mk, kept_fold, kept_ite, ite_self, modSlot_kept, freeSlot_kept] | split | with_reducible refine kept_foldl _ _ ?_ ?_)

theorem endSide_kept (k conf t : Nat) (v : Nat × Nat) (missingEnd : Bool) (s : State) : (endSide k conf t v missingEnd s).kept = s.kept := by
  unfold endSide
  repeat' (first | with_reducible rfl | with_reducible assumption | (intro _ _) | (intro _) | exact trivial | simp only [kept_mk, kept_fold, kept_ite, ite_self, estimateSkew_kept, modSide_kept, modStream_kept, settleTimeout_kept, modSheet_kept, addSlot_kept, intkEvent_kept, releaseAll_kept, pruneRing_kept] | split | with_reducible refine kept_foldl _ _ ?_ ?_)

theorem setEdge_kept (k : Nat) (e : EdgeState) (cand : List RingLine) (s : State) : (setEdge k e cand s).kept = s.kept := by
  unfold setEdge
  repeat' (first | with_reducible rfl | with_reducible assumption | (intro _ _) | (intro _) | exact trivial | simp only [kept_mk, kept_fold, kept_ite, ite_self, modStream_kept] | split | with_reducible refine kept_foldl _ _ ?_ ?_)

theorem trackLine_kept (k : Nat) (l : RingLine) (s : State) : (trackLine k l s).kept = s.kept := by
  unfold trackLine
  repeat' (first | with_reducible rfl | with_reducible assumption | (intro _ _) | (intro _) | exact trivial | simp only [kept_mk, kept_fold, kept_ite, ite_self, gapLine_kept, setEdge_kept, boundary_kept, sideLine_kept, beginSide_kept, endSide_kept] | split | with_reducible refine kept_foldl _ _ ?_ ?_)

theorem alignLine_kept (k st : Nat) (px : List (List Nat)) (corrupt damaged : Bool) (s : State) : (alignLine k st px corrupt damaged s).2.kept = s.kept := by
  unfold alignLine
  repeat' (first | with_reducible rfl | with_reducible assumption | (intro _ _) | (intro _) | exact trivial | simp only [kept_mk, kept_fold, kept_ite, snd_ite, ite_self, modStream_kept, learnBacking_kept] | split | with_reducible refine kept_foldl _ _ ?_ ?_)

theorem takeLine_kept (k : Nat) (raw : Option (List (List Nat))) (damaged : Bool) (s : State) : (takeLine k raw damaged s).kept = s.kept := by
  unfold takeLine
  repeat' (first | with_reducible rfl | with_reducible assumption | (intro _ _) | (intro _) | exact trivial | simp only [kept_mk, kept_fold, kept_ite, ite_self, modStream_kept, alignLine_kept, trackLine_kept, sideLine_kept, gapLine_kept] | split | with_reducible refine kept_foldl _ _ ?_ ?_)

end Sys2Proof.Machine
end

