-- ==== Sys2Proof/Laws/KeptIntake.lean ====
section
/-! SUPPORT. What Intake.lean keeps. -/
set_option linter.unusedSimpArgs false
set_option linter.unusedVariables false
set_option linter.unusedTactic false
set_option linter.unreachableTactic false
namespace Sys2Proof.Machine

theorem countStray_kept (s : State) : (countStray s).kept = s.kept := by
  unfold countStray
  repeat' (first | with_reducible rfl | with_reducible assumption | (intro _ _) | (intro _) | exact trivial | simp only [kept_mk, kept_fold, kept_ite, ite_self] | split | with_reducible refine kept_foldl _ _ ?_ ?_)

theorem modPort_kept (p : Nat) (f : PortErr → PortErr) (s : State) : (modPort p f s).kept = s.kept := by
  unfold modPort
  repeat' (first | with_reducible rfl | with_reducible assumption | (intro _ _) | (intro _) | exact trivial | simp only [kept_mk, kept_fold, kept_ite, ite_self] | split | with_reducible refine kept_foldl _ _ ?_ ?_)

theorem countFraming_kept (p : Nat) (s : State) : (countFraming p s).kept = s.kept := by
  unfold countFraming
  repeat' (first | with_reducible rfl | with_reducible assumption | (intro _ _) | (intro _) | exact trivial | simp only [kept_mk, kept_fold, kept_ite, ite_self, modPort_kept] | split | with_reducible refine kept_foldl _ _ ?_ ?_)

theorem countCrc_kept (p : Nat) (s : State) : (countCrc p s).kept = s.kept := by
  unfold countCrc
  repeat' (first | with_reducible rfl | with_reducible assumption | (intro _ _) | (intro _) | exact trivial | simp only [kept_mk, kept_fold, kept_ite, ite_self, modPort_kept] | split | with_reducible refine kept_foldl _ _ ?_ ?_)

theorem setAsm_kept (k : Nat) (a : Option Assembly) (s : State) : (setAsm k a s).kept = s.kept := by
  unfold setAsm
  repeat' (first | with_reducible rfl | with_reducible assumption | (intro _ _) | (intro _) | exact trivial | simp only [kept_mk, kept_fold, kept_ite, ite_self, modStream_kept] | split | with_reducible refine kept_foldl _ _ ?_ ?_)

theorem takeStream_kept (k : Nat) (s : State) : (takeStream k s).kept = s.kept := by
  unfold takeStream
  repeat' (first | with_reducible rfl | with_reducible assumption | (intro _ _) | (intro _) | exact trivial | simp only [kept_mk, kept_fold, kept_ite, ite_self, hold_kept] | split | with_reducible refine kept_foldl _ _ ?_ ?_)

theorem claimPins_kept (k : Nat) (s : State) : (claimPins k s).kept = s.kept := by
  unfold claimPins
  repeat' (first | with_reducible rfl | with_reducible assumption | (intro _ _) | (intro _) | exact trivial | simp only [kept_mk, kept_fold, kept_ite, ite_self, releasePin_kept, drive_kept] | split | with_reducible refine kept_foldl _ _ ?_ ?_)

theorem freePins_kept (k : Nat) (s : State) : (freePins k s).kept = s.kept := by
  unfold freePins
  repeat' (first | with_reducible rfl | with_reducible assumption | (intro _ _) | (intro _) | exact trivial | simp only [kept_mk, kept_fold, kept_ite, ite_self, releasePin_kept] | split | with_reducible refine kept_foldl _ _ ?_ ?_)

theorem startActions_kept (k : Nat) (s : State) : (startActions k s).kept = s.kept := by
  unfold startActions
  repeat' (first | with_reducible rfl | with_reducible assumption | (intro _ _) | (intro _) | exact trivial | simp only [kept_mk, kept_fold, kept_ite, ite_self, modStream_kept, addSlot_kept] | split | with_reducible refine kept_foldl _ _ ?_ ?_)

theorem startStream_kept (k : Nat) (s : State) : (startStream k s).kept = s.kept := by
  unfold startStream
  repeat' (first | with_reducible rfl | with_reducible assumption | (intro _ _) | (intro _) | exact trivial | simp only [kept_mk, kept_fold, kept_ite, ite_self, modStream_kept, intkEvent_kept, startActions_kept] | split | with_reducible refine kept_foldl _ _ ?_ ?_)

theorem tryStart_kept (k : Nat) (s : State) : (tryStart k s).kept = s.kept := by
  unfold tryStart
  repeat' (first | with_reducible rfl | with_reducible assumption | (intro _ _) | (intro _) | exact trivial | simp only [kept_mk, kept_fold, kept_ite, ite_self, takeStream_kept, startStream_kept] | split | with_reducible refine kept_foldl _ _ ?_ ?_)

theorem closeSlots_kept (k : Nat) (s : State) : (closeSlots k s).kept = s.kept := by
  unfold closeSlots
  repeat' (first | with_reducible rfl | with_reducible assumption | (intro _ _) | (intro _) | exact trivial | simp only [kept_mk, kept_fold, kept_ite, ite_self, modSlot_kept, freeSlot_kept, dropSlots_kept] | split | with_reducible refine kept_foldl _ _ ?_ ?_)

theorem closeStream_kept (k status : Nat) (s : State) : (closeStream k status s).kept = s.kept := by
  unfold closeStream
  repeat' (first | with_reducible rfl | with_reducible assumption | (intro _ _) | (intro _) | exact trivial | simp only [kept_mk, kept_fold, kept_ite, ite_self, intakeDiscard_kept, modSheet_kept, closeSlots_kept, drive_kept, freePins_kept, giveBack_kept, intkEvent_kept, modStream_kept, releaseAll_kept, pruneRing_kept, refreshPorts_kept, withMode_kept, retryWaiting_kept] | split | with_reducible refine kept_foldl _ _ ?_ ?_ | with_reducible refine Eq.trans (withMode_kept _ _ ?_) ?_)

theorem sizeStream_kept (k wc : Nat) (s : State) : (sizeStream k wc s).kept = s.kept := by
  unfold sizeStream
  repeat' (first | with_reducible rfl | with_reducible assumption | (intro _ _) | (intro _) | exact trivial | simp only [kept_mk, kept_fold, kept_ite, ite_self, closeStream_kept, modStream_kept, tryStart_kept] | split | with_reducible refine kept_foldl _ _ ?_ ?_)

theorem checkFreeRate_kept (k : Nat) (s : State) : (checkFreeRate k s).kept = s.kept := by
  unfold checkFreeRate
  repeat' (first | with_reducible rfl | with_reducible assumption | (intro _ _) | (intro _) | exact trivial | simp only [kept_mk, kept_fold, kept_ite, ite_self, modStream_kept, closeStream_kept, takeStream_kept] | split | with_reducible refine kept_foldl _ _ ?_ ?_)

theorem emitLine_kept (k : Nat) (raw : Option (List (List Nat))) (damaged : Bool) (s : State) : (emitLine k raw damaged s).kept = s.kept := by
  unfold emitLine
  repeat' (first | with_reducible rfl | with_reducible assumption | (intro _ _) | (intro _) | exact trivial | simp only [kept_mk, kept_fold, kept_ite, ite_self, countStray_kept, checkFreeRate_kept, takeLine_kept] | split | with_reducible refine kept_foldl _ _ ?_ ?_)

theorem emitMissing_kept (k : Nat) (x0 : Nat) (x1 : Bool) (s : State) : (emitMissing k x0 x1 s).kept = s.kept := by
  induction x0 generalizing x1 s with
  | zero =>
    unfold emitMissing
    repeat' (first | with_reducible rfl | with_reducible assumption | (intro _ _) | (intro _) | exact trivial | simp only [kept_mk, kept_fold, kept_ite, ite_self, emitLine_kept] | split | with_reducible refine kept_foldl _ _ ?_ ?_)
  | succ k ih =>
    unfold emitMissing
    repeat' (first | with_reducible rfl | with_reducible assumption | (intro _ _) | (intro _) | exact trivial | simp only [kept_mk, kept_fold, kept_ite, ite_self, ih, emitLine_kept] | split | with_reducible refine kept_foldl _ _ ?_ ?_)

theorem finishAsm_kept (k : Nat) (s : State) : (finishAsm k s).kept = s.kept := by
  unfold finishAsm
  repeat' (first | with_reducible rfl | with_reducible assumption | (intro _ _) | (intro _) | exact trivial | simp only [kept_mk, kept_fold, kept_ite, ite_self, modStream_kept, emitLine_kept] | split | with_reducible refine kept_foldl _ _ ?_ ?_)

theorem lineStart_kept (k data : Nat) (s : State) : (lineStart k data s).kept = s.kept := by
  unfold lineStart
  repeat' (first | with_reducible rfl | with_reducible assumption | (intro _ _) | (intro _) | exact trivial | simp only [kept_mk, kept_fold, kept_ite, ite_self, countFraming_kept, modStream_kept, finishAsm_kept, setAsm_kept, emitMissing_kept] | split | with_reducible refine kept_foldl _ _ ?_ ?_)

theorem countLong_kept (k : Nat) (p : LongPkt) (s : State) : (countLong k p s).kept = s.kept := by
  unfold countLong
  repeat' (first | with_reducible rfl | with_reducible assumption | (intro _ _) | (intro _) | exact trivial | simp only [kept_mk, kept_fold, kept_ite, ite_self, countFraming_kept, countCrc_kept] | split | with_reducible refine kept_foldl _ _ ?_ ?_)

theorem longPacket_kept (k : Nat) (p : LongPkt) (s : State) : (longPacket k p s).kept = s.kept := by
  unfold longPacket
  repeat' (first | with_reducible rfl | with_reducible assumption | (intro _ _) | (intro _) | exact trivial | simp only [kept_mk, kept_fold, kept_ite, ite_self, countLong_kept, countFraming_kept, setAsm_kept, sizeStream_kept] | split | with_reducible refine kept_foldl _ _ ?_ ?_)

theorem lineEnd_kept (k : Nat) (s : State) : (lineEnd k s).kept = s.kept := by
  unfold lineEnd
  repeat' (first | with_reducible rfl | with_reducible assumption | (intro _ _) | (intro _) | exact trivial | simp only [kept_mk, kept_fold, kept_ite, ite_self, countFraming_kept, setAsm_kept, finishAsm_kept] | split | with_reducible refine kept_foldl _ _ ?_ ?_)

theorem endFrame_kept (k : Nat) (missingEnd : Bool) (s : State) : (endFrame k missingEnd s).kept = s.kept := by
  unfold endFrame
  repeat' (first | with_reducible rfl | with_reducible assumption | (intro _ _) | (intro _) | exact trivial | simp only [kept_mk, kept_fold, kept_ite, ite_self, modStream_kept, modSide_kept, intakeDiscard_kept, settleTimeout_kept, modSheet_kept, endSide_kept] | split | with_reducible refine kept_foldl _ _ ?_ ?_)

theorem beginFrame_kept (k : Nat) (s : State) : (beginFrame k s).kept = s.kept := by
  unfold beginFrame
  repeat' (first | with_reducible rfl | with_reducible assumption | (intro _ _) | (intro _) | exact trivial | simp only [kept_mk, kept_fold, kept_ite, ite_self, endFrame_kept, boundary_kept, modStream_kept, beginSide_kept] | split | with_reducible refine kept_foldl _ _ ?_ ?_)

theorem onStream_kept (dt : Nat) (fix : Bool) (port vc : Nat) (sizing : Bool) (f : Nat → State → State) (s : State) (hf : ∀ k s, (f k s).kept = s.kept) :
    ∃ t, onStream dt fix port vc sizing f s = .next t ∧ t.kept = (advance dt s).kept := by
  unfold onStream
  refine ⟨_, rfl, ?_⟩
  generalize advance dt s = s
  repeat' (first | with_reducible rfl | simp only [countStray_kept, countFix, modPort_kept, hf, kept_ite, ite_self] | split)

theorem execFrameStart_kept (dt : Nat) (fix : Bool) (port vc : Nat) (s : State) : ∃ t, execFrameStart dt fix port vc s = .next t ∧ t.kept = (advance dt s).kept :=
  onStream_kept _ _ _ _ _ _ _ (fun k s => by repeat' (first | with_reducible rfl | simp only [countStray_kept, beginFrame_kept, kept_ite, ite_self] | split))

theorem execFrameEnd_kept (dt : Nat) (fix : Bool) (port vc : Nat) (s : State) : ∃ t, execFrameEnd dt fix port vc s = .next t ∧ t.kept = (advance dt s).kept :=
  onStream_kept _ _ _ _ _ _ _ (fun k s => by repeat' (first | with_reducible rfl | simp only [countStray_kept, endFrame_kept, kept_ite, ite_self] | split))

theorem execLineStart_kept (dt : Nat) (fix : Bool) (port vc data : Nat) (s : State) : ∃ t, execLineStart dt fix port vc data s = .next t ∧ t.kept = (advance dt s).kept :=
  onStream_kept _ _ _ _ _ _ _ (fun k s => lineStart_kept k (data % 65536) s)

theorem execLongPacket_kept (dt : Nat) (p : LongPkt) (s : State) : ∃ t, execLongPacket dt p s = .next t ∧ t.kept = (advance dt s).kept :=
  onStream_kept _ _ _ _ _ _ _ (fun k s => by repeat' (first | with_reducible rfl | simp only [countStray_kept, longPacket_kept, modStream_kept, kept_ite, ite_self] | split))

theorem execLineEnd_kept (dt : Nat) (fix : Bool) (port vc : Nat) (s : State) : ∃ t, execLineEnd dt fix port vc s = .next t ∧ t.kept = (advance dt s).kept :=
  onStream_kept _ _ _ _ _ _ _ (fun k s => lineEnd_kept k s)

theorem execGenericShortPacket_kept (dt : Nat) (fix : Bool) (port vc code data : Nat) (s : State) :
    ∃ t, execGenericShortPacket dt fix port vc code data s = .next t ∧ t.kept = (advance dt s).kept :=
  onStream_kept _ _ _ _ _ _ _ (fun k s => by repeat' (first | with_reducible rfl | simp only [countStray_kept, longPacket_kept, modStream_kept, kept_ite, ite_self] | split))

theorem execUncorrectableHeaderError_kept (dt port : Nat) (s : State) : ∃ t, execUncorrectableHeaderError dt port s = .next t ∧ t.kept = (advance dt s).kept := by
  unfold execUncorrectableHeaderError
  refine ⟨_, rfl, ?_⟩
  generalize advance dt s = s
  repeat' (first | with_reducible rfl | with_reducible assumption | (intro _ _) | (intro _) | exact trivial | simp only [kept_mk, kept_fold, kept_ite, ite_self, modPort_kept, modStream_kept] | split | with_reducible refine kept_foldl _ _ ?_ ?_)

theorem execMissingLine_kept (dt k : Nat) (s : State) : ∃ t, execMissingLine dt k s = .next t ∧ t.kept = (advance dt s).kept := by
  unfold execMissingLine
  refine ⟨_, rfl, ?_⟩
  generalize advance dt s = s
  repeat' (first | with_reducible rfl | with_reducible assumption | (intro _ _) | (intro _) | exact trivial | simp only [kept_mk, kept_fold, kept_ite, ite_self, emitLine_kept] | split | with_reducible refine kept_foldl _ _ ?_ ?_)

theorem execTachEdge_kept (dt pin : Nat) (s : State) : ∃ t, execTachEdge dt pin s = .next t ∧ t.kept = (advance dt s).kept := by
  unfold execTachEdge
  refine ⟨_, rfl, ?_⟩
  generalize advance dt s = s
  repeat' (first | with_reducible rfl | with_reducible assumption | (intro _ _) | (intro _) | exact trivial | simp only [kept_mk, kept_fold, kept_ite, ite_self, modStream_kept] | split | with_reducible refine kept_foldl _ _ ?_ ?_)

theorem execStreamStart_kept (dt k : Nat) (s : State) : ∃ t, execStreamStart dt k s = .next t ∧ t.kept = (advance dt s).kept := by
  unfold execStreamStart
  refine ⟨_, rfl, ?_⟩
  generalize advance dt s = s
  repeat' (first | with_reducible rfl | with_reducible assumption | (intro _ _) | (intro _) | exact trivial | simp only [kept_mk, kept_fold, kept_ite, ite_self, tryStart_kept] | split | with_reducible refine kept_foldl _ _ ?_ ?_)

theorem asOpen_kept (k : Nat) (s : State) : (asOpen k s).kept = s.kept := by
  unfold asOpen
  repeat' (first | with_reducible rfl | with_reducible assumption | (intro _ _) | (intro _) | exact trivial | simp only [kept_mk, kept_fold, kept_ite, ite_self, modStream_kept] | split | with_reducible refine kept_foldl _ _ ?_ ?_)

theorem streamOpenBody_kept (p : Packet) (s : State) : ((streamOpenBody p s).after s).kept = s.kept := by
  unfold streamOpenBody
  repeat' (first | with_reducible rfl | with_reducible assumption | (intro _ _) | (intro _) | exact trivial | simp only [after_ok, after_refuse, after_refuseWith, after_ite, kept_mk, kept_fold, kept_ite, ite_self, endDiscovery_kept, asOpen_kept, modStream_kept, tryStart_kept, refreshPorts_kept, claimPins_kept] | split | with_reducible refine kept_foldl _ _ ?_ ?_)

theorem streamCloseBody_kept (p : Packet) (s : State) : ((streamCloseBody p s).after s).kept = s.kept := by
  unfold streamCloseBody
  repeat' (first | with_reducible rfl | with_reducible assumption | (intro _ _) | (intro _) | exact trivial | simp only [after_ok, after_refuse, after_refuseWith, after_ite, kept_mk, kept_fold, kept_ite, ite_self, closeStream_kept, endDiscovery_kept] | split | with_reducible refine kept_foldl _ _ ?_ ?_)

theorem flatLoadBody_kept (p : Packet) (s : State) : ((flatLoadBody p s).after s).kept = s.kept := by
  unfold flatLoadBody
  repeat' (first | with_reducible rfl | with_reducible assumption | (intro _ _) | (intro _) | exact trivial | simp only [after_ok, after_refuse, after_refuseWith, after_ite, kept_mk, kept_fold, kept_ite, ite_self, modStream_kept] | split | with_reducible refine kept_foldl _ _ ?_ ?_)

theorem speedSetBody_kept (p : Packet) (s : State) : ((speedSetBody p s).after s).kept = s.kept := by
  unfold speedSetBody
  repeat' (first | with_reducible rfl | with_reducible assumption | (intro _ _) | (intro _) | exact trivial | simp only [after_ok, after_refuse, after_refuseWith, after_ite, kept_mk, kept_fold, kept_ite, ite_self, modStream_kept] | split | with_reducible refine kept_foldl _ _ ?_ ?_)

theorem streamStatusBody_kept (p : Packet) (s : State) : ((streamStatusBody p s).after s).kept = s.kept := by
  unfold streamStatusBody
  repeat' (first | with_reducible rfl | with_reducible assumption | (intro _ _) | (intro _) | exact trivial | simp only [after_ok, after_refuse, after_refuseWith, after_ite, kept_mk, kept_fold, kept_ite, ite_self] | split | with_reducible refine kept_foldl _ _ ?_ ?_)

theorem execStreamOpen_kept (dt : Nat) (h : Hdr) (p : Bytes) (s : State) : ∃ t, execStreamOpen dt h p s = .next t ∧ t.kept = (advance dt s).kept :=
  hostRow_kept _ _ (fun p s => streamOpenBody_kept p s) dt h p s

theorem execStreamClose_kept (dt : Nat) (h : Hdr) (p : Bytes) (s : State) : ∃ t, execStreamClose dt h p s = .next t ∧ t.kept = (advance dt s).kept :=
  hostRow_kept _ _ (fun p s => streamCloseBody_kept p s) dt h p s

theorem execFlatLoad_kept (dt : Nat) (h : Hdr) (p : Bytes) (s : State) : ∃ t, execFlatLoad dt h p s = .next t ∧ t.kept = (advance dt s).kept :=
  hostRow_kept _ _ (fun p s => flatLoadBody_kept p s) dt h p s

theorem execSpeedSet_kept (dt : Nat) (h : Hdr) (p : Bytes) (s : State) : ∃ t, execSpeedSet dt h p s = .next t ∧ t.kept = (advance dt s).kept :=
  hostRow_kept _ _ (fun p s => speedSetBody_kept p s) dt h p s

theorem execStreamStatus_kept (dt : Nat) (h : Hdr) (p : Bytes) (s : State) : ∃ t, execStreamStatus dt h p s = .next t ∧ t.kept = (advance dt s).kept :=
  hostRow_kept _ _ (fun p s => streamStatusBody_kept p s) dt h p s

end Sys2Proof.Machine
end

