-- ==== Sys2Proof/Laws/KeptOutOps.lean ====
section
/-! SUPPORT. What OutOps.lean keeps. -/
set_option linter.unusedSimpArgs false
set_option linter.unusedVariables false
set_option linter.unusedTactic false
set_option linter.unreachableTactic false
namespace Sys2Proof.Machine

theorem modTx_kept (p : Nat) (f : TxPort → TxPort) (s : State) : (modTx p f s).kept = s.kept := by
  unfold modTx
  repeat' (first | with_reducible rfl | with_reducible assumption | (intro _ _) | (intro _) | exact trivial | simp only [kept_mk, kept_fold, kept_ite, ite_self] | split | with_reducible refine kept_foldl _ _ ?_ ?_)

theorem handBand_kept (id : Nat) (s : State) : (handBand id s).kept = s.kept := by
  unfold handBand
  repeat' (first | with_reducible rfl | with_reducible assumption | (intro _ _) | (intro _) | exact trivial | simp only [kept_mk, kept_fold, kept_ite, ite_self, refreshHigh_kept, modEntries_kept, putEntries_kept, modSheet_kept, modTx_kept] | split | with_reducible refine kept_foldl _ _ ?_ ?_)

theorem handRows_kept  (x0 : Nat) (x1 : Nat) (s : State) : (handRows x0 x1 s).kept = s.kept := by
  induction x0 generalizing x1 s with
  | zero =>
    unfold handRows
    repeat' (first | with_reducible rfl | with_reducible assumption | (intro _ _) | (intro _) | exact trivial | simp only [kept_mk, kept_fold, kept_ite, ite_self, handBand_kept] | split | with_reducible refine kept_foldl _ _ ?_ ?_)
  | succ k ih =>
    unfold handRows
    repeat' (first | with_reducible rfl | with_reducible assumption | (intro _ _) | (intro _) | exact trivial | simp only [kept_mk, kept_fold, kept_ite, ite_self, ih, handBand_kept] | split | with_reducible refine kept_foldl _ _ ?_ ?_)

theorem handAll_kept (s : State) : (handAll s).kept = s.kept := by
  unfold handAll
  repeat' (first | with_reducible rfl | with_reducible assumption | (intro _ _) | (intro _) | exact trivial | simp only [kept_mk, kept_fold, kept_ite, ite_self, handRows_kept] | split | with_reducible refine kept_foldl _ _ ?_ ?_)

theorem roomFreed_kept (s : State) : (roomFreed s).kept = s.kept := by
  unfold roomFreed
  repeat' (first | with_reducible rfl | with_reducible assumption | (intro _ _) | (intro _) | exact trivial | simp only [kept_mk, kept_fold, kept_ite, ite_self, handAll_kept, freeEntries_kept] | split | with_reducible refine kept_foldl _ _ ?_ ?_)

end Sys2Proof.Machine
end

