-- ==== Sys2Proof/Laws/KeptPrep.lean ====
section
/-! SUPPORT. What Prep.lean keeps. -/
set_option linter.unusedSimpArgs false
set_option linter.unusedVariables false
set_option linter.unusedTactic false
set_option linter.unreachableTactic false
namespace Sys2Proof.Machine

theorem offerSamples_kept (id : Nat) (s : State) : (offerSamples id s).kept = s.kept := by
  unfold offerSamples
  repeat' (first | with_reducible rfl | with_reducible assumption | (intro _ _) | (intro _) | exact trivial | simp only [kept_mk, kept_fold, kept_ite, ite_self, modSheet_kept] | split | with_reducible refine kept_foldl _ _ ?_ ?_)

theorem modCount_kept (k : Nat) (f : PrepCounts → PrepCounts) (s : State) : (modCount k f s).kept = s.kept := by
  unfold modCount
  repeat' (first | with_reducible rfl | with_reducible assumption | (intro _ _) | (intro _) | exact trivial | simp only [kept_mk, kept_fold, kept_ite, ite_self] | split | with_reducible refine kept_foldl _ _ ?_ ?_)

theorem completeList_kept (id : Nat) (s : State) : (completeList id s).kept = s.kept := by
  unfold completeList
  repeat' (first | with_reducible rfl | with_reducible assumption | (intro _ _) | (intro _) | exact trivial | simp only [kept_mk, kept_fold, kept_ite, ite_self, modSheet_kept, prepEvent_kept, modCount_kept] | split | with_reducible refine kept_foldl _ _ ?_ ?_)

theorem takeRegion_kept (r : Region) (s : State) : (takeRegion r s).kept = s.kept := by
  unfold takeRegion
  repeat' (first | with_reducible rfl | with_reducible assumption | (intro _ _) | (intro _) | exact trivial | simp only [kept_mk, kept_fold, kept_ite, ite_self, prepEvent_kept, modSheet_kept, modCount_kept, completeList_kept, offerSamples_kept] | split | with_reducible refine kept_foldl _ _ ?_ ?_)

theorem fallbacks_kept (t : Nat) (s : State) : (fallbacks t s).kept = s.kept := by
  unfold fallbacks
  repeat' (first | with_reducible rfl | with_reducible assumption | (intro _ _) | (intro _) | exact trivial | simp only [kept_mk, kept_fold, kept_ite, ite_self, prepEvent_kept, modCount_kept, modSheet_kept] | split | with_reducible refine kept_foldl _ _ ?_ ?_)

theorem closeBatch_kept (c : Nat) (s : State) : (closeBatch c s).kept = s.kept := by
  unfold closeBatch
  repeat' (first | with_reducible rfl | with_reducible assumption | (intro _ _) | (intro _) | exact trivial | simp only [kept_mk, kept_fold, kept_ite, ite_self, adoptClass_kept, discardStale_kept, fallbacks_kept] | split | with_reducible refine kept_foldl _ _ ?_ ?_)

theorem closeFull_kept  (x0 : Nat) (s : State) : (closeFull x0 s).kept = s.kept := by
  induction x0 generalizing s with
  | zero =>
    unfold closeFull
    repeat' (first | with_reducible rfl | with_reducible assumption | (intro _ _) | (intro _) | exact trivial | simp only [kept_mk, kept_fold, kept_ite, ite_self, closeBatch_kept] | split | with_reducible refine kept_foldl _ _ ?_ ?_)
  | succ k ih =>
    unfold closeFull
    repeat' (first | with_reducible rfl | with_reducible assumption | (intro _ _) | (intro _) | exact trivial | simp only [kept_mk, kept_fold, kept_ite, ite_self, ih, closeBatch_kept] | split | with_reducible refine kept_foldl _ _ ?_ ?_)

theorem fillSlot_kept (c : BatchClass) (bid : Nat) (b : BatchSlot) (s : State) : (fillSlot c bid b s).2.kept = s.kept := by
  unfold fillSlot
  repeat' (first | with_reducible rfl | with_reducible assumption | (intro _ _) | (intro _) | exact trivial | simp only [kept_mk, kept_fold, kept_ite, snd_ite, ite_self, modSheet_kept, modCount_kept, prepEvent_kept] | split | with_reducible refine kept_foldl _ _ ?_ ?_)

theorem fillSlots_kept (c : BatchClass) (bid : Nat) (x0 : List BatchSlot) (s : State) : (fillSlots c bid x0 s).2.kept = s.kept := by
  induction x0 generalizing s with
  | nil =>
    unfold fillSlots
    repeat' (first | with_reducible rfl | with_reducible assumption | (intro _ _) | (intro _) | exact trivial | simp only [kept_mk, kept_fold, kept_ite, snd_ite, ite_self, fillSlot_kept] | split | with_reducible refine kept_foldl _ _ ?_ ?_)
  | cons y l ih =>
    unfold fillSlots
    repeat' (first | with_reducible rfl | with_reducible assumption | (intro _ _) | (intro _) | exact trivial | simp only [kept_mk, kept_fold, kept_ite, snd_ite, ite_self, ih, fillSlot_kept] | split | with_reducible refine kept_foldl _ _ ?_ ?_)

theorem writeCommons_kept (c off : Nat) (p : Bytes) (s : State) : (writeCommons c off p s).kept = s.kept := by
  unfold writeCommons
  repeat' (first | with_reducible rfl | with_reducible assumption | (intro _ _) | (intro _) | exact trivial | simp only [kept_mk, kept_fold, kept_ite, ite_self, modCluster_kept] | split | with_reducible refine kept_foldl _ _ ?_ ?_)

theorem freeHostBands_kept (s : State) : (freeHostBands s).kept = s.kept := by
  unfold freeHostBands
  repeat' (first | with_reducible rfl | with_reducible assumption | (intro _ _) | (intro _) | exact trivial | simp only [kept_mk, kept_fold, kept_ite, ite_self] | split | with_reducible refine kept_foldl _ _ ?_ ?_)

theorem fillBatch_kept (c : Nat) (s : State) : (fillBatch c s).kept = s.kept := by
  unfold fillBatch
  repeat' (first | with_reducible rfl | with_reducible assumption | (intro _ _) | (intro _) | exact trivial | simp only [kept_mk, kept_fold, kept_ite, ite_self, fillSlots_kept, writeCommons_kept, signalTally_kept, freeHostBands_kept] | split | with_reducible refine kept_foldl _ _ ?_ ?_)

theorem execBatchFilled_kept (dt c : Nat) (s : State) : ∃ t, execBatchFilled dt c s = .next t ∧ t.kept = (advance dt s).kept := by
  unfold execBatchFilled
  refine ⟨_, rfl, ?_⟩
  generalize advance dt s = s
  repeat' (first | with_reducible rfl | with_reducible assumption | (intro _ _) | (intro _) | exact trivial | simp only [kept_mk, kept_fold, kept_ite, ite_self, fillBatch_kept] | split | with_reducible refine kept_foldl _ _ ?_ ?_)

theorem noteWaiting_kept (k : Nat) (s : State) : (noteWaiting k s).kept = s.kept := by
  unfold noteWaiting
  repeat' (first | with_reducible rfl | with_reducible assumption | (intro _ _) | (intro _) | exact trivial | simp only [kept_mk, kept_fold, kept_ite, ite_self, modSheet_kept] | split | with_reducible refine kept_foldl _ _ ?_ ?_)

theorem prepareBand_kept (k : Nat) (h : Sheet) (g : Geometry) (s : State) : (prepareBand k h g s).kept = s.kept := by
  unfold prepareBand
  repeat' (first | with_reducible rfl | with_reducible assumption | (intro _ _) | (intro _) | exact trivial | simp only [kept_mk, kept_fold, kept_ite, ite_self, writeCommons_kept, modSheet_kept, prepEvent_kept, dropCharge_kept, modCount_kept, handRows_kept, freeHostBands_kept, offerSamples_kept, pruneRing_kept, noteWaiting_kept, closeFull_kept, releaseAll_kept] | split | with_reducible refine kept_foldl _ _ ?_ ?_)

theorem execBandPrepared_kept (dt k : Nat) (s : State) : ∃ t, execBandPrepared dt k s = .next t ∧ t.kept = (advance dt s).kept := by
  unfold execBandPrepared
  refine ⟨_, rfl, ?_⟩
  generalize advance dt s = s
  repeat' (first | with_reducible rfl | with_reducible assumption | (intro _ _) | (intro _) | exact trivial | simp only [kept_mk, kept_fold, kept_ite, ite_self, noteWaiting_kept, releaseAll_kept, prepareBand_kept] | split | with_reducible refine kept_foldl _ _ ?_ ?_)

theorem execSplitAdvice_kept (dt k : Nat) (s : State) : ∃ t, execSplitAdvice dt k s = .next t ∧ t.kept = (advance dt s).kept := by
  unfold execSplitAdvice
  refine ⟨_, rfl, ?_⟩
  generalize advance dt s = s
  repeat' (first | with_reducible rfl | with_reducible assumption | (intro _ _) | (intro _) | exact trivial | simp only [kept_mk, kept_fold, kept_ite, ite_self, prepEvent_kept, modSheet_kept] | split | with_reducible refine kept_foldl _ _ ?_ ?_)

theorem closeFor_kept (j : Nat) (s : State) : (closeFor j s).kept = s.kept := by
  unfold closeFor
  repeat' (first | with_reducible rfl | with_reducible assumption | (intro _ _) | (intro _) | exact trivial | simp only [kept_mk, kept_fold, kept_ite, ite_self, closeBatch_kept] | split | with_reducible refine kept_foldl _ _ ?_ ?_)

theorem execPreDispatch_kept (dt n : Nat) (s : State) : ∃ t, execPreDispatch dt n s = .next t ∧ t.kept = (advance dt s).kept := by
  unfold execPreDispatch
  refine ⟨_, rfl, ?_⟩
  generalize advance dt s = s
  repeat' (first | with_reducible rfl | with_reducible assumption | (intro _ _) | (intro _) | exact trivial | simp only [kept_mk, kept_fold, kept_ite, ite_self, offer_kept, closeFor_kept] | split | with_reducible refine kept_foldl _ _ ?_ ?_)

theorem readQueue_kept (k cluster off : Nat) (x0 : Nat) (s : State) : (readQueue k cluster off x0 s).kept = s.kept := by
  induction x0 generalizing s with
  | zero =>
    unfold readQueue
    repeat' (first | with_reducible rfl | with_reducible assumption | (intro _ _) | (intro _) | exact trivial | simp only [kept_mk, kept_fold, kept_ite, ite_self, takeRegion_kept] | split | with_reducible refine kept_foldl _ _ ?_ ?_)
  | succ k ih =>
    unfold readQueue
    repeat' (first | with_reducible rfl | with_reducible assumption | (intro _ _) | (intro _) | exact trivial | simp only [kept_mk, kept_fold, kept_ite, ite_self, ih, takeRegion_kept] | split | with_reducible refine kept_foldl _ _ ?_ ?_)

theorem signalAndTake_kept (t n : Nat) (s : State) : (signalAndTake t n s).kept = s.kept := by
  unfold signalAndTake
  repeat' (first | with_reducible rfl | with_reducible assumption | (intro _ _) | (intro _) | exact trivial | simp only [kept_mk, kept_fold, kept_ite, ite_self, signalTally_kept, closeFull_kept, readQueue_kept] | split | with_reducible refine kept_foldl _ _ ?_ ?_)

theorem regionPostBody_kept (p : Packet) (s : State) : ((regionPostBody p s).after s).kept = s.kept := by
  unfold regionPostBody
  repeat' (first | with_reducible rfl | with_reducible assumption | (intro _ _) | (intro _) | exact trivial | simp only [after_ok, after_refuse, after_refuseWith, after_ite, kept_mk, kept_fold, kept_ite, ite_self, closeFull_kept, takeRegion_kept] | split | with_reducible refine kept_foldl _ _ ?_ ?_)

theorem postAugs_kept (now : Nat) (x0 : List Bytes) (x1 : Nat) (s : State) : (postAugs now x0 x1 s).2.2.kept = s.kept := by
  induction x0 generalizing x1 s with
  | nil =>
    unfold postAugs
    repeat' (first | with_reducible rfl | with_reducible assumption | (intro _ _) | (intro _) | exact trivial | simp only [kept_mk, kept_fold, kept_ite, snd_ite, ite_self] | split | with_reducible refine kept_foldl _ _ ?_ ?_)
  | cons y l ih =>
    unfold postAugs
    repeat' (first | with_reducible rfl | with_reducible assumption | (intro _ _) | (intro _) | exact trivial | simp only [kept_mk, kept_fold, kept_ite, snd_ite, ite_self, ih] | split | with_reducible refine kept_foldl _ _ ?_ ?_)

theorem augPostBody_kept (p : Packet) (s : State) : ((augPostBody p s).after s).kept = s.kept := by
  unfold augPostBody
  repeat' (first | with_reducible rfl | with_reducible assumption | (intro _ _) | (intro _) | exact trivial | simp only [after_ok, after_refuse, after_refuseWith, after_ite, kept_mk, kept_fold, kept_ite, ite_self, postAugs_kept] | split | with_reducible refine kept_foldl _ _ ?_ ?_)

theorem steerSetBody_kept (p : Packet) (s : State) : ((steerSetBody p s).after s).kept = s.kept := by
  unfold steerSetBody
  repeat' (first | with_reducible rfl | with_reducible assumption | (intro _ _) | (intro _) | exact trivial | simp only [after_ok, after_refuse, after_refuseWith, after_ite, kept_mk, kept_fold, kept_ite, ite_self] | split | with_reducible refine kept_foldl _ _ ?_ ?_)

theorem prepStatusBody_kept (p : Packet) (s : State) : ((prepStatusBody p s).after s).kept = s.kept := by
  unfold prepStatusBody
  repeat' (first | with_reducible rfl | with_reducible assumption | (intro _ _) | (intro _) | exact trivial | simp only [after_ok, after_refuse, after_refuseWith, after_ite, kept_mk, kept_fold, kept_ite, ite_self] | split | with_reducible refine kept_foldl _ _ ?_ ?_)

theorem execRegionPost_kept (dt : Nat) (h : Hdr) (p : Bytes) (s : State) : ∃ t, execRegionPost dt h p s = .next t ∧ t.kept = (advance dt s).kept :=
  hostRow_kept _ _ (fun p s => regionPostBody_kept p s) dt h p s

theorem execAugPost_kept (dt : Nat) (h : Hdr) (p : Bytes) (s : State) : ∃ t, execAugPost dt h p s = .next t ∧ t.kept = (advance dt s).kept :=
  hostRow_kept _ _ (fun p s => augPostBody_kept p s) dt h p s

theorem execSteerSet_kept (dt : Nat) (h : Hdr) (p : Bytes) (s : State) : ∃ t, execSteerSet dt h p s = .next t ∧ t.kept = (advance dt s).kept :=
  hostRow_kept _ _ (fun p s => steerSetBody_kept p s) dt h p s

theorem execPrepStatus_kept (dt : Nat) (h : Hdr) (p : Bytes) (s : State) : ∃ t, execPrepStatus dt h p s = .next t ∧ t.kept = (advance dt s).kept :=
  hostRow_kept _ _ (fun p s => prepStatusBody_kept p s) dt h p s

end Sys2Proof.Machine
end

