-- ==== Sys2Proof/Laws/KeptCoreOps.lean ====
section
/-! SUPPORT. What CoreOps.lean keeps. -/
set_option linter.unusedSimpArgs false
set_option linter.unusedVariables false
set_option linter.unusedTactic false
set_option linter.unreachableTactic false
namespace Sys2Proof.Machine

theorem setX_kept (c i v : Nat) (s : State) : (setX c i v s).kept = s.kept := by
  unfold setX
  repeat' (first | with_reducible rfl | with_reducible assumption | (intro _ _) | (intro _) | exact trivial | simp only [kept_mk, kept_fold, kept_ite, ite_self, modRegs_kept] | split | with_reducible refine kept_foldl _ _ ?_ ?_)

theorem setV_kept (c i : Nat) (v : List Word) (s : State) : (setV c i v s).kept = s.kept := by
  unfold setV
  repeat' (first | with_reducible rfl | with_reducible assumption | (intro _ _) | (intro _) | exact trivial | simp only [kept_mk, kept_fold, kept_ite, ite_self, modRegs_kept] | split | with_reducible refine kept_foldl _ _ ?_ ?_)

theorem setP_kept (c i : Nat) (b : Bool) (s : State) : (setP c i b s).kept = s.kept := by
  unfold setP
  repeat' (first | with_reducible rfl | with_reducible assumption | (intro _ _) | (intro _) | exact trivial | simp only [kept_mk, kept_fold, kept_ite, ite_self, modRegs_kept] | split | with_reducible refine kept_foldl _ _ ?_ ?_)

theorem setTile_kept (c t : Nat) (a : AccTile) (s : State) : (setTile c t a s).kept = s.kept := by
  unfold setTile
  repeat' (first | with_reducible rfl | with_reducible assumption | (intro _ _) | (intro _) | exact trivial | simp only [kept_mk, kept_fold, kept_ite, ite_self, modRegs_kept] | split | with_reducible refine kept_foldl _ _ ?_ ?_)

theorem countEvents_kept (c clips nans sats : Nat) (s : State) : (countEvents c clips nans sats s).kept = s.kept := by
  unfold countEvents
  repeat' (first | with_reducible rfl | with_reducible assumption | (intro _ _) | (intro _) | exact trivial | simp only [kept_mk, kept_fold, kept_ite, ite_self, modCore_kept] | split | with_reducible refine kept_foldl _ _ ?_ ?_)

theorem writeLoc_kept (l : Loc) (p : Bytes) (s : State) : (writeLoc l p s).kept = s.kept := by
  unfold writeLoc
  repeat' (first | with_reducible rfl | with_reducible assumption | (intro _ _) | (intro _) | exact trivial | simp only [kept_mk, kept_fold, kept_ite, ite_self, modCore_kept, writeCommons_kept] | split | with_reducible refine kept_foldl _ _ ?_ ?_)

theorem ownWrite_kept (c a : Nat) (p : Bytes) (s : State) : (ownWrite c a p s).kept = s.kept := by
  unfold ownWrite
  repeat' (first | with_reducible rfl | with_reducible assumption | (intro _ _) | (intro _) | exact trivial | simp only [kept_mk, kept_fold, kept_ite, ite_self, writeLoc_kept] | split | with_reducible refine kept_foldl _ _ ?_ ?_)

theorem goto_kept (c pc : Nat) (s : State) : (goto c pc s).kept = s.kept := by
  unfold goto
  repeat' (first | with_reducible rfl | with_reducible assumption | (intro _ _) | (intro _) | exact trivial | simp only [kept_mk, kept_fold, kept_ite, ite_self, modCore_kept, coreFault_kept] | split | with_reducible refine kept_foldl _ _ ?_ ?_)

/-- The state in which an instruction completes. -/
def Done.state (d : Done) : State :=
  match d with
  | .step t => t
  | .jump _ t => t
  | .stay t => t

/-- Where an instruction completes, it completes with `k` kept. -/
@[irreducible] def EffKept (r : Except Bad Done) (k : Kept) : Prop := ∀ d : Done, r = .ok d → d.state.kept = k

theorem effKept_step {t : State} {k : Kept} (h : t.kept = k) : EffKept (.ok (.step t)) k := by
  unfold EffKept; intro d e; cases e; exact h
theorem effKept_jump {t : State} {k : Kept} (pc : Nat) (h : t.kept = k) : EffKept (.ok (.jump pc t)) k := by
  unfold EffKept; intro d e; cases e; exact h
theorem effKept_stay {t : State} {k : Kept} (h : t.kept = k) : EffKept (.ok (.stay t)) k := by
  unfold EffKept; intro d e; cases e; exact h
theorem effKept_pure_step {t : State} {k : Kept} (h : t.kept = k) : EffKept (pure (.step t)) k := effKept_step h
theorem effKept_pure_jump {t : State} {k : Kept} (pc : Nat) (h : t.kept = k) : EffKept (pure (.jump pc t)) k := effKept_jump pc h
theorem effKept_pure_stay {t : State} {k : Kept} (h : t.kept = k) : EffKept (pure (.stay t)) k := effKept_stay h
theorem effKept_error (b : Bad) (k : Kept) : EffKept (.error b) k := by
  unfold EffKept; intro d e; cases e
theorem effKept_illegal (k : Kept) : EffKept illegal k := effKept_error _ _
theorem effKept_badAddress (k : Kept) : EffKept badAddress k := effKept_error _ _
theorem effKept_bind {α : Type} {r : Except Bad α} {f : α → Except Bad Done} {k : Kept} (h : ∀ a, r = .ok a → EffKept (f a) k) :
    EffKept (r >>= f) k := by
  cases r with
  | error b => exact effKept_error _ _
  | ok a => exact h a rfl

theorem coreRow_kept (group op none_ : Nat) (eff : Eff) (h : ∀ c n s, EffKept (eff c n s) s.kept) (dt c : Nat) (w : DWord) (s : State) :
    ∃ t, coreRow group op none_ eff dt c w s = .next t ∧ t.kept = (advance dt s).kept := by
  unfold coreRow
  refine ⟨_, rfl, ?_⟩
  generalize advance dt s = s
  have hk := h c w.toNat s
  revert hk
  generalize eff c w.toNat s = r
  intro hk
  cases r with
  | error b =>
    cases b <;> repeat' (first | with_reducible rfl | simp only [goto_kept, coreFault_kept, modCore_kept, touchSram_kept] | split)
  | ok d =>
    unfold EffKept at hk
    have := hk d rfl
    cases d <;> simp only [Done.state] at this <;>
      repeat' (first | with_reducible rfl | with_reducible assumption | simp only [goto_kept, coreFault_kept] | split)

end Sys2Proof.Machine
end

