-- ==== Sys2Proof/Laws/KeptScalar.lean ====
section
/-! SUPPORT. What Scalar.lean keeps. -/
set_option linter.unusedSimpArgs false
set_option linter.unusedVariables false
set_option linter.unusedTactic false
set_option linter.unreachableTactic false
namespace Sys2Proof.Machine

theorem alu_kept (op : Nat) (c n : Nat) (s : State) : EffKept (alu op c n s) s.kept := by
  unfold alu
  repeat' (first | exact effKept_illegal _ | exact effKept_badAddress _ | exact effKept_error _ _ | with_reducible rfl | with_reducible assumption | (intro _ _) | with_reducible refine effKept_step ?_ | with_reducible refine effKept_jump _ ?_ | with_reducible refine effKept_stay ?_ | with_reducible refine effKept_pure_step ?_ | with_reducible refine effKept_pure_jump _ ?_ | with_reducible refine effKept_pure_stay ?_ | with_reducible refine effKept_bind ?_ | simp only [kept_mk, kept_fold, kept_ite, snd_ite, ite_self, setX_kept] | (simp only [draw]) | split | (with_reducible refine kept_foldl _ _ ?_ ?_))

theorem cmpEff_kept  (c n : Nat) (s : State) : EffKept (cmpEff  c n s) s.kept := by
  unfold cmpEff
  repeat' (first | exact effKept_illegal _ | exact effKept_badAddress _ | exact effKept_error _ _ | with_reducible rfl | with_reducible assumption | (intro _ _) | with_reducible refine effKept_step ?_ | with_reducible refine effKept_jump _ ?_ | with_reducible refine effKept_stay ?_ | with_reducible refine effKept_pure_step ?_ | with_reducible refine effKept_pure_jump _ ?_ | with_reducible refine effKept_pure_stay ?_ | with_reducible refine effKept_bind ?_ | simp only [kept_mk, kept_fold, kept_ite, snd_ite, ite_self, setP_kept] | (simp only [draw]) | split | (with_reducible refine kept_foldl _ _ ?_ ?_))

theorem brEff_kept  (c n : Nat) (s : State) : EffKept (brEff  c n s) s.kept := by
  unfold brEff
  repeat' (first | exact effKept_illegal _ | exact effKept_badAddress _ | exact effKept_error _ _ | with_reducible rfl | with_reducible assumption | (intro _ _) | with_reducible refine effKept_step ?_ | with_reducible refine effKept_jump _ ?_ | with_reducible refine effKept_stay ?_ | with_reducible refine effKept_pure_step ?_ | with_reducible refine effKept_pure_jump _ ?_ | with_reducible refine effKept_pure_stay ?_ | with_reducible refine effKept_bind ?_ | simp only [kept_mk, kept_fold, kept_ite, snd_ite, ite_self] | (simp only [draw]) | split | (with_reducible refine kept_foldl _ _ ?_ ?_))

theorem loopEff_kept  (c n : Nat) (s : State) : EffKept (loopEff  c n s) s.kept := by
  unfold loopEff
  repeat' (first | exact effKept_illegal _ | exact effKept_badAddress _ | exact effKept_error _ _ | with_reducible rfl | with_reducible assumption | (intro _ _) | with_reducible refine effKept_step ?_ | with_reducible refine effKept_jump _ ?_ | with_reducible refine effKept_stay ?_ | with_reducible refine effKept_pure_step ?_ | with_reducible refine effKept_pure_jump _ ?_ | with_reducible refine effKept_pure_stay ?_ | with_reducible refine effKept_bind ?_ | simp only [kept_mk, kept_fold, kept_ite, snd_ite, ite_self, modRegs_kept] | (simp only [draw]) | split | (with_reducible refine kept_foldl _ _ ?_ ?_))

theorem tbrdEff_kept  (c n : Nat) (s : State) : EffKept (tbrdEff  c n s) s.kept := by
  unfold tbrdEff
  repeat' (first | exact effKept_illegal _ | exact effKept_badAddress _ | exact effKept_error _ _ | with_reducible rfl | with_reducible assumption | (intro _ _) | with_reducible refine effKept_step ?_ | with_reducible refine effKept_jump _ ?_ | with_reducible refine effKept_stay ?_ | with_reducible refine effKept_pure_step ?_ | with_reducible refine effKept_pure_jump _ ?_ | with_reducible refine effKept_pure_stay ?_ | with_reducible refine effKept_bind ?_ | simp only [kept_mk, kept_fold, kept_ite, snd_ite, ite_self, setX_kept, modCore_kept] | (simp only [draw]) | split | (with_reducible refine kept_foldl _ _ ?_ ?_))

theorem gsetEff_kept  (c n : Nat) (s : State) : EffKept (gsetEff  c n s) s.kept := by
  unfold gsetEff
  repeat' (first | exact effKept_illegal _ | exact effKept_badAddress _ | exact effKept_error _ _ | with_reducible rfl | with_reducible assumption | (intro _ _) | with_reducible refine effKept_step ?_ | with_reducible refine effKept_jump _ ?_ | with_reducible refine effKept_stay ?_ | with_reducible refine effKept_pure_step ?_ | with_reducible refine effKept_pure_jump _ ?_ | with_reducible refine effKept_pure_stay ?_ | with_reducible refine effKept_bind ?_ | simp only [kept_mk, kept_fold, kept_ite, snd_ite, ite_self, modRegs_kept] | (simp only [draw]) | split | (with_reducible refine kept_foldl _ _ ?_ ?_))

theorem haltEff_kept  (c n : Nat) (s : State) : EffKept (haltEff  c n s) s.kept := by
  unfold haltEff
  repeat' (first | exact effKept_illegal _ | exact effKept_badAddress _ | exact effKept_error _ _ | with_reducible rfl | with_reducible assumption | (intro _ _) | with_reducible refine effKept_step ?_ | with_reducible refine effKept_jump _ ?_ | with_reducible refine effKept_stay ?_ | with_reducible refine effKept_pure_step ?_ | with_reducible refine effKept_pure_jump _ ?_ | with_reducible refine effKept_pure_stay ?_ | with_reducible refine effKept_bind ?_ | simp only [kept_mk, kept_fold, kept_ite, snd_ite, ite_self, modCluster_kept, modCore_kept, signalAndTake_kept, dispatchAll_kept] | (simp only [draw]) | split | (with_reducible refine kept_foldl _ _ ?_ ?_))

theorem execAddI_kept (dt c : Nat) (w : DWord) (s : State) : ∃ t, execAddI dt c w s = .next t ∧ t.kept = (advance dt s).kept :=
  coreRow_kept _ _ _ _ (alu_kept _) dt c w s

theorem execSubI_kept (dt c : Nat) (w : DWord) (s : State) : ∃ t, execSubI dt c w s = .next t ∧ t.kept = (advance dt s).kept :=
  coreRow_kept _ _ _ _ (alu_kept _) dt c w s

theorem execMulI_kept (dt c : Nat) (w : DWord) (s : State) : ∃ t, execMulI dt c w s = .next t ∧ t.kept = (advance dt s).kept :=
  coreRow_kept _ _ _ _ (alu_kept _) dt c w s

theorem execAndI_kept (dt c : Nat) (w : DWord) (s : State) : ∃ t, execAndI dt c w s = .next t ∧ t.kept = (advance dt s).kept :=
  coreRow_kept _ _ _ _ (alu_kept _) dt c w s

theorem execOrI_kept (dt c : Nat) (w : DWord) (s : State) : ∃ t, execOrI dt c w s = .next t ∧ t.kept = (advance dt s).kept :=
  coreRow_kept _ _ _ _ (alu_kept _) dt c w s

theorem execXorI_kept (dt c : Nat) (w : DWord) (s : State) : ∃ t, execXorI dt c w s = .next t ∧ t.kept = (advance dt s).kept :=
  coreRow_kept _ _ _ _ (alu_kept _) dt c w s

theorem execShl_kept (dt c : Nat) (w : DWord) (s : State) : ∃ t, execShl dt c w s = .next t ∧ t.kept = (advance dt s).kept :=
  coreRow_kept _ _ _ _ (alu_kept _) dt c w s

theorem execShr_kept (dt c : Nat) (w : DWord) (s : State) : ∃ t, execShr dt c w s = .next t ∧ t.kept = (advance dt s).kept :=
  coreRow_kept _ _ _ _ (alu_kept _) dt c w s

theorem execSra_kept (dt c : Nat) (w : DWord) (s : State) : ∃ t, execSra dt c w s = .next t ∧ t.kept = (advance dt s).kept :=
  coreRow_kept _ _ _ _ (alu_kept _) dt c w s

theorem execMinI_kept (dt c : Nat) (w : DWord) (s : State) : ∃ t, execMinI dt c w s = .next t ∧ t.kept = (advance dt s).kept :=
  coreRow_kept _ _ _ _ (alu_kept _) dt c w s

theorem execMaxI_kept (dt c : Nat) (w : DWord) (s : State) : ∃ t, execMaxI dt c w s = .next t ∧ t.kept = (advance dt s).kept :=
  coreRow_kept _ _ _ _ (alu_kept _) dt c w s

theorem execCmp_kept (dt c : Nat) (w : DWord) (s : State) : ∃ t, execCmp dt c w s = .next t ∧ t.kept = (advance dt s).kept :=
  coreRow_kept _ _ _ _ (cmpEff_kept) dt c w s

theorem execBr_kept (dt c : Nat) (w : DWord) (s : State) : ∃ t, execBr dt c w s = .next t ∧ t.kept = (advance dt s).kept :=
  coreRow_kept _ _ _ _ (brEff_kept) dt c w s

theorem execLoop_kept (dt c : Nat) (w : DWord) (s : State) : ∃ t, execLoop dt c w s = .next t ∧ t.kept = (advance dt s).kept :=
  coreRow_kept _ _ _ _ (loopEff_kept) dt c w s

theorem execTbrd_kept (dt c : Nat) (w : DWord) (s : State) : ∃ t, execTbrd dt c w s = .next t ∧ t.kept = (advance dt s).kept :=
  coreRow_kept _ _ _ _ (tbrdEff_kept) dt c w s

theorem execGset_kept (dt c : Nat) (w : DWord) (s : State) : ∃ t, execGset dt c w s = .next t ∧ t.kept = (advance dt s).kept :=
  coreRow_kept _ _ _ _ (gsetEff_kept) dt c w s

theorem execHalt_kept (dt c : Nat) (w : DWord) (s : State) : ∃ t, execHalt dt c w s = .next t ∧ t.kept = (advance dt s).kept :=
  coreRow_kept _ _ _ _ (haltEff_kept) dt c w s

theorem ldEff_kept  (c n : Nat) (s : State) : EffKept (ldEff  c n s) s.kept := by
  unfold ldEff
  repeat' (first | exact effKept_illegal _ | exact effKept_badAddress _ | exact effKept_error _ _ | with_reducible rfl | with_reducible assumption | (intro _ _) | with_reducible refine effKept_step ?_ | with_reducible refine effKept_jump _ ?_ | with_reducible refine effKept_stay ?_ | with_reducible refine effKept_pure_step ?_ | with_reducible refine effKept_pure_jump _ ?_ | with_reducible refine effKept_pure_stay ?_ | with_reducible refine effKept_bind ?_ | simp only [kept_mk, kept_fold, kept_ite, snd_ite, ite_self, setX_kept] | (simp only [draw]) | split | (with_reducible refine kept_foldl _ _ ?_ ?_))

theorem stEff_kept  (c n : Nat) (s : State) : EffKept (stEff  c n s) s.kept := by
  unfold stEff
  repeat' (first | exact effKept_illegal _ | exact effKept_badAddress _ | exact effKept_error _ _ | with_reducible rfl | with_reducible assumption | (intro _ _) | with_reducible refine effKept_step ?_ | with_reducible refine effKept_jump _ ?_ | with_reducible refine effKept_stay ?_ | with_reducible refine effKept_pure_step ?_ | with_reducible refine effKept_pure_jump _ ?_ | with_reducible refine effKept_pure_stay ?_ | with_reducible refine effKept_bind ?_ | simp only [kept_mk, kept_fold, kept_ite, snd_ite, ite_self, writeLoc_kept] | (simp only [draw]) | split | (with_reducible refine kept_foldl _ _ ?_ ?_))

theorem ldvEff_kept  (c n : Nat) (s : State) : EffKept (ldvEff  c n s) s.kept := by
  unfold ldvEff
  repeat' (first | exact effKept_illegal _ | exact effKept_badAddress _ | exact effKept_error _ _ | with_reducible rfl | with_reducible assumption | (intro _ _) | with_reducible refine effKept_step ?_ | with_reducible refine effKept_jump _ ?_ | with_reducible refine effKept_stay ?_ | with_reducible refine effKept_pure_step ?_ | with_reducible refine effKept_pure_jump _ ?_ | with_reducible refine effKept_pure_stay ?_ | with_reducible refine effKept_bind ?_ | simp only [kept_mk, kept_fold, kept_ite, snd_ite, ite_self, setV_kept] | (simp only [draw]) | split | (with_reducible refine kept_foldl _ _ ?_ ?_))

theorem stvEff_kept  (c n : Nat) (s : State) : EffKept (stvEff  c n s) s.kept := by
  unfold stvEff
  repeat' (first | exact effKept_illegal _ | exact effKept_badAddress _ | exact effKept_error _ _ | with_reducible rfl | with_reducible assumption | (intro _ _) | with_reducible refine effKept_step ?_ | with_reducible refine effKept_jump _ ?_ | with_reducible refine effKept_stay ?_ | with_reducible refine effKept_pure_step ?_ | with_reducible refine effKept_pure_jump _ ?_ | with_reducible refine effKept_pure_stay ?_ | with_reducible refine effKept_bind ?_ | simp only [kept_mk, kept_fold, kept_ite, snd_ite, ite_self, writeLoc_kept] | (simp only [draw]) | split | (with_reducible refine kept_foldl _ _ ?_ ?_))

theorem ldvcEff_kept  (c n : Nat) (s : State) : EffKept (ldvcEff  c n s) s.kept := by
  unfold ldvcEff
  repeat' (first | exact effKept_illegal _ | exact effKept_badAddress _ | exact effKept_error _ _ | with_reducible rfl | with_reducible assumption | (intro _ _) | with_reducible refine effKept_step ?_ | with_reducible refine effKept_jump _ ?_ | with_reducible refine effKept_stay ?_ | with_reducible refine effKept_pure_step ?_ | with_reducible refine effKept_pure_jump _ ?_ | with_reducible refine effKept_pure_stay ?_ | with_reducible refine effKept_bind ?_ | simp only [kept_mk, kept_fold, kept_ite, snd_ite, ite_self, setV_kept] | (simp only [draw]) | split | (with_reducible refine kept_foldl _ _ ?_ ?_))

theorem stvcEff_kept  (c n : Nat) (s : State) : EffKept (stvcEff  c n s) s.kept := by
  unfold stvcEff
  repeat' (first | exact effKept_illegal _ | exact effKept_badAddress _ | exact effKept_error _ _ | with_reducible rfl | with_reducible assumption | (intro _ _) | with_reducible refine effKept_step ?_ | with_reducible refine effKept_jump _ ?_ | with_reducible refine effKept_stay ?_ | with_reducible refine effKept_pure_step ?_ | with_reducible refine effKept_pure_jump _ ?_ | with_reducible refine effKept_pure_stay ?_ | with_reducible refine effKept_bind ?_ | simp only [kept_mk, kept_fold, kept_ite, snd_ite, ite_self, countEvents_kept, writeLoc_kept] | (simp only [draw]) | split | (with_reducible refine kept_foldl _ _ ?_ ?_))

theorem execLd_kept (dt c : Nat) (w : DWord) (s : State) : ∃ t, execLd dt c w s = .next t ∧ t.kept = (advance dt s).kept :=
  coreRow_kept _ _ _ _ (ldEff_kept) dt c w s

theorem execSt_kept (dt c : Nat) (w : DWord) (s : State) : ∃ t, execSt dt c w s = .next t ∧ t.kept = (advance dt s).kept :=
  coreRow_kept _ _ _ _ (stEff_kept) dt c w s

theorem execLdv_kept (dt c : Nat) (w : DWord) (s : State) : ∃ t, execLdv dt c w s = .next t ∧ t.kept = (advance dt s).kept :=
  coreRow_kept _ _ _ _ (ldvEff_kept) dt c w s

theorem execStv_kept (dt c : Nat) (w : DWord) (s : State) : ∃ t, execStv dt c w s = .next t ∧ t.kept = (advance dt s).kept :=
  coreRow_kept _ _ _ _ (stvEff_kept) dt c w s

theorem execLdvc_kept (dt c : Nat) (w : DWord) (s : State) : ∃ t, execLdvc dt c w s = .next t ∧ t.kept = (advance dt s).kept :=
  coreRow_kept _ _ _ _ (ldvcEff_kept) dt c w s

theorem execStvc_kept (dt c : Nat) (w : DWord) (s : State) : ∃ t, execStvc dt c w s = .next t ∧ t.kept = (advance dt s).kept :=
  coreRow_kept _ _ _ _ (stvcEff_kept) dt c w s

theorem dmaEff_kept  (c n : Nat) (s : State) : EffKept (dmaEff  c n s) s.kept := by
  unfold dmaEff
  repeat' (first | exact effKept_illegal _ | exact effKept_badAddress _ | exact effKept_error _ _ | with_reducible rfl | with_reducible assumption | (intro _ _) | with_reducible refine effKept_step ?_ | with_reducible refine effKept_jump _ ?_ | with_reducible refine effKept_stay ?_ | with_reducible refine effKept_pure_step ?_ | with_reducible refine effKept_pure_jump _ ?_ | with_reducible refine effKept_pure_stay ?_ | with_reducible refine effKept_bind ?_ | simp only [kept_mk, kept_fold, kept_ite, snd_ite, ite_self, modRegs_kept] | (simp only [draw]) | split | (with_reducible refine kept_foldl _ _ ?_ ?_))

theorem execDma_kept (dt c : Nat) (w : DWord) (s : State) : ∃ t, execDma dt c w s = .next t ∧ t.kept = (advance dt s).kept :=
  coreRow_kept _ _ _ _ (dmaEff_kept) dt c w s

theorem dmaPut_kept (l : Option Loc) (a : Nat) (p : Bytes) (s : State) : (dmaPut l a p s).kept = s.kept := by
  unfold dmaPut
  repeat' (first | with_reducible rfl | with_reducible assumption | (intro _ _) | (intro _) | exact trivial | simp only [kept_mk, kept_fold, kept_ite, ite_self, writeLoc_kept] | split | with_reducible refine kept_foldl _ _ ?_ ?_)

theorem dmaMove_kept (job c : Nat) (x : DmaXfer) (upto : Nat) (s t : State) (h : dmaMove job c x upto s = .ok t) : t.kept = s.kept := by
  unfold dmaMove at h
  revert h
  generalize List.filter _ _ = l
  induction l generalizing s with
  | nil => intro h; cases h; rfl
  | cons i l ih =>
    intro h
    rw [List.foldlM_cons] at h
    simp only [bind, Except.bind] at h
    split at h
    · cases h
    · rename_i u hu
      rw [ih u h]
      split at hu
      · cases hu
      · split at hu
        · cases hu
        · cases hu; exact dmaPut_kept _ _ _ _

theorem execDmaComplete_kept (dt core entry : Nat) (s : State) : ∃ t, execDmaComplete dt core entry s = .next t ∧ t.kept = (advance dt s).kept := by
  unfold execDmaComplete
  refine ⟨_, rfl, ?_⟩
  generalize advance dt s = s
  simp only
  split
  · rfl
  · split
    · rfl
    · split
      · rename_i h
        have := dmaMove_kept _ _ _ _ _ _ h
        split <;> simp only [signalAndTake_kept, modRegs_kept, this]
      · exact touchSram_kept _ _
      · rfl

end Sys2Proof.Machine
end

