-- ==== Sys2Proof/Laws/KeptArray.lean ====
section
/-! SUPPORT. What Array.lean keeps. -/
set_option linter.unusedSimpArgs false
set_option linter.unusedVariables false
set_option linter.unusedTactic false
set_option linter.unreachableTactic false
namespace Sys2Proof.Machine

theorem macRun_kept (c t : Nat) (zeroed : Bool) (m : Mac) (g : Nat) (o : State → Operands) (lo hi : Nat) (s : State) : (macRun c t zeroed m g o lo hi s).kept = s.kept := by
  unfold macRun
  repeat' (first | with_reducible rfl | with_reducible assumption | (intro _ _) | (intro _) | exact trivial | simp only [kept_mk, kept_fold, kept_ite, ite_self, countEvents_kept, setTile_kept] | split | with_reducible refine kept_foldl _ _ ?_ ?_)

theorem matrixLong_kept (op : Nat) (c n : Nat) (x : List Word) (g : Nat) (lo hi : Nat) (s : State) : ((matrixLong op c n x g).run lo hi s).kept = s.kept := by
  unfold matrixLong
  repeat' (first | with_reducible rfl | with_reducible assumption | (intro _ _) | (intro _) | simp only [kept_mk, kept_fold, kept_ite, snd_ite, ite_self, macRun_kept] | split | with_reducible refine kept_foldl _ _ ?_ ?_)

theorem matrixEff_kept (op : Nat) (c n : Nat) (s : State) : EffKept (matrixEff op c n s) s.kept := by
  unfold matrixEff
  repeat' (first | exact effKept_illegal _ | exact effKept_badAddress _ | exact effKept_error _ _ | with_reducible rfl | with_reducible assumption | (intro _ _) | with_reducible refine effKept_step ?_ | with_reducible refine effKept_jump _ ?_ | with_reducible refine effKept_stay ?_ | with_reducible refine effKept_pure_step ?_ | with_reducible refine effKept_pure_jump _ ?_ | with_reducible refine effKept_pure_stay ?_ | with_reducible refine effKept_bind ?_ | simp only [kept_mk, kept_fold, kept_ite, snd_ite, ite_self, matrixLong_kept] | (simp only [draw]) | split | (with_reducible refine kept_foldl _ _ ?_ ?_))

theorem tloadLong_kept (c n : Nat) (x : List Word) (lo hi : Nat) (s : State) : ((tloadLong c n x).run lo hi s).kept = s.kept := by
  unfold tloadLong
  repeat' (first | with_reducible rfl | with_reducible assumption | (intro _ _) | (intro _) | simp only [kept_mk, kept_fold, kept_ite, snd_ite, ite_self, setTile_kept] | split | with_reducible refine kept_foldl _ _ ?_ ?_)

theorem tloadEff_kept  (c n : Nat) (s : State) : EffKept (tloadEff  c n s) s.kept := by
  unfold tloadEff
  repeat' (first | exact effKept_illegal _ | exact effKept_badAddress _ | exact effKept_error _ _ | with_reducible rfl | with_reducible assumption | (intro _ _) | with_reducible refine effKept_step ?_ | with_reducible refine effKept_jump _ ?_ | with_reducible refine effKept_stay ?_ | with_reducible refine effKept_pure_step ?_ | with_reducible refine effKept_pure_jump _ ?_ | with_reducible refine effKept_pure_stay ?_ | with_reducible refine effKept_bind ?_ | simp only [kept_mk, kept_fold, kept_ite, snd_ite, ite_self, tloadLong_kept] | (simp only [draw]) | split | (with_reducible refine kept_foldl _ _ ?_ ?_))

theorem execMmI8_kept (dt c : Nat) (w : DWord) (s : State) : ∃ t, execMmI8 dt c w s = .next t ∧ t.kept = (advance dt s).kept :=
  coreRow_kept _ _ _ _ (matrixEff_kept _) dt c w s

theorem execMmE4_kept (dt c : Nat) (w : DWord) (s : State) : ∃ t, execMmE4 dt c w s = .next t ∧ t.kept = (advance dt s).kept :=
  coreRow_kept _ _ _ _ (matrixEff_kept _) dt c w s

theorem execMmE5_kept (dt c : Nat) (w : DWord) (s : State) : ∃ t, execMmE5 dt c w s = .next t ∧ t.kept = (advance dt s).kept :=
  coreRow_kept _ _ _ _ (matrixEff_kept _) dt c w s

theorem execMmBf_kept (dt c : Nat) (w : DWord) (s : State) : ∃ t, execMmBf dt c w s = .next t ∧ t.kept = (advance dt s).kept :=
  coreRow_kept _ _ _ _ (matrixEff_kept _) dt c w s

theorem execMmtI8_kept (dt c : Nat) (w : DWord) (s : State) : ∃ t, execMmtI8 dt c w s = .next t ∧ t.kept = (advance dt s).kept :=
  coreRow_kept _ _ _ _ (matrixEff_kept _) dt c w s

theorem execMmtE4_kept (dt c : Nat) (w : DWord) (s : State) : ∃ t, execMmtE4 dt c w s = .next t ∧ t.kept = (advance dt s).kept :=
  coreRow_kept _ _ _ _ (matrixEff_kept _) dt c w s

theorem execTload_kept (dt c : Nat) (w : DWord) (s : State) : ∃ t, execTload dt c w s = .next t ∧ t.kept = (advance dt s).kept :=
  coreRow_kept _ _ _ _ (tloadEff_kept) dt c w s

end Sys2Proof.Machine
end

