-- ==== Sys2Proof/Laws/KeptVector.lean ====
section
/-! SUPPORT. What Vector.lean keeps. -/
set_option linter.unusedSimpArgs false
set_option linter.unusedVariables false
set_option linter.unusedTactic false
set_option linter.unreachableTactic false
namespace Sys2Proof.Machine

theorem freeLanes_kept (s : State) : (freeLanes s).2.kept = s.kept := by
  unfold freeLanes
  repeat' (first | with_reducible rfl | with_reducible assumption | (intro _ _) | (intro _) | exact trivial | simp only [kept_mk, kept_fold, kept_ite, snd_ite, ite_self] | split | with_reducible refine kept_foldl _ _ ?_ ?_)

theorem vectorEff_kept (op : Nat) (c n : Nat) (s : State) : EffKept (vectorEff op c n s) s.kept := by
  unfold vectorEff
  repeat' (first | exact effKept_illegal _ | exact effKept_badAddress _ | exact effKept_error _ _ | with_reducible rfl | with_reducible assumption | (intro _ _) | with_reducible refine effKept_step ?_ | with_reducible refine effKept_jump _ ?_ | with_reducible refine effKept_stay ?_ | with_reducible refine effKept_pure_step ?_ | with_reducible refine effKept_pure_jump _ ?_ | with_reducible refine effKept_pure_stay ?_ | with_reducible refine effKept_bind ?_ | simp only [kept_mk, kept_fold, kept_ite, snd_ite, ite_self, freeLanes_kept, setV_kept] | (simp only [draw]) | split | (with_reducible refine kept_foldl _ _ ?_ ?_))

theorem reduceEff_kept (isMax : Bool) (c n : Nat) (s : State) : EffKept (reduceEff isMax c n s) s.kept := by
  unfold reduceEff
  repeat' (first | exact effKept_illegal _ | exact effKept_badAddress _ | exact effKept_error _ _ | with_reducible rfl | with_reducible assumption | (intro _ _) | with_reducible refine effKept_step ?_ | with_reducible refine effKept_jump _ ?_ | with_reducible refine effKept_stay ?_ | with_reducible refine effKept_pure_step ?_ | with_reducible refine effKept_pure_jump _ ?_ | with_reducible refine effKept_pure_stay ?_ | with_reducible refine effKept_bind ?_ | simp only [kept_mk, kept_fold, kept_ite, snd_ite, ite_self, setV_kept] | (simp only [draw]) | split | (with_reducible refine kept_foldl _ _ ?_ ?_))

theorem cvtEff_kept  (c n : Nat) (s : State) : EffKept (cvtEff  c n s) s.kept := by
  unfold cvtEff
  repeat' (first | exact effKept_illegal _ | exact effKept_badAddress _ | exact effKept_error _ _ | with_reducible rfl | with_reducible assumption | (intro _ _) | with_reducible refine effKept_step ?_ | with_reducible refine effKept_jump _ ?_ | with_reducible refine effKept_stay ?_ | with_reducible refine effKept_pure_step ?_ | with_reducible refine effKept_pure_jump _ ?_ | with_reducible refine effKept_pure_stay ?_ | with_reducible refine effKept_bind ?_ | simp only [kept_mk, kept_fold, kept_ite, snd_ite, ite_self, countEvents_kept, setV_kept] | (simp only [draw]) | split | (with_reducible refine kept_foldl _ _ ?_ ?_))

theorem execVectorAdd_kept (dt c : Nat) (w : DWord) (s : State) : ∃ t, execVectorAdd dt c w s = .next t ∧ t.kept = (advance dt s).kept :=
  coreRow_kept _ _ _ _ (vectorEff_kept _) dt c w s

theorem execVectorMul_kept (dt c : Nat) (w : DWord) (s : State) : ∃ t, execVectorMul dt c w s = .next t ∧ t.kept = (advance dt s).kept :=
  coreRow_kept _ _ _ _ (vectorEff_kept _) dt c w s

theorem execFma_kept (dt c : Nat) (w : DWord) (s : State) : ∃ t, execFma dt c w s = .next t ∧ t.kept = (advance dt s).kept :=
  coreRow_kept _ _ _ _ (vectorEff_kept _) dt c w s

theorem execVectorMax_kept (dt c : Nat) (w : DWord) (s : State) : ∃ t, execVectorMax dt c w s = .next t ∧ t.kept = (advance dt s).kept :=
  coreRow_kept _ _ _ _ (vectorEff_kept _) dt c w s

theorem execVectorMin_kept (dt c : Nat) (w : DWord) (s : State) : ∃ t, execVectorMin dt c w s = .next t ∧ t.kept = (advance dt s).kept :=
  coreRow_kept _ _ _ _ (vectorEff_kept _) dt c w s

theorem execExp_kept (dt c : Nat) (w : DWord) (s : State) : ∃ t, execExp dt c w s = .next t ∧ t.kept = (advance dt s).kept :=
  coreRow_kept _ _ _ _ (vectorEff_kept _) dt c w s

theorem execRcp_kept (dt c : Nat) (w : DWord) (s : State) : ∃ t, execRcp dt c w s = .next t ∧ t.kept = (advance dt s).kept :=
  coreRow_kept _ _ _ _ (vectorEff_kept _) dt c w s

theorem execRsqrt_kept (dt c : Nat) (w : DWord) (s : State) : ∃ t, execRsqrt dt c w s = .next t ∧ t.kept = (advance dt s).kept :=
  coreRow_kept _ _ _ _ (vectorEff_kept _) dt c w s

theorem execRsum_kept (dt c : Nat) (w : DWord) (s : State) : ∃ t, execRsum dt c w s = .next t ∧ t.kept = (advance dt s).kept :=
  coreRow_kept _ _ _ _ (reduceEff_kept _) dt c w s

theorem execRmax_kept (dt c : Nat) (w : DWord) (s : State) : ∃ t, execRmax dt c w s = .next t ∧ t.kept = (advance dt s).kept :=
  coreRow_kept _ _ _ _ (reduceEff_kept _) dt c w s

theorem execCvt_kept (dt c : Nat) (w : DWord) (s : State) : ∃ t, execCvt dt c w s = .next t ∧ t.kept = (advance dt s).kept :=
  coreRow_kept _ _ _ _ (cvtEff_kept) dt c w s

theorem modQp_kept (n : Nat) (f : Qp → Qp) (s : State) : (modQp n f s).kept = s.kept := by
  unfold modQp
  repeat' (first | with_reducible rfl | with_reducible assumption | (intro _ _) | (intro _) | exact trivial | simp only [kept_mk, kept_fold, kept_ite, ite_self] | split | with_reducible refine kept_foldl _ _ ?_ ?_)

theorem readQp_kept (n k : Nat) (s : State) : (readQp n k s).2.kept = s.kept := by
  unfold readQp
  repeat' (first | with_reducible rfl | with_reducible assumption | (intro _ _) | (intro _) | exact trivial | simp only [kept_mk, kept_fold, kept_ite, snd_ite, ite_self, modQp_kept] | split | with_reducible refine kept_foldl _ _ ?_ ?_)

theorem qpReport_kept (n ev k : Nat) (old new : Int) (q : Qp) (s : State) : (qpReport n ev k old new q s).kept = s.kept := by
  unfold qpReport
  repeat' (first | with_reducible rfl | with_reducible assumption | (intro _ _) | (intro _) | exact trivial | simp only [kept_mk, kept_fold, kept_ite, ite_self, post_kept] | split | with_reducible refine kept_foldl _ _ ?_ ?_)

theorem fold_kept (n k : Nat) (s : State) : (fold n k s).kept = s.kept := by
  unfold fold
  repeat' (first | with_reducible rfl | with_reducible assumption | (intro _ _) | (intro _) | exact trivial | simp only [kept_mk, kept_fold, kept_ite, ite_self, modQp_kept, qpReport_kept] | split | with_reducible refine kept_foldl _ _ ?_ ?_)

theorem foldAll_kept (j k : Nat) (s : State) : (foldAll j k s).kept = s.kept := by
  unfold foldAll
  repeat' (first | with_reducible rfl | with_reducible assumption | (intro _ _) | (intro _) | exact trivial | simp only [kept_mk, kept_fold, kept_ite, ite_self, fold_kept] | split | with_reducible refine kept_foldl _ _ ?_ ?_)

theorem countQp_kept (n elems clips nans highs : Nat) (s : State) : (countQp n elems clips nans highs s).kept = s.kept := by
  unfold countQp
  repeat' (first | with_reducible rfl | with_reducible assumption | (intro _ _) | (intro _) | exact trivial | simp only [kept_mk, kept_fold, kept_ite, ite_self, modQp_kept] | split | with_reducible refine kept_foldl _ _ ?_ ?_)

theorem qpQueryBody_kept (p : Packet) (s : State) : ((qpQueryBody p s).after s).kept = s.kept := by
  unfold qpQueryBody
  repeat' (first | with_reducible rfl | with_reducible assumption | (intro _ _) | (intro _) | exact trivial | simp only [after_ok, after_refuse, after_refuseWith, after_ite, kept_mk, kept_fold, kept_ite, ite_self] | split | with_reducible refine kept_foldl _ _ ?_ ?_)

theorem qpSetBody_kept (p : Packet) (s : State) : ((qpSetBody p s).after s).kept = s.kept := by
  unfold qpSetBody
  repeat' (first | with_reducible rfl | with_reducible assumption | (intro _ _) | (intro _) | exact trivial | simp only [after_ok, after_refuse, after_refuseWith, after_ite, kept_mk, kept_fold, kept_ite, ite_self, modQp_kept] | split | with_reducible refine kept_foldl _ _ ?_ ?_)

theorem execQpQuery_kept (dt : Nat) (h : Hdr) (p : Bytes) (s : State) : ∃ t, execQpQuery dt h p s = .next t ∧ t.kept = (advance dt s).kept :=
  hostRow_kept _ _ (fun p s => qpQueryBody_kept p s) dt h p s

theorem execQpSet_kept (dt : Nat) (h : Hdr) (p : Bytes) (s : State) : ∃ t, execQpSet dt h p s = .next t ∧ t.kept = (advance dt s).kept :=
  hostRow_kept _ _ (fun p s => qpSetBody_kept p s) dt h p s

theorem drainAdj_kept (c outFmt : Nat) (b : ScaleBlock) (first : Bool) (s : State) : (drainAdj c outFmt b first s).2.2.kept = s.kept := by
  unfold drainAdj
  repeat' (first | with_reducible rfl | with_reducible assumption | (intro _ _) | (intro _) | exact trivial | simp only [kept_mk, kept_fold, kept_ite, snd_ite, ite_self, readQp_kept] | split | with_reducible refine kept_foldl _ _ ?_ ?_)

theorem drainCounts_kept (outFmt : Nat) (b : ScaleBlock) (u : Nat → Nat → Fp) (s : State) : (drainCounts outFmt b u s).kept = s.kept := by
  unfold drainCounts
  repeat' (first | with_reducible rfl | with_reducible assumption | (intro _ _) | (intro _) | exact trivial | simp only [kept_mk, kept_fold, kept_ite, ite_self, countQp_kept] | split | with_reducible refine kept_foldl _ _ ?_ ?_)

theorem clearTile_kept (c t : Nat) (s : State) : (clearTile c t s).kept = s.kept := by
  unfold clearTile
  repeat' (first | with_reducible rfl | with_reducible assumption | (intro _ _) | (intro _) | exact trivial | simp only [kept_mk, kept_fold, kept_ite, ite_self, setTile_kept] | split | with_reducible refine kept_foldl _ _ ?_ ?_)

theorem drainLong_kept (c n : Nat) (x : List Word) (lo hi : Nat) (s : State) : ((drainLong c n x).run lo hi s).kept = s.kept := by
  unfold drainLong
  repeat' (first | with_reducible rfl | with_reducible assumption | (intro _ _) | (intro _) | simp only [kept_mk, kept_fold, kept_ite, snd_ite, ite_self, drainAdj_kept, ownWrite_kept, countEvents_kept, drainCounts_kept, clearTile_kept] | split | with_reducible refine kept_foldl _ _ ?_ ?_)

theorem drainEff_kept  (c n : Nat) (s : State) : EffKept (drainEff  c n s) s.kept := by
  unfold drainEff
  repeat' (first | exact effKept_illegal _ | exact effKept_badAddress _ | exact effKept_error _ _ | with_reducible rfl | with_reducible assumption | (intro _ _) | with_reducible refine effKept_step ?_ | with_reducible refine effKept_jump _ ?_ | with_reducible refine effKept_stay ?_ | with_reducible refine effKept_pure_step ?_ | with_reducible refine effKept_pure_jump _ ?_ | with_reducible refine effKept_pure_stay ?_ | with_reducible refine effKept_bind ?_ | simp only [kept_mk, kept_fold, kept_ite, snd_ite, ite_self, drainLong_kept] | (simp only [draw]) | split | (with_reducible refine kept_foldl _ _ ?_ ?_))

theorem execDrain_kept (dt c : Nat) (w : DWord) (s : State) : ∃ t, execDrain dt c w s = .next t ∧ t.kept = (advance dt s).kept :=
  coreRow_kept _ _ _ _ (drainEff_kept) dt c w s

end Sys2Proof.Machine
end

