-- ==== Sys2Proof/Laws/KeptWindow.lean ====
section
/-! SUPPORT. What Window.lean keeps. -/
set_option linter.unusedSimpArgs false
set_option linter.unusedVariables false
set_option linter.unusedTactic false
set_option linter.unreachableTactic false
namespace Sys2Proof.Machine

theorem windowLong_kept (op : Nat) (c n : Nat) (x : List Word) (g : Nat) (lo hi : Nat) (s : State) : ((windowLong op c n x g).run lo hi s).kept = s.kept := by
  unfold windowLong
  repeat' (first | with_reducible rfl | with_reducible assumption | (intro _ _) | (intro _) | simp only [kept_mk, kept_fold, kept_ite, snd_ite, ite_self, macRun_kept] | split | with_reducible refine kept_foldl _ _ ?_ ?_)

theorem windowEff_kept (op : Nat) (c n : Nat) (s : State) : EffKept (windowEff op c n s) s.kept := by
  unfold windowEff
  repeat' (first | exact effKept_illegal _ | exact effKept_badAddress _ | exact effKept_error _ _ | with_reducible rfl | with_reducible assumption | (intro _ _) | with_reducible refine effKept_step ?_ | with_reducible refine effKept_jump _ ?_ | with_reducible refine effKept_stay ?_ | with_reducible refine effKept_pure_step ?_ | with_reducible refine effKept_pure_jump _ ?_ | with_reducible refine effKept_pure_stay ?_ | with_reducible refine effKept_bind ?_ | simp only [kept_mk, kept_fold, kept_ite, snd_ite, ite_self, windowLong_kept] | (simp only [draw]) | split | (with_reducible refine kept_foldl _ _ ?_ ?_))

theorem execWmmI8_kept (dt c : Nat) (w : DWord) (s : State) : ∃ t, execWmmI8 dt c w s = .next t ∧ t.kept = (advance dt s).kept :=
  coreRow_kept _ _ _ _ (windowEff_kept _) dt c w s

theorem execWmmE4_kept (dt c : Nat) (w : DWord) (s : State) : ∃ t, execWmmE4 dt c w s = .next t ∧ t.kept = (advance dt s).kept :=
  coreRow_kept _ _ _ _ (windowEff_kept _) dt c w s

theorem execWmmE5_kept (dt c : Nat) (w : DWord) (s : State) : ∃ t, execWmmE5 dt c w s = .next t ∧ t.kept = (advance dt s).kept :=
  coreRow_kept _ _ _ _ (windowEff_kept _) dt c w s

theorem execWmmBf_kept (dt c : Nat) (w : DWord) (s : State) : ∃ t, execWmmBf dt c w s = .next t ∧ t.kept = (advance dt s).kept :=
  coreRow_kept _ _ _ _ (windowEff_kept _) dt c w s

theorem execWmmtI8_kept (dt c : Nat) (w : DWord) (s : State) : ∃ t, execWmmtI8 dt c w s = .next t ∧ t.kept = (advance dt s).kept :=
  coreRow_kept _ _ _ _ (windowEff_kept _) dt c w s

theorem execWmmtE4_kept (dt c : Nat) (w : DWord) (s : State) : ∃ t, execWmmtE4 dt c w s = .next t ∧ t.kept = (advance dt s).kept :=
  coreRow_kept _ _ _ _ (windowEff_kept _) dt c w s

theorem putRows_kept (c : Nat) (t : Tensor) (p0 c0 lo : Nat) (rows : List (List Nat)) (s : State) : (putRows c t p0 c0 lo rows s).kept = s.kept := by
  unfold putRows
  repeat' (first | with_reducible rfl | with_reducible assumption | (intro _ _) | (intro _) | exact trivial | simp only [kept_mk, kept_fold, kept_ite, ite_self, ownWrite_kept] | split | with_reducible refine kept_foldl _ _ ?_ ?_)

theorem wdrainLong_kept (c n : Nat) (x : List Word) (lo hi : Nat) (s : State) : ((wdrainLong c n x).run lo hi s).kept = s.kept := by
  unfold wdrainLong
  repeat' (first | with_reducible rfl | with_reducible assumption | (intro _ _) | (intro _) | simp only [kept_mk, kept_fold, kept_ite, snd_ite, ite_self, drainAdj_kept, putRows_kept, countEvents_kept, setX_kept, ownWrite_kept, drainCounts_kept, clearTile_kept] | split | with_reducible refine kept_foldl _ _ ?_ ?_)

theorem wdrainEff_kept  (c n : Nat) (s : State) : EffKept (wdrainEff  c n s) s.kept := by
  unfold wdrainEff
  repeat' (first | exact effKept_illegal _ | exact effKept_badAddress _ | exact effKept_error _ _ | with_reducible rfl | with_reducible assumption | (intro _ _) | with_reducible refine effKept_step ?_ | with_reducible refine effKept_jump _ ?_ | with_reducible refine effKept_stay ?_ | with_reducible refine effKept_pure_step ?_ | with_reducible refine effKept_pure_jump _ ?_ | with_reducible refine effKept_pure_stay ?_ | with_reducible refine effKept_bind ?_ | simp only [kept_mk, kept_fold, kept_ite, snd_ite, ite_self, wdrainLong_kept] | (simp only [draw]) | split | (with_reducible refine kept_foldl _ _ ?_ ?_))

theorem execWdrain_kept (dt c : Nat) (w : DWord) (s : State) : ∃ t, execWdrain dt c w s = .next t ∧ t.kept = (advance dt s).kept :=
  coreRow_kept _ _ _ _ (wdrainEff_kept) dt c w s

theorem wpoolLong_kept (c n : Nat) (x : List Word) (s0 : State) (lo hi : Nat) (s : State) : ((wpoolLong c n x s0).run lo hi s).kept = s.kept := by
  unfold wpoolLong
  repeat' (first | with_reducible rfl | with_reducible assumption | (intro _ _) | (intro _) | simp only [kept_mk, kept_fold, kept_ite, snd_ite, ite_self, setTile_kept] | split | with_reducible refine kept_foldl _ _ ?_ ?_)

theorem wpoolEff_kept  (c n : Nat) (s : State) : EffKept (wpoolEff  c n s) s.kept := by
  unfold wpoolEff
  repeat' (first | exact effKept_illegal _ | exact effKept_badAddress _ | exact effKept_error _ _ | with_reducible rfl | with_reducible assumption | (intro _ _) | with_reducible refine effKept_step ?_ | with_reducible refine effKept_jump _ ?_ | with_reducible refine effKept_stay ?_ | with_reducible refine effKept_pure_step ?_ | with_reducible refine effKept_pure_jump _ ?_ | with_reducible refine effKept_pure_stay ?_ | with_reducible refine effKept_bind ?_ | simp only [kept_mk, kept_fold, kept_ite, snd_ite, ite_self, wpoolLong_kept] | (simp only [draw]) | split | (with_reducible refine kept_foldl _ _ ?_ ?_))

theorem wresLong_kept (c n : Nat) (x : List Word) (s0 : State) (lo hi : Nat) (s : State) : ((wresLong c n x s0).run lo hi s).kept = s.kept := by
  unfold wresLong
  repeat' (first | with_reducible rfl | with_reducible assumption | (intro _ _) | (intro _) | simp only [kept_mk, kept_fold, kept_ite, snd_ite, ite_self, setTile_kept] | split | with_reducible refine kept_foldl _ _ ?_ ?_)

theorem wresEff_kept  (c n : Nat) (s : State) : EffKept (wresEff  c n s) s.kept := by
  unfold wresEff
  repeat' (first | exact effKept_illegal _ | exact effKept_badAddress _ | exact effKept_error _ _ | with_reducible rfl | with_reducible assumption | (intro _ _) | with_reducible refine effKept_step ?_ | with_reducible refine effKept_jump _ ?_ | with_reducible refine effKept_stay ?_ | with_reducible refine effKept_pure_step ?_ | with_reducible refine effKept_pure_jump _ ?_ | with_reducible refine effKept_pure_stay ?_ | with_reducible refine effKept_bind ?_ | simp only [kept_mk, kept_fold, kept_ite, snd_ite, ite_self, wresLong_kept] | (simp only [draw]) | split | (with_reducible refine kept_foldl _ _ ?_ ?_))

theorem execWpool_kept (dt c : Nat) (w : DWord) (s : State) : ∃ t, execWpool dt c w s = .next t ∧ t.kept = (advance dt s).kept :=
  coreRow_kept _ _ _ _ (wpoolEff_kept) dt c w s

theorem execWres_kept (dt c : Nat) (w : DWord) (s : State) : ∃ t, execWres dt c w s = .next t ∧ t.kept = (advance dt s).kept :=
  coreRow_kept _ _ _ _ (wresEff_kept) dt c w s

theorem wunzEff_kept  (c n : Nat) (s : State) : EffKept (wunzEff  c n s) s.kept := by
  unfold wunzEff
  repeat' (first | exact effKept_illegal _ | exact effKept_badAddress _ | exact effKept_error _ _ | with_reducible rfl | with_reducible assumption | (intro _ _) | with_reducible refine effKept_step ?_ | with_reducible refine effKept_jump _ ?_ | with_reducible refine effKept_stay ?_ | with_reducible refine effKept_pure_step ?_ | with_reducible refine effKept_pure_jump _ ?_ | with_reducible refine effKept_pure_stay ?_ | with_reducible refine effKept_bind ?_ | simp only [kept_mk, kept_fold, kept_ite, snd_ite, ite_self, ownWrite_kept, setX_kept] | (simp only [draw]) | split | (with_reducible refine kept_foldl _ _ ?_ ?_))

theorem execWunz_kept (dt c : Nat) (w : DWord) (s : State) : ∃ t, execWunz dt c w s = .next t ∧ t.kept = (advance dt s).kept :=
  coreRow_kept _ _ _ _ (wunzEff_kept) dt c w s

end Sys2Proof.Machine
end

