-- ==== Sys2Proof/Laws/KeptSequence.lean ====
section
/-! SUPPORT. What Sequence.lean keeps. -/
set_option linter.unusedSimpArgs false
set_option linter.unusedVariables false
set_option linter.unusedTactic false
set_option linter.unreachableTactic false
namespace Sys2Proof.Machine

theorem setY_kept (c y : Nat) (v : YReg) (s : State) : (setY c y v s).kept = s.kept := by
  unfold setY
  repeat' (first | with_reducible rfl | with_reducible assumption | (intro _ _) | (intro _) | exact trivial | simp only [kept_mk, kept_fold, kept_ite, ite_self, modRegs_kept] | split | with_reducible refine kept_foldl _ _ ?_ ?_)

theorem setRow_kept (c t i : Nat) (f : Nat → Word) (s : State) : (setRow c t i f s).kept = s.kept := by
  unfold setRow
  repeat' (first | with_reducible rfl | with_reducible assumption | (intro _ _) | (intro _) | exact trivial | simp only [kept_mk, kept_fold, kept_ite, ite_self, setTile_kept] | split | with_reducible refine kept_foldl _ _ ?_ ?_)

theorem rowsFold_kept (lo hi : Nat) (f : Nat → State → State) (s : State) (hf : ∀ x0 s, (f x0 s).kept = s.kept) : (rowsFold lo hi f s).kept = s.kept := by
  unfold rowsFold
  repeat' (first | with_reducible rfl | with_reducible assumption | (intro _ _) | (intro _) | exact trivial | simp only [kept_mk, kept_fold, kept_ite, ite_self, hf] | split | with_reducible refine kept_foldl _ _ ?_ ?_)

theorem softRow_kept (c n : Nat) (x : List Word) (i : Nat) (s : State) : (softRow c n x i s).kept = s.kept := by
  unfold softRow
  repeat' (first | with_reducible rfl | with_reducible assumption | (intro _ _) | (intro _) | exact trivial | simp only [kept_mk, kept_fold, kept_ite, ite_self, setY_kept, countEvents_kept, ownWrite_kept, setRow_kept] | split | with_reducible refine kept_foldl _ _ ?_ ?_)

theorem ssoftLong_kept (c n : Nat) (x : List Word) (lo hi : Nat) (s : State) : ((ssoftLong c n x).run lo hi s).kept = s.kept := by
  unfold ssoftLong
  repeat' (first | with_reducible rfl | with_reducible assumption | (intro _ _) | (intro _) | simp only [kept_mk, kept_fold, kept_ite, snd_ite, ite_self, setTile_kept, setY_kept, rowsFold_kept, softRow_kept] | split | with_reducible refine kept_foldl _ _ ?_ ?_ | with_reducible refine Eq.trans (rowsFold_kept _ _ _ _ ?_) ?_)

theorem ssoftEff_kept  (c n : Nat) (s : State) : EffKept (ssoftEff  c n s) s.kept := by
  unfold ssoftEff
  repeat' (first | exact effKept_illegal _ | exact effKept_badAddress _ | exact effKept_error _ _ | with_reducible rfl | with_reducible assumption | (intro _ _) | with_reducible refine effKept_step ?_ | with_reducible refine effKept_jump _ ?_ | with_reducible refine effKept_stay ?_ | with_reducible refine effKept_pure_step ?_ | with_reducible refine effKept_pure_jump _ ?_ | with_reducible refine effKept_pure_stay ?_ | with_reducible refine effKept_bind ?_ | simp only [kept_mk, kept_fold, kept_ite, snd_ite, ite_self, ssoftLong_kept] | (simp only [draw]) | split | (with_reducible refine kept_foldl _ _ ?_ ?_))

theorem spvLong_kept (e4 : Bool) (c n : Nat) (x : List Word) (lo hi : Nat) (s : State) : ((spvLong e4 c n x).run lo hi s).kept = s.kept := by
  unfold spvLong
  repeat' (first | with_reducible rfl | with_reducible assumption | (intro _ _) | (intro _) | simp only [kept_mk, kept_fold, kept_ite, snd_ite, ite_self, setTile_kept] | split | with_reducible refine kept_foldl _ _ ?_ ?_)

theorem spvEff_kept (e4 : Bool) (c n : Nat) (s : State) : EffKept (spvEff e4 c n s) s.kept := by
  unfold spvEff
  repeat' (first | exact effKept_illegal _ | exact effKept_badAddress _ | exact effKept_error _ _ | with_reducible rfl | with_reducible assumption | (intro _ _) | with_reducible refine effKept_step ?_ | with_reducible refine effKept_jump _ ?_ | with_reducible refine effKept_stay ?_ | with_reducible refine effKept_pure_step ?_ | with_reducible refine effKept_pure_jump _ ?_ | with_reducible refine effKept_pure_stay ?_ | with_reducible refine effKept_bind ?_ | simp only [kept_mk, kept_fold, kept_ite, snd_ite, ite_self, spvLong_kept] | (simp only [draw]) | split | (with_reducible refine kept_foldl _ _ ?_ ?_))

theorem normRow_kept (c n : Nat) (x : List Word) (i : Nat) (s : State) : (normRow c n x i s).kept = s.kept := by
  unfold normRow
  repeat' (first | with_reducible rfl | with_reducible assumption | (intro _ _) | (intro _) | exact trivial | simp only [kept_mk, kept_fold, kept_ite, ite_self, ownWrite_kept] | split | with_reducible refine kept_foldl _ _ ?_ ?_)

theorem snormLong_kept (c n : Nat) (x : List Word) (lo hi : Nat) (s : State) : ((snormLong c n x).run lo hi s).kept = s.kept := by
  unfold snormLong
  repeat' (first | with_reducible rfl | with_reducible assumption | (intro _ _) | (intro _) | simp only [kept_mk, kept_fold, kept_ite, snd_ite, ite_self, rowsFold_kept, normRow_kept, clearTile_kept] | split | with_reducible refine kept_foldl _ _ ?_ ?_ | with_reducible refine Eq.trans (rowsFold_kept _ _ _ _ ?_) ?_)

theorem snormEff_kept  (c n : Nat) (s : State) : EffKept (snormEff  c n s) s.kept := by
  unfold snormEff
  repeat' (first | exact effKept_illegal _ | exact effKept_badAddress _ | exact effKept_error _ _ | with_reducible rfl | with_reducible assumption | (intro _ _) | with_reducible refine effKept_step ?_ | with_reducible refine effKept_jump _ ?_ | with_reducible refine effKept_stay ?_ | with_reducible refine effKept_pure_step ?_ | with_reducible refine effKept_pure_jump _ ?_ | with_reducible refine effKept_pure_stay ?_ | with_reducible refine effKept_bind ?_ | simp only [kept_mk, kept_fold, kept_ite, snd_ite, ite_self, snormLong_kept] | (simp only [draw]) | split | (with_reducible refine kept_foldl _ _ ?_ ?_))

theorem sstatEff_kept  (c n : Nat) (s : State) : EffKept (sstatEff  c n s) s.kept := by
  unfold sstatEff
  repeat' (first | exact effKept_illegal _ | exact effKept_badAddress _ | exact effKept_error _ _ | with_reducible rfl | with_reducible assumption | (intro _ _) | with_reducible refine effKept_step ?_ | with_reducible refine effKept_jump _ ?_ | with_reducible refine effKept_stay ?_ | with_reducible refine effKept_pure_step ?_ | with_reducible refine effKept_pure_jump _ ?_ | with_reducible refine effKept_pure_stay ?_ | with_reducible refine effKept_bind ?_ | simp only [kept_mk, kept_fold, kept_ite, snd_ite, ite_self, ownWrite_kept] | (simp only [draw]) | split | (with_reducible refine kept_foldl _ _ ?_ ?_))

theorem sldstEff_kept  (c n : Nat) (s : State) : EffKept (sldstEff  c n s) s.kept := by
  unfold sldstEff
  repeat' (first | exact effKept_illegal _ | exact effKept_badAddress _ | exact effKept_error _ _ | with_reducible rfl | with_reducible assumption | (intro _ _) | with_reducible refine effKept_step ?_ | with_reducible refine effKept_jump _ ?_ | with_reducible refine effKept_stay ?_ | with_reducible refine effKept_pure_step ?_ | with_reducible refine effKept_pure_jump _ ?_ | with_reducible refine effKept_pure_stay ?_ | with_reducible refine effKept_bind ?_ | simp only [kept_mk, kept_fold, kept_ite, snd_ite, ite_self, setY_kept] | (simp only [draw]) | split | (with_reducible refine kept_foldl _ _ ?_ ?_))

theorem mergeRow_kept (c n : Nat) (x : List Word) (i : Nat) (s : State) : (mergeRow c n x i s).kept = s.kept := by
  unfold mergeRow
  repeat' (first | with_reducible rfl | with_reducible assumption | (intro _ _) | (intro _) | exact trivial | simp only [kept_mk, kept_fold, kept_ite, ite_self, setY_kept, setRow_kept] | split | with_reducible refine kept_foldl _ _ ?_ ?_)

theorem smergeLong_kept (c n : Nat) (x : List Word) (lo hi : Nat) (s : State) : ((smergeLong c n x).run lo hi s).kept = s.kept := by
  unfold smergeLong
  repeat' (first | with_reducible rfl | with_reducible assumption | (intro _ _) | (intro _) | simp only [kept_mk, kept_fold, kept_ite, snd_ite, ite_self, rowsFold_kept, mergeRow_kept] | split | with_reducible refine kept_foldl _ _ ?_ ?_ | with_reducible refine Eq.trans (rowsFold_kept _ _ _ _ ?_) ?_)

theorem smergeEff_kept  (c n : Nat) (s : State) : EffKept (smergeEff  c n s) s.kept := by
  unfold smergeEff
  repeat' (first | exact effKept_illegal _ | exact effKept_badAddress _ | exact effKept_error _ _ | with_reducible rfl | with_reducible assumption | (intro _ _) | with_reducible refine effKept_step ?_ | with_reducible refine effKept_jump _ ?_ | with_reducible refine effKept_stay ?_ | with_reducible refine effKept_pure_step ?_ | with_reducible refine effKept_pure_jump _ ?_ | with_reducible refine effKept_pure_stay ?_ | with_reducible refine effKept_bind ?_ | simp only [kept_mk, kept_fold, kept_ite, snd_ite, ite_self, smergeLong_kept] | (simp only [draw]) | split | (with_reducible refine kept_foldl _ _ ?_ ?_))

theorem sappEff_kept  (c n : Nat) (s : State) : EffKept (sappEff  c n s) s.kept := by
  unfold sappEff
  repeat' (first | exact effKept_illegal _ | exact effKept_badAddress _ | exact effKept_error _ _ | with_reducible rfl | with_reducible assumption | (intro _ _) | with_reducible refine effKept_step ?_ | with_reducible refine effKept_jump _ ?_ | with_reducible refine effKept_stay ?_ | with_reducible refine effKept_pure_step ?_ | with_reducible refine effKept_pure_jump _ ?_ | with_reducible refine effKept_pure_stay ?_ | with_reducible refine effKept_bind ?_ | simp only [kept_mk, kept_fold, kept_ite, snd_ite, ite_self, countEvents_kept, clearTile_kept, ownWrite_kept, signalAndTake_kept, modWalker_kept] | (simp only [draw]) | split | (with_reducible refine kept_foldl _ _ ?_ ?_))

theorem bwdRow_kept (c n : Nat) (x : List Word) (i : Nat) (s : State) : (bwdRow c n x i s).kept = s.kept := by
  unfold bwdRow
  repeat' (first | with_reducible rfl | with_reducible assumption | (intro _ _) | (intro _) | exact trivial | simp only [kept_mk, kept_fold, kept_ite, ite_self, ownWrite_kept] | split | with_reducible refine kept_foldl _ _ ?_ ?_)

theorem sbwdLong_kept (c n : Nat) (x : List Word) (lo hi : Nat) (s : State) : ((sbwdLong c n x).run lo hi s).kept = s.kept := by
  unfold sbwdLong
  repeat' (first | with_reducible rfl | with_reducible assumption | (intro _ _) | (intro _) | simp only [kept_mk, kept_fold, kept_ite, snd_ite, ite_self, rowsFold_kept, bwdRow_kept, clearTile_kept] | split | with_reducible refine kept_foldl _ _ ?_ ?_ | with_reducible refine Eq.trans (rowsFold_kept _ _ _ _ ?_) ?_)

theorem sbwdEff_kept  (c n : Nat) (s : State) : EffKept (sbwdEff  c n s) s.kept := by
  unfold sbwdEff
  repeat' (first | exact effKept_illegal _ | exact effKept_badAddress _ | exact effKept_error _ _ | with_reducible rfl | with_reducible assumption | (intro _ _) | with_reducible refine effKept_step ?_ | with_reducible refine effKept_jump _ ?_ | with_reducible refine effKept_stay ?_ | with_reducible refine effKept_pure_step ?_ | with_reducible refine effKept_pure_jump _ ?_ | with_reducible refine effKept_pure_stay ?_ | with_reducible refine effKept_bind ?_ | simp only [kept_mk, kept_fold, kept_ite, snd_ite, ite_self, sbwdLong_kept] | (simp only [draw]) | split | (with_reducible refine kept_foldl _ _ ?_ ?_))

theorem strnLong_kept (c n : Nat) (x : List Word) (lo hi : Nat) (s : State) : ((strnLong c n x).run lo hi s).kept = s.kept := by
  unfold strnLong
  repeat' (first | with_reducible rfl | with_reducible assumption | (intro _ _) | (intro _) | simp only [kept_mk, kept_fold, kept_ite, snd_ite, ite_self, rowsFold_kept, ownWrite_kept] | split | with_reducible refine kept_foldl _ _ ?_ ?_ | with_reducible refine Eq.trans (rowsFold_kept _ _ _ _ ?_) ?_)

theorem strnEff_kept  (c n : Nat) (s : State) : EffKept (strnEff  c n s) s.kept := by
  unfold strnEff
  repeat' (first | exact effKept_illegal _ | exact effKept_badAddress _ | exact effKept_error _ _ | with_reducible rfl | with_reducible assumption | (intro _ _) | with_reducible refine effKept_step ?_ | with_reducible refine effKept_jump _ ?_ | with_reducible refine effKept_stay ?_ | with_reducible refine effKept_pure_step ?_ | with_reducible refine effKept_pure_jump _ ?_ | with_reducible refine effKept_pure_stay ?_ | with_reducible refine effKept_bind ?_ | simp only [kept_mk, kept_fold, kept_ite, snd_ite, ite_self, strnLong_kept] | (simp only [draw]) | split | (with_reducible refine kept_foldl _ _ ?_ ?_))

theorem sxltEff_kept  (c n : Nat) (s : State) : EffKept (sxltEff  c n s) s.kept := by
  unfold sxltEff
  repeat' (first | exact effKept_illegal _ | exact effKept_badAddress _ | exact effKept_error _ _ | with_reducible rfl | with_reducible assumption | (intro _ _) | with_reducible refine effKept_step ?_ | with_reducible refine effKept_jump _ ?_ | with_reducible refine effKept_stay ?_ | with_reducible refine effKept_pure_step ?_ | with_reducible refine effKept_pure_jump _ ?_ | with_reducible refine effKept_pure_stay ?_ | with_reducible refine effKept_bind ?_ | simp only [kept_mk, kept_fold, kept_ite, snd_ite, ite_self, modCore_kept, modWalker_kept] | (simp only [draw]) | split | (with_reducible refine kept_foldl _ _ ?_ ?_))

theorem execSsoft_kept (dt c : Nat) (w : DWord) (s : State) : ∃ t, execSsoft dt c w s = .next t ∧ t.kept = (advance dt s).kept :=
  coreRow_kept _ _ _ _ (ssoftEff_kept) dt c w s

theorem execSpvBf_kept (dt c : Nat) (w : DWord) (s : State) : ∃ t, execSpvBf dt c w s = .next t ∧ t.kept = (advance dt s).kept :=
  coreRow_kept _ _ _ _ (spvEff_kept _) dt c w s

theorem execSpvE4_kept (dt c : Nat) (w : DWord) (s : State) : ∃ t, execSpvE4 dt c w s = .next t ∧ t.kept = (advance dt s).kept :=
  coreRow_kept _ _ _ _ (spvEff_kept _) dt c w s

theorem execSnorm_kept (dt c : Nat) (w : DWord) (s : State) : ∃ t, execSnorm dt c w s = .next t ∧ t.kept = (advance dt s).kept :=
  coreRow_kept _ _ _ _ (snormEff_kept) dt c w s

theorem execSstat_kept (dt c : Nat) (w : DWord) (s : State) : ∃ t, execSstat dt c w s = .next t ∧ t.kept = (advance dt s).kept :=
  coreRow_kept _ _ _ _ (sstatEff_kept) dt c w s

theorem execSldst_kept (dt c : Nat) (w : DWord) (s : State) : ∃ t, execSldst dt c w s = .next t ∧ t.kept = (advance dt s).kept :=
  coreRow_kept _ _ _ _ (sldstEff_kept) dt c w s

theorem execSmerge_kept (dt c : Nat) (w : DWord) (s : State) : ∃ t, execSmerge dt c w s = .next t ∧ t.kept = (advance dt s).kept :=
  coreRow_kept _ _ _ _ (smergeEff_kept) dt c w s

theorem execSapp_kept (dt c : Nat) (w : DWord) (s : State) : ∃ t, execSapp dt c w s = .next t ∧ t.kept = (advance dt s).kept :=
  coreRow_kept _ _ _ _ (sappEff_kept) dt c w s

theorem execSbwd_kept (dt c : Nat) (w : DWord) (s : State) : ∃ t, execSbwd dt c w s = .next t ∧ t.kept = (advance dt s).kept :=
  coreRow_kept _ _ _ _ (sbwdEff_kept) dt c w s

theorem execStrn_kept (dt c : Nat) (w : DWord) (s : State) : ∃ t, execStrn dt c w s = .next t ∧ t.kept = (advance dt s).kept :=
  coreRow_kept _ _ _ _ (strnEff_kept) dt c w s

theorem execSxlt_kept (dt c : Nat) (w : DWord) (s : State) : ∃ t, execSxlt dt c w s = .next t ∧ t.kept = (advance dt s).kept :=
  coreRow_kept _ _ _ _ (sxltEff_kept) dt c w s

theorem modMask_kept (k : Nat) (f : MaskUnit → MaskUnit) (s : State) : (modMask k f s).kept = s.kept := by
  unfold modMask
  repeat' (first | with_reducible rfl | with_reducible assumption | (intro _ _) | (intro _) | exact trivial | simp only [kept_mk, kept_fold, kept_ite, ite_self] | split | with_reducible refine kept_foldl _ _ ?_ ?_)

theorem gmaskEff_kept  (c n : Nat) (s : State) : EffKept (gmaskEff  c n s) s.kept := by
  unfold gmaskEff
  repeat' (first | exact effKept_illegal _ | exact effKept_badAddress _ | exact effKept_error _ _ | with_reducible rfl | with_reducible assumption | (intro _ _) | with_reducible refine effKept_step ?_ | with_reducible refine effKept_jump _ ?_ | with_reducible refine effKept_stay ?_ | with_reducible refine effKept_pure_step ?_ | with_reducible refine effKept_pure_jump _ ?_ | with_reducible refine effKept_pure_stay ?_ | with_reducible refine effKept_bind ?_ | simp only [kept_mk, kept_fold, kept_ite, snd_ite, ite_self, modMask_kept] | (simp only [draw]) | split | (with_reducible refine kept_foldl _ _ ?_ ?_))

theorem execGmask_kept (dt c : Nat) (w : DWord) (s : State) : ∃ t, execGmask dt c w s = .next t ∧ t.kept = (advance dt s).kept :=
  coreRow_kept _ _ _ _ (gmaskEff_kept) dt c w s

theorem execMaskRequest_kept (dt cluster : Nat) (s : State) : ∃ t, execMaskRequest dt cluster s = .next t ∧ t.kept = (advance dt s).kept := by
  unfold execMaskRequest
  refine ⟨_, rfl, ?_⟩
  generalize advance dt s = s
  repeat' (first | with_reducible rfl | with_reducible assumption | (intro _ _) | (intro _) | exact trivial | simp only [kept_mk, kept_fold, kept_ite, ite_self, raiseFault_kept, touchSram_kept, writeLoc_kept, writeCommons_kept, modMask_kept, signalTally_kept] | split | with_reducible refine kept_foldl _ _ ?_ ?_)

theorem foldlM_kept {α : Type} {g : State → α → Except Bad State} (h : ∀ s a t, g s a = .ok t → t.kept = s.kept) {l : List α} {s t : State}
    (e : l.foldlM g s = .ok t) : t.kept = s.kept := by
  induction l generalizing s with
  | nil => cases e; rfl
  | cons a l ih =>
    rw [List.foldlM_cons] at e
    simp only [bind, Except.bind] at e
    split at e
    · cases e
    · rename_i u hu
      rw [ih e, h _ _ _ hu]

theorem sargmEff_kept (c n : Nat) (s : State) : EffKept (sargmEff c n s) s.kept := by
  unfold sargmEff
  extract_lets _ _ _ _ _ s1
  repeat' (with_reducible refine effKept_bind ?_; intro _ hr)
  refine effKept_pure_step ?_
  rw [foldlM_kept ?_ hr]
  · rw [show s1.kept = s.kept from by
      unfold s1
      split <;> simp only [ownWrite_kept]]
  · intro s a t h
    unfold sargmRow at h
    simp only at h
    split at h
    · cases h; rfl
    · simp only [bind, Except.bind] at h
      split at h
      · cases h
      · cases h; simp only [countEvents_kept, ownWrite_kept]

theorem execSargm_kept (dt c : Nat) (w : DWord) (s : State) : ∃ t, execSargm dt c w s = .next t ∧ t.kept = (advance dt s).kept :=
  coreRow_kept _ _ _ _ (sargmEff_kept) dt c w s

end Sys2Proof.Machine
end

