-- ==== Sys2Proof/Laws/KeptServOps.lean ====
section
/-! SUPPORT. What ServOps.lean keeps. -/
set_option linter.unusedSimpArgs false
set_option linter.unusedVariables false
set_option linter.unusedTactic false
set_option linter.unreachableTactic false
namespace Sys2Proof.Machine

theorem servCount_kept (i n : Nat) (s : State) : (servCount i n s).kept = s.kept := by
  unfold servCount
  repeat' (first | with_reducible rfl | with_reducible assumption | (intro _ _) | (intro _) | exact trivial | simp only [kept_mk, kept_fold, kept_ite, ite_self] | split | with_reducible refine kept_foldl _ _ ?_ ?_)

theorem modJob_kept (j : Nat) (f : Job → Job) (s : State) : (modJob j f s).kept = s.kept := by
  unfold modJob
  repeat' (first | with_reducible rfl | with_reducible assumption | (intro _ _) | (intro _) | exact trivial | simp only [kept_mk, kept_fold, kept_ite, ite_self] | split | with_reducible refine kept_foldl _ _ ?_ ?_)

theorem modStep_kept (j k : Nat) (f : Step → Step) (s : State) : (modStep j k f s).kept = s.kept := by
  unfold modStep
  repeat' (first | with_reducible rfl | with_reducible assumption | (intro _ _) | (intro _) | exact trivial | simp only [kept_mk, kept_fold, kept_ite, ite_self, modJob_kept] | split | with_reducible refine kept_foldl _ _ ?_ ?_)

end Sys2Proof.Machine
end

