-- ==== Sys2Proof/Laws/KeptSync.lean ====
section
/-! SUPPORT. What Sync.lean keeps. -/
set_option linter.unusedSimpArgs false
set_option linter.unusedVariables false
set_option linter.unusedTactic false
set_option linter.unreachableTactic false
namespace Sys2Proof.Machine

theorem tsigEff_kept  (c n : Nat) (s : State) : EffKept (tsigEff  c n s) s.kept := by
  unfold tsigEff
  repeat' (first | exact effKept_illegal _ | exact effKept_badAddress _ | exact effKept_error _ _ | with_reducible rfl | with_reducible assumption | (intro _ _) | with_reducible refine effKept_step ?_ | with_reducible refine effKept_jump _ ?_ | with_reducible refine effKept_stay ?_ | with_reducible refine effKept_pure_step ?_ | with_reducible refine effKept_pure_jump _ ?_ | with_reducible refine effKept_pure_stay ?_ | with_reducible refine effKept_bind ?_ | simp only [kept_mk, kept_fold, kept_ite, snd_ite, ite_self, signalAndTake_kept] | (simp only [draw]) | split | (with_reducible refine kept_foldl _ _ ?_ ?_))

theorem waitFor_kept (c t : Nat) (ge : Bool) (v : Nat) (s : State) : (waitFor c t ge v s).kept = s.kept := by
  unfold waitFor
  repeat' (first | with_reducible rfl | with_reducible assumption | (intro _ _) | (intro _) | exact trivial | simp only [kept_mk, kept_fold, kept_ite, ite_self, setTally_kept, modCore_kept] | split | with_reducible refine kept_foldl _ _ ?_ ?_)

theorem tryTally_kept (t k : Nat) (s : State) : (tryTally t k s).2.kept = s.kept := by
  unfold tryTally
  repeat' (first | with_reducible rfl | with_reducible assumption | (intro _ _) | (intro _) | exact trivial | simp only [kept_mk, kept_fold, kept_ite, snd_ite, ite_self, setTally_kept] | split | with_reducible refine kept_foldl _ _ ?_ ?_)

theorem twaitEff_kept  (c n : Nat) (s : State) : EffKept (twaitEff  c n s) s.kept := by
  unfold twaitEff
  repeat' (first | exact effKept_illegal _ | exact effKept_badAddress _ | exact effKept_error _ _ | with_reducible rfl | with_reducible assumption | (intro _ _) | with_reducible refine effKept_step ?_ | with_reducible refine effKept_jump _ ?_ | with_reducible refine effKept_stay ?_ | with_reducible refine effKept_pure_step ?_ | with_reducible refine effKept_pure_jump _ ?_ | with_reducible refine effKept_pure_stay ?_ | with_reducible refine effKept_bind ?_ | simp only [kept_mk, kept_fold, kept_ite, snd_ite, ite_self, tryTally_kept, waitFor_kept] | (simp only [draw]) | split | (with_reducible refine kept_foldl _ _ ?_ ?_))

theorem ttryEff_kept  (c n : Nat) (s : State) : EffKept (ttryEff  c n s) s.kept := by
  unfold ttryEff
  repeat' (first | exact effKept_illegal _ | exact effKept_badAddress _ | exact effKept_error _ _ | with_reducible rfl | with_reducible assumption | (intro _ _) | with_reducible refine effKept_step ?_ | with_reducible refine effKept_jump _ ?_ | with_reducible refine effKept_stay ?_ | with_reducible refine effKept_pure_step ?_ | with_reducible refine effKept_pure_jump _ ?_ | with_reducible refine effKept_pure_stay ?_ | with_reducible refine effKept_bind ?_ | simp only [kept_mk, kept_fold, kept_ite, snd_ite, ite_self, tryTally_kept, setX_kept] | (simp only [draw]) | split | (with_reducible refine kept_foldl _ _ ?_ ?_))

theorem twaitgeEff_kept  (c n : Nat) (s : State) : EffKept (twaitgeEff  c n s) s.kept := by
  unfold twaitgeEff
  repeat' (first | exact effKept_illegal _ | exact effKept_badAddress _ | exact effKept_error _ _ | with_reducible rfl | with_reducible assumption | (intro _ _) | with_reducible refine effKept_step ?_ | with_reducible refine effKept_jump _ ?_ | with_reducible refine effKept_stay ?_ | with_reducible refine effKept_pure_step ?_ | with_reducible refine effKept_pure_jump _ ?_ | with_reducible refine effKept_pure_stay ?_ | with_reducible refine effKept_bind ?_ | simp only [kept_mk, kept_fold, kept_ite, snd_ite, ite_self, waitFor_kept] | (simp only [draw]) | split | (with_reducible refine kept_foldl _ _ ?_ ?_))

theorem tsetEff_kept  (c n : Nat) (s : State) : EffKept (tsetEff  c n s) s.kept := by
  unfold tsetEff
  repeat' (first | exact effKept_illegal _ | exact effKept_badAddress _ | exact effKept_error _ _ | with_reducible rfl | with_reducible assumption | (intro _ _) | with_reducible refine effKept_step ?_ | with_reducible refine effKept_jump _ ?_ | with_reducible refine effKept_stay ?_ | with_reducible refine effKept_pure_step ?_ | with_reducible refine effKept_pure_jump _ ?_ | with_reducible refine effKept_pure_stay ?_ | with_reducible refine effKept_bind ?_ | simp only [kept_mk, kept_fold, kept_ite, snd_ite, ite_self, setX_kept, setCount_kept] | (simp only [draw]) | split | (with_reducible refine kept_foldl _ _ ?_ ?_))

theorem tarmEff_kept  (c n : Nat) (s : State) : EffKept (tarmEff  c n s) s.kept := by
  unfold tarmEff
  repeat' (first | exact effKept_illegal _ | exact effKept_badAddress _ | exact effKept_error _ _ | with_reducible rfl | with_reducible assumption | (intro _ _) | with_reducible refine effKept_step ?_ | with_reducible refine effKept_jump _ ?_ | with_reducible refine effKept_stay ?_ | with_reducible refine effKept_pure_step ?_ | with_reducible refine effKept_pure_jump _ ?_ | with_reducible refine effKept_pure_stay ?_ | with_reducible refine effKept_bind ?_ | simp only [kept_mk, kept_fold, kept_ite, snd_ite, ite_self, armTally_kept] | (simp only [draw]) | split | (with_reducible refine kept_foldl _ _ ?_ ?_))

theorem treadEff_kept  (c n : Nat) (s : State) : EffKept (treadEff  c n s) s.kept := by
  unfold treadEff
  repeat' (first | exact effKept_illegal _ | exact effKept_badAddress _ | exact effKept_error _ _ | with_reducible rfl | with_reducible assumption | (intro _ _) | with_reducible refine effKept_step ?_ | with_reducible refine effKept_jump _ ?_ | with_reducible refine effKept_stay ?_ | with_reducible refine effKept_pure_step ?_ | with_reducible refine effKept_pure_jump _ ?_ | with_reducible refine effKept_pure_stay ?_ | with_reducible refine effKept_bind ?_ | simp only [kept_mk, kept_fold, kept_ite, snd_ite, ite_self, setX_kept] | (simp only [draw]) | split | (with_reducible refine kept_foldl _ _ ?_ ?_))

theorem fenceEff_kept  (c n : Nat) (s : State) : EffKept (fenceEff  c n s) s.kept := by
  unfold fenceEff
  repeat' (first | exact effKept_illegal _ | exact effKept_badAddress _ | exact effKept_error _ _ | with_reducible rfl | with_reducible assumption | (intro _ _) | with_reducible refine effKept_step ?_ | with_reducible refine effKept_jump _ ?_ | with_reducible refine effKept_stay ?_ | with_reducible refine effKept_pure_step ?_ | with_reducible refine effKept_pure_jump _ ?_ | with_reducible refine effKept_pure_stay ?_ | with_reducible refine effKept_bind ?_ | simp only [kept_mk, kept_fold, kept_ite, snd_ite, ite_self] | (simp only [draw]) | split | (with_reducible refine kept_foldl _ _ ?_ ?_))

theorem waituEff_kept  (c n : Nat) (s : State) : EffKept (waituEff  c n s) s.kept := by
  unfold waituEff
  repeat' (first | exact effKept_illegal _ | exact effKept_badAddress _ | exact effKept_error _ _ | with_reducible rfl | with_reducible assumption | (intro _ _) | with_reducible refine effKept_step ?_ | with_reducible refine effKept_jump _ ?_ | with_reducible refine effKept_stay ?_ | with_reducible refine effKept_pure_step ?_ | with_reducible refine effKept_pure_jump _ ?_ | with_reducible refine effKept_pure_stay ?_ | with_reducible refine effKept_bind ?_ | simp only [kept_mk, kept_fold, kept_ite, snd_ite, ite_self] | (simp only [draw]) | split | (with_reducible refine kept_foldl _ _ ?_ ?_))

theorem sendEff_kept  (c n : Nat) (s : State) : EffKept (sendEff  c n s) s.kept := by
  unfold sendEff
  repeat' (first | exact effKept_illegal _ | exact effKept_badAddress _ | exact effKept_error _ _ | with_reducible rfl | with_reducible assumption | (intro _ _) | with_reducible refine effKept_step ?_ | with_reducible refine effKept_jump _ ?_ | with_reducible refine effKept_stay ?_ | with_reducible refine effKept_pure_step ?_ | with_reducible refine effKept_pure_jump _ ?_ | with_reducible refine effKept_pure_stay ?_ | with_reducible refine effKept_bind ?_ | simp only [kept_mk, kept_fold, kept_ite, snd_ite, ite_self, post_kept] | (simp only [draw]) | split | (with_reducible refine kept_foldl _ _ ?_ ?_))

theorem execTsig_kept (dt c : Nat) (w : DWord) (s : State) : ∃ t, execTsig dt c w s = .next t ∧ t.kept = (advance dt s).kept :=
  coreRow_kept _ _ _ _ (tsigEff_kept) dt c w s

theorem execTwait_kept (dt c : Nat) (w : DWord) (s : State) : ∃ t, execTwait dt c w s = .next t ∧ t.kept = (advance dt s).kept :=
  coreRow_kept _ _ _ _ (twaitEff_kept) dt c w s

theorem execTtry_kept (dt c : Nat) (w : DWord) (s : State) : ∃ t, execTtry dt c w s = .next t ∧ t.kept = (advance dt s).kept :=
  coreRow_kept _ _ _ _ (ttryEff_kept) dt c w s

theorem execTwaitge_kept (dt c : Nat) (w : DWord) (s : State) : ∃ t, execTwaitge dt c w s = .next t ∧ t.kept = (advance dt s).kept :=
  coreRow_kept _ _ _ _ (twaitgeEff_kept) dt c w s

theorem execTset_kept (dt c : Nat) (w : DWord) (s : State) : ∃ t, execTset dt c w s = .next t ∧ t.kept = (advance dt s).kept :=
  coreRow_kept _ _ _ _ (tsetEff_kept) dt c w s

theorem execTarm_kept (dt c : Nat) (w : DWord) (s : State) : ∃ t, execTarm dt c w s = .next t ∧ t.kept = (advance dt s).kept :=
  coreRow_kept _ _ _ _ (tarmEff_kept) dt c w s

theorem execTread_kept (dt c : Nat) (w : DWord) (s : State) : ∃ t, execTread dt c w s = .next t ∧ t.kept = (advance dt s).kept :=
  coreRow_kept _ _ _ _ (treadEff_kept) dt c w s

theorem execFence_kept (dt c : Nat) (w : DWord) (s : State) : ∃ t, execFence dt c w s = .next t ∧ t.kept = (advance dt s).kept :=
  coreRow_kept _ _ _ _ (fenceEff_kept) dt c w s

theorem execWaitu_kept (dt c : Nat) (w : DWord) (s : State) : ∃ t, execWaitu dt c w s = .next t ∧ t.kept = (advance dt s).kept :=
  coreRow_kept _ _ _ _ (waituEff_kept) dt c w s

theorem execSend_kept (dt c : Nat) (w : DWord) (s : State) : ∃ t, execSend dt c w s = .next t ∧ t.kept = (advance dt s).kept :=
  coreRow_kept _ _ _ _ (sendEff_kept) dt c w s

theorem coreStatusBody_kept (p : Packet) (s : State) : ((coreStatusBody p s).after s).kept = s.kept := by
  unfold coreStatusBody
  repeat' (first | with_reducible rfl | with_reducible assumption | (intro _ _) | (intro _) | exact trivial | simp only [after_ok, after_refuse, after_refuseWith, after_ite, kept_mk, kept_fold, kept_ite, ite_self] | split | with_reducible refine kept_foldl _ _ ?_ ?_)

theorem touchHome_kept (s : State) (t : Nat) : (touchHome s t).kept = s.kept := by
  unfold touchHome
  repeat' (first | with_reducible rfl | with_reducible assumption | (intro _ _) | (intro _) | exact trivial | simp only [kept_mk, kept_fold, kept_ite, ite_self, touchSram_kept] | split | with_reducible refine kept_foldl _ _ ?_ ?_)

theorem tallyQueryBody_kept (p : Packet) (s : State) : ((tallyQueryBody p s).after s).kept = s.kept := by
  unfold tallyQueryBody
  repeat' (first | with_reducible rfl | with_reducible assumption | (intro _ _) | (intro _) | exact trivial | simp only [after_ok, after_refuse, after_refuseWith, after_ite, kept_mk, kept_fold, kept_ite, ite_self, touchHome_kept] | split | with_reducible refine kept_foldl _ _ ?_ ?_)

theorem tallySignalBody_kept (p : Packet) (s : State) : ((tallySignalBody p s).after s).kept = s.kept := by
  unfold tallySignalBody
  repeat' (first | with_reducible rfl | with_reducible assumption | (intro _ _) | (intro _) | exact trivial | simp only [after_ok, after_refuse, after_refuseWith, after_ite, kept_mk, kept_fold, kept_ite, ite_self, signalAndTake_kept, touchHome_kept] | split | with_reducible refine kept_foldl _ _ ?_ ?_)

theorem tallyArmBody_kept (p : Packet) (s : State) : ((tallyArmBody p s).after s).kept = s.kept := by
  unfold tallyArmBody
  repeat' (first | with_reducible rfl | with_reducible assumption | (intro _ _) | (intro _) | exact trivial | simp only [after_ok, after_refuse, after_refuseWith, after_ite, kept_mk, kept_fold, kept_ite, ite_self, armTally_kept, touchHome_kept] | split | with_reducible refine kept_foldl _ _ ?_ ?_)

theorem tallySetBody_kept (p : Packet) (s : State) : ((tallySetBody p s).after s).kept = s.kept := by
  unfold tallySetBody
  repeat' (first | with_reducible rfl | with_reducible assumption | (intro _ _) | (intro _) | exact trivial | simp only [after_ok, after_refuse, after_refuseWith, after_ite, kept_mk, kept_fold, kept_ite, ite_self, setCount_kept, touchHome_kept] | split | with_reducible refine kept_foldl _ _ ?_ ?_)

theorem execCoreStatus_kept (dt : Nat) (h : Hdr) (p : Bytes) (s : State) : ∃ t, execCoreStatus dt h p s = .next t ∧ t.kept = (advance dt s).kept :=
  hostRow_kept _ _ (fun p s => coreStatusBody_kept p s) dt h p s

theorem execTallyQuery_kept (dt : Nat) (h : Hdr) (p : Bytes) (s : State) : ∃ t, execTallyQuery dt h p s = .next t ∧ t.kept = (advance dt s).kept :=
  hostRow_kept _ _ (fun p s => tallyQueryBody_kept p s) dt h p s

theorem execTallySignal_kept (dt : Nat) (h : Hdr) (p : Bytes) (s : State) : ∃ t, execTallySignal dt h p s = .next t ∧ t.kept = (advance dt s).kept :=
  hostRow_kept _ _ (fun p s => tallySignalBody_kept p s) dt h p s

theorem execTallyArm_kept (dt : Nat) (h : Hdr) (p : Bytes) (s : State) : ∃ t, execTallyArm dt h p s = .next t ∧ t.kept = (advance dt s).kept :=
  hostRow_kept _ _ (fun p s => tallyArmBody_kept p s) dt h p s

theorem execTallySet_kept (dt : Nat) (h : Hdr) (p : Bytes) (s : State) : ∃ t, execTallySet dt h p s = .next t ∧ t.kept = (advance dt s).kept :=
  hostRow_kept _ _ (fun p s => tallySetBody_kept p s) dt h p s

end Sys2Proof.Machine
end

