-- ==== Sys2Proof/Laws/KeptPreempt.lean ====
section
/-! SUPPORT. What Preempt.lean keeps. -/
set_option linter.unusedSimpArgs false
set_option linter.unusedVariables false
set_option linter.unusedTactic false
set_option linter.unreachableTactic false
namespace Sys2Proof.Machine

theorem longOf_kept {c n g : Nat} {x : List Word} {s : State} {e : Eff} {l : Long} (h : longOf c n x g s = some (e, l)) (lo hi : Nat) (t : State) :
    (l.run lo hi t).kept = t.kept := by
  unfold longOf at h
  simp only at h
  repeat' split at h
  all_goals first
    | (exact absurd h (by simp only [reduceCtorEq, not_false_eq_true]))
    | (simp only [Option.some.injEq, Prod.mk.injEq] at h
       obtain ⟨-, rfl⟩ := h
       simp only [tloadLong_kept, matrixLong_kept, drainLong_kept, ssoftLong_kept, spvLong_kept, snormLong_kept, smergeLong_kept, sbwdLong_kept,
         strnLong_kept, wdrainLong_kept, wpoolLong_kept, wresLong_kept, windowLong_kept])

theorem runPart_kept (c : Nat) (w : DWord) (k : Nat) (s : State) : (runPart c w k s).kept = s.kept := by
  unfold runPart
  extract_lets n x g
  split
  · rfl
  · rename_i h
    have hl := longOf_kept h
    repeat' (first | with_reducible rfl | simp only [goto_kept, hl, kept_ite, modRegs_kept, coreFault_kept, ite_self] | split)

@[simp] theorem requeue_kept (c : Nat) (p : Partial) (a : Append) (s : State) : (requeue c p a s).kept = s.kept := by
  unfold requeue
  simp only [modWalker_kept]

theorem finishPart_kept (c : Nat) (p : Partial) (s : State) : (finishPart c p s).kept = s.kept := by
  unfold finishPart
  extract_lets n now back t
  split
  · rename_i h
    exact longOf_kept h _ _ _
  · split
    · exact requeue_kept _ _ _ _
    · have hb : ∀ u : State, (back u).kept = u.kept := fun u => modRegs_kept _ _ _
      have ht : t.kept = s.kept := modRegs_kept _ _ _
      have he : EffKept (sxltEff c n t) t.kept := sxltEff_kept _ _ _
      unfold EffKept at he
      split <;> rename_i h
      · rw [hb, ← ht]; exact he _ h
      · rw [hb, ← ht]; exact he _ h
      · rw [hb, ← ht]; exact he _ h
      · rw [coreFault_kept, hb, ht]
      · rw [hb, ht]

theorem stopDma_kept (c : Nat) (progress : List Nat) (s : State) : (stopDma c progress s).kept = s.kept := by
  unfold stopDma
  refine kept_foldl _ _ ?_ (modRegs_kept _ _ _)
  intro s e
  simp only
  split
  · rename_i h
    have := dmaMove_kept _ _ _ _ _ _ h
    simp only [kept_ite, signalAndTake_kept, modRegs_kept, this, ite_self]
  · exact modRegs_kept _ _ _

theorem withdraw_kept (c : Nat) (s : State) : (withdraw c s).kept = s.kept := by
  unfold withdraw
  repeat' (first | with_reducible rfl | with_reducible assumption | (intro _ _) | (intro _) | exact trivial | simp only [kept_mk, kept_fold, kept_ite, ite_self, modWalker_kept, modCore_kept] | split | with_reducible refine kept_foldl _ _ ?_ ?_)

theorem withdrawWait_kept (c : Nat) (s : State) : (withdrawWait c s).kept = s.kept := by
  unfold withdrawWait
  repeat' (first | with_reducible rfl | with_reducible assumption | (intro _ _) | (intro _) | exact trivial | simp only [kept_mk, kept_fold, kept_ite, ite_self, setTally_kept] | split | with_reducible refine kept_foldl _ _ ?_ ?_)

theorem contextCharge_kept (c : Nat) (s : State) : (contextCharge c s).kept = s.kept := by
  unfold contextCharge
  repeat' (first | with_reducible rfl | with_reducible assumption | (intro _ _) | (intro _) | exact trivial | simp only [kept_mk, kept_fold, kept_ite, ite_self, hold_kept] | split | with_reducible refine kept_foldl _ _ ?_ ?_)

theorem setMap_kept (j l : Nat) (v : Option Nat) (s : State) : (setMap j l v s).kept = s.kept := by
  unfold setMap
  repeat' (first | with_reducible rfl | with_reducible assumption | (intro _ _) | (intro _) | exact trivial | simp only [kept_mk, kept_fold, kept_ite, ite_self] | split | with_reducible refine kept_foldl _ _ ?_ ?_)

theorem stopNow_kept (p : StopPoint) (s : State) : (stopNow p s).kept = s.kept := by
  unfold stopNow
  repeat' (first | with_reducible rfl | with_reducible assumption | (intro _ _) | (intro _) | exact trivial | simp only [kept_mk, kept_fold, kept_ite, ite_self, runPart_kept, withdrawWait_kept, withdraw_kept, stopDma_kept, contextCharge_kept, setMap_kept, modCore_kept] | split | with_reducible refine kept_foldl _ _ ?_ ?_)

theorem askCore_kept (stops : List StopPoint) (c : Nat) (s : State) : (askCore stops c s).kept = s.kept := by
  unfold askCore
  repeat' (first | with_reducible rfl | with_reducible assumption | (intro _ _) | (intro _) | exact trivial | simp only [kept_mk, kept_fold, kept_ite, ite_self, modCore_kept, stopNow_kept] | split | with_reducible refine kept_foldl _ _ ?_ ?_)

theorem execPreemptionRequest_kept (dt cluster mask : Nat) (stops : List StopPoint) (s : State) : ∃ t, execPreemptionRequest dt cluster mask stops s = .next t ∧ t.kept = (advance dt s).kept := by
  unfold execPreemptionRequest
  refine ⟨_, rfl, ?_⟩
  generalize advance dt s = s
  repeat' (first | with_reducible rfl | with_reducible assumption | (intro _ _) | (intro _) | exact trivial | simp only [kept_mk, kept_fold, kept_ite, ite_self, dispatchAll_kept, askCore_kept, servCount_kept] | split | with_reducible refine kept_foldl _ _ ?_ ?_)

theorem execContextValid_kept (dt core : Nat) (s : State) : ∃ t, execContextValid dt core s = .next t ∧ t.kept = (advance dt s).kept := by
  unfold execContextValid
  refine ⟨_, rfl, ?_⟩
  generalize advance dt s = s
  repeat' (first | with_reducible rfl | with_reducible assumption | (intro _ _) | (intro _) | exact trivial | simp only [kept_mk, kept_fold, kept_ite, ite_self, contextCharge_kept, coreFault_kept, servEvent_kept, servCount_kept, modCore_kept, dispatchAll_kept, retryWaiting_kept, giveBack_kept] | split | with_reducible refine kept_foldl _ _ ?_ ?_)

theorem execRestore_kept (dt core ctx : Nat) (s : State) : ∃ t, execRestore dt core ctx s = .next t ∧ t.kept = (advance dt s).kept := by
  unfold execRestore
  refine ⟨_, rfl, ?_⟩
  generalize advance dt s = s
  repeat' (first | with_reducible rfl | with_reducible assumption | (intro _ _) | (intro _) | exact trivial | simp only [kept_mk, kept_fold, kept_ite, ite_self, touchDie_kept, contextCharge_kept, modCore_kept] | split | with_reducible refine kept_foldl _ _ ?_ ?_)

theorem rewait_kept (c : Nat) (s : State) : (rewait c s).kept = s.kept := by
  unfold rewait
  repeat' (first | with_reducible rfl | with_reducible assumption | (intro _ _) | (intro _) | exact trivial | simp only [kept_mk, kept_fold, kept_ite, ite_self, modCore_kept, waitFor_kept, tryTally_kept] | split | with_reducible refine kept_foldl _ _ ?_ ?_)

theorem putContext_kept (c : Nat) (x : Context) (s : State) : (putContext c x s).kept = s.kept := by
  unfold putContext
  repeat' (first | with_reducible rfl | with_reducible assumption | (intro _ _) | (intro _) | exact trivial | simp only [kept_mk, kept_fold, kept_ite, ite_self, modCore_kept] | split | with_reducible refine kept_foldl _ _ ?_ ?_)

theorem execRestoreComplete_kept (dt core : Nat) (s : State) : ∃ t, execRestoreComplete dt core s = .next t ∧ t.kept = (advance dt s).kept := by
  unfold execRestoreComplete
  refine ⟨_, rfl, ?_⟩
  generalize advance dt s = s
  repeat' (first | with_reducible rfl | with_reducible assumption | (intro _ _) | (intro _) | exact trivial | simp only [kept_mk, kept_fold, kept_ite, ite_self, contextCharge_kept, servEvent_kept, servCount_kept, setMap_kept, putContext_kept, rewait_kept, finishPart_kept, retryWaiting_kept, giveBack_kept, dispatchAll_kept, modCore_kept] | split | with_reducible refine kept_foldl _ _ ?_ ?_)

end Sys2Proof.Machine
end

