-- ==== Sys2Proof/Laws/KeptTiles.lean ====
section
/-! SUPPORT. What Tiles.lean keeps. -/
set_option linter.unusedSimpArgs false
set_option linter.unusedVariables false
set_option linter.unusedTactic false
set_option linter.unreachableTactic false
namespace Sys2Proof.Machine

theorem addTile_kept (cl : Nat) (t : PendingTile) (s : State) : (addTile cl t s).kept = s.kept := by
  unfold addTile
  repeat' (first | with_reducible rfl | with_reducible assumption | (intro _ _) | (intro _) | exact trivial | simp only [kept_mk, kept_fold, kept_ite, ite_self, setTally_kept, modCluster_kept] | split | with_reducible refine kept_foldl _ _ ?_ ?_)

theorem readTiles_kept (handle step cl : Nat) (s : State) : (readTiles handle step cl s).kept = s.kept := by
  unfold readTiles
  repeat' (first | with_reducible rfl | with_reducible assumption | (intro _ _) | (intro _) | exact trivial | simp only [kept_mk, kept_fold, kept_ite, ite_self, raiseFault_kept, addTile_kept] | split | with_reducible refine kept_foldl _ _ ?_ ?_)

theorem startStep_kept (sl : Slot) (s : State) : (startStep sl s).kept = s.kept := by
  unfold startStep
  repeat' (first | with_reducible rfl | with_reducible assumption | (intro _ _) | (intro _) | exact trivial | simp only [kept_mk, kept_fold, kept_ite, ite_self, reloadCommons_kept, reloadResident_kept, modJob_kept, modStep_kept, launch_kept, foldAll_kept, dispatchAll_kept, readTiles_kept] | split | with_reducible refine kept_foldl _ _ ?_ ?_ | with_reducible refine Eq.trans (launch_kept _ _ _ _ ?_) ?_)

theorem execStepStart_kept (dt n : Nat) (s : State) : ∃ t, execStepStart dt n s = .next t ∧ t.kept = (advance dt s).kept := by
  unfold execStepStart
  refine ⟨_, rfl, ?_⟩
  generalize advance dt s = s
  repeat' (first | with_reducible rfl | with_reducible assumption | (intro _ _) | (intro _) | exact trivial | simp only [kept_mk, kept_fold, kept_ite, ite_self, launch_kept, startStep_kept, touchDie_kept] | split | with_reducible refine kept_foldl _ _ ?_ ?_ | with_reducible refine Eq.trans (launch_kept _ _ _ _ ?_) ?_)

end Sys2Proof.Machine
end

