-- ==== Sys2Proof/Laws/KeptRecord.lean ====
section
/-! SUPPORT. What Record.lean keeps. -/
set_option linter.unusedSimpArgs false
set_option linter.unusedVariables false
set_option linter.unusedTactic false
set_option linter.unreachableTactic false
namespace Sys2Proof.Machine

theorem pumpReleases_kept (s : State) : (pumpReleases s).kept = s.kept := by
  unfold pumpReleases
  repeat' (first | with_reducible rfl | with_reducible assumption | (intro _ _) | (intro _) | exact trivial | simp only [kept_mk, kept_fold, kept_ite, ite_self, addSlot_kept] | split | with_reducible refine kept_foldl _ _ ?_ ?_)

theorem recordArrives_kept (id : Nat) (s : State) : (recordArrives id s).kept = s.kept := by
  unfold recordArrives
  repeat' (first | with_reducible rfl | with_reducible assumption | (intro _ _) | (intro _) | exact trivial | simp only [kept_mk, kept_fold, kept_ite, ite_self, mapSlots_kept] | split | with_reducible refine kept_foldl _ _ ?_ ?_)

theorem settleSecond_kept (k id : Nat) (s : State) : (settleSecond k id s).kept = s.kept := by
  unfold settleSecond
  repeat' (first | with_reducible rfl | with_reducible assumption | (intro _ _) | (intro _) | exact trivial | simp only [kept_mk, kept_fold, kept_ite, ite_self, modSlot_kept, freeSlot_kept] | split | with_reducible refine kept_foldl _ _ ?_ ?_)

theorem postSecond_kept (h : Sheet) (pending : Bool) (s : State) : (postSecond h pending s).kept = s.kept := by
  unfold postSecond
  repeat' (first | with_reducible rfl | with_reducible assumption | (intro _ _) | (intro _) | exact trivial | simp only [kept_mk, kept_fold, kept_ite, ite_self, addSlot_kept] | split | with_reducible refine kept_foldl _ _ ?_ ?_)

theorem releaseRows_kept (id : Nat) (s : State) : (releaseRows id s).kept = s.kept := by
  unfold releaseRows
  repeat' (first | with_reducible rfl | with_reducible assumption | (intro _ _) | (intro _) | exact trivial | simp only [kept_mk, kept_fold, kept_ite, ite_self, modEntries_kept] | split | with_reducible refine kept_foldl _ _ ?_ ?_)

theorem releaseThumb_kept (id : Nat) (s : State) : (releaseThumb id s).kept = s.kept := by
  unfold releaseThumb
  repeat' (first | with_reducible rfl | with_reducible assumption | (intro _ _) | (intro _) | exact trivial | simp only [kept_mk, kept_fold, kept_ite, ite_self, modEntries_kept] | split | with_reducible refine kept_foldl _ _ ?_ ?_)

theorem noteCommit_kept (h : Sheet) (p : RecordPlan) (no st : Nat) (s : State) : (noteCommit h p no st s).kept = s.kept := by
  unfold noteCommit
  repeat' (first | with_reducible rfl | with_reducible assumption | (intro _ _) | (intro _) | exact trivial | simp only [kept_mk, kept_fold, kept_ite, ite_self, postSecond_kept, recordArrives_kept, settleSecond_kept, dropSlots_kept, releaseThumb_kept, releaseRows_kept] | split | with_reducible refine kept_foldl _ _ ?_ ?_)

theorem waitForRoom_kept (h : Sheet) (kind : Nat) (s : State) : (waitForRoom h kind s).kept = s.kept := by
  unfold waitForRoom
  repeat' (first | with_reducible rfl | with_reducible assumption | (intro _ _) | (intro _) | exact trivial | simp only [kept_mk, kept_fold, kept_ite, ite_self, outEvent_kept] | split | with_reducible refine kept_foldl _ _ ?_ ?_)

theorem commitRecord_kept (h : Sheet) (p : RecordPlan) (s : State) : (commitRecord h p s).kept = s.kept := by
  unfold commitRecord
  repeat' (first | with_reducible rfl | with_reducible assumption | (intro _ _) | (intro _) | exact trivial | simp only [kept_mk, kept_fold, kept_ite, ite_self, waitForRoom_kept, noteCommit_kept, putEntries_kept, mirror_kept, roomFreed_kept, pumpReleases_kept] | split | with_reducible refine kept_foldl _ _ ?_ ?_)

theorem pumpJoins_kept  (x0 : Nat) (s : State) : (pumpJoins x0 s).kept = s.kept := by
  induction x0 generalizing s with
  | zero =>
    unfold pumpJoins
    repeat' (first | with_reducible rfl | with_reducible assumption | (intro _ _) | (intro _) | exact trivial | simp only [kept_mk, kept_fold, kept_ite, ite_self] | split | with_reducible refine kept_foldl _ _ ?_ ?_)
  | succ k ih =>
    unfold pumpJoins
    repeat' (first | with_reducible rfl | with_reducible assumption | (intro _ _) | (intro _) | exact trivial | simp only [kept_mk, kept_fold, kept_ite, ite_self, ih] | split | with_reducible refine kept_foldl _ _ ?_ ?_)

theorem joinAll_kept (s : State) : (joinAll s).kept = s.kept := by
  unfold joinAll
  repeat' (first | with_reducible rfl | with_reducible assumption | (intro _ _) | (intro _) | exact trivial | simp only [kept_mk, kept_fold, kept_ite, ite_self, pumpJoins_kept] | split | with_reducible refine kept_foldl _ _ ?_ ?_)

theorem sweepSheets_kept (s : State) : (sweepSheets s).kept = s.kept := by
  unfold sweepSheets
  repeat' (first | with_reducible rfl | with_reducible assumption | (intro _ _) | (intro _) | exact trivial | simp only [kept_mk, kept_fold, kept_ite, ite_self] | split | with_reducible refine kept_foldl _ _ ?_ ?_)

end Sys2Proof.Machine
end

