-- ==== Sys2Proof/Laws/KeptTransmit.lean ====
section
/-! SUPPORT. What Transmit.lean keeps. -/
set_option linter.unusedSimpArgs false
set_option linter.unusedVariables false
set_option linter.unusedTactic false
set_option linter.unreachableTactic false
namespace Sys2Proof.Machine

theorem keepCharge_kept (slot no : Nat) (s : State) : (keepCharge slot no s).kept = s.kept := by
  unfold keepCharge
  repeat' (first | with_reducible rfl | with_reducible assumption | (intro _ _) | (intro _) | exact trivial | simp only [kept_mk, kept_fold, kept_ite, ite_self] | split | with_reducible refine kept_foldl _ _ ?_ ?_)

theorem releaseRecord_kept (n : Nat) (sl : Slot) (s : State) : (releaseRecord n sl s).kept = s.kept := by
  unfold releaseRecord
  repeat' (first | with_reducible rfl | with_reducible assumption | (intro _ _) | (intro _) | exact trivial | simp only [kept_mk, kept_fold, kept_ite, ite_self, giveBack_kept, joinAll_kept, keepCharge_kept] | split | with_reducible refine kept_foldl _ _ ?_ ?_)

theorem execOutRelease_kept (dt n : Nat) (s : State) : ∃ t, execOutRelease dt n s = .next t ∧ t.kept = (advance dt s).kept := by
  unfold execOutRelease
  refine ⟨_, rfl, ?_⟩
  generalize advance dt s = s
  repeat' (first | with_reducible rfl | with_reducible assumption | (intro _ _) | (intro _) | exact trivial | simp only [kept_mk, kept_fold, kept_ite, ite_self, sweepSheets_kept, refreshHigh_kept, pumpReleases_kept, launch_kept, releaseRecord_kept] | split | with_reducible refine kept_foldl _ _ ?_ ?_ | with_reducible refine Eq.trans (launch_kept _ _ _ _ ?_) ?_)

theorem startPacket_kept (p : Nat) (k : TxPacket) (s : State) : (startPacket p k s).kept = s.kept := by
  unfold startPacket
  repeat' (first | with_reducible rfl | with_reducible assumption | (intro _ _) | (intro _) | exact trivial | simp only [kept_mk, kept_fold, kept_ite, ite_self, modTx_kept] | split | with_reducible refine kept_foldl _ _ ?_ ?_)

theorem modRecord_kept (r : OutRecord) (f : OutRecord → OutRecord) (s : State) : (modRecord r f s).kept = s.kept := by
  unfold modRecord
  repeat' (first | with_reducible rfl | with_reducible assumption | (intro _ _) | (intro _) | exact trivial | simp only [kept_mk, kept_fold, kept_ite, ite_self] | split | with_reducible refine kept_foldl _ _ ?_ ?_)

theorem noteSent_kept (no : Nat) (s : State) : (noteSent no s).kept = s.kept := by
  unfold noteSent
  repeat' (first | with_reducible rfl | with_reducible assumption | (intro _ _) | (intro _) | exact trivial | simp only [kept_mk, kept_fold, kept_ite, ite_self, mirror_kept] | split | with_reducible refine kept_foldl _ _ ?_ ?_)

theorem recordLeft_kept (r : OutRecord) (s : State) : (recordLeft r s).kept = s.kept := by
  unfold recordLeft
  repeat' (first | with_reducible rfl | with_reducible assumption | (intro _ _) | (intro _) | exact trivial | simp only [kept_mk, kept_fold, kept_ite, ite_self, modTx_kept, noteSent_kept, giveBack_kept, roomFreed_kept, joinAll_kept] | split | with_reducible refine kept_foldl _ _ ?_ ?_)

theorem sendRecord_kept (p : Nat) (r : OutRecord) (s : State) : (sendRecord p r s).kept = s.kept := by
  unfold sendRecord
  repeat' (first | with_reducible rfl | with_reducible assumption | (intro _ _) | (intro _) | exact trivial | simp only [kept_mk, kept_fold, kept_ite, ite_self, modTx_kept, startPacket_kept, modRecord_kept, recordLeft_kept] | split | with_reducible refine kept_foldl _ _ ?_ ?_)

theorem sendRow_kept (p : Nat) (r : OutRow) (s : State) : (sendRow p r s).kept = s.kept := by
  unfold sendRow
  repeat' (first | with_reducible rfl | with_reducible assumption | (intro _ _) | (intro _) | exact trivial | simp only [kept_mk, kept_fold, kept_ite, ite_self, startPacket_kept, modTx_kept, roomFreed_kept, modEntries_kept] | split | with_reducible refine kept_foldl _ _ ?_ ?_)

theorem sendMark_kept (p : Nat) (m : Mark) (s : State) : (sendMark p m s).kept = s.kept := by
  unfold sendMark
  repeat' (first | with_reducible rfl | with_reducible assumption | (intro _ _) | (intro _) | exact trivial | simp only [kept_mk, kept_fold, kept_ite, ite_self, startPacket_kept, modTx_kept, outEvent_kept, countLate_kept] | split | with_reducible refine kept_foldl _ _ ?_ ?_)

theorem transmit_kept (p : Nat) (s : State) : (transmit p s).kept = s.kept := by
  unfold transmit
  repeat' (first | with_reducible rfl | with_reducible assumption | (intro _ _) | (intro _) | exact trivial | simp only [kept_mk, kept_fold, kept_ite, ite_self, modTx_kept, sendMark_kept, sweepSheets_kept, sendRecord_kept, sendRow_kept, startPacket_kept] | split | with_reducible refine kept_foldl _ _ ?_ ?_)

theorem execTransmitPacket_kept (dt p : Nat) (s : State) : ∃ t, execTransmitPacket dt p s = .next t ∧ t.kept = (advance dt s).kept := by
  unfold execTransmitPacket
  refine ⟨_, rfl, ?_⟩
  generalize advance dt s = s
  repeat' (first | with_reducible rfl | with_reducible assumption | (intro _ _) | (intro _) | exact trivial | simp only [kept_mk, kept_fold, kept_ite, ite_self, transmit_kept] | split | with_reducible refine kept_foldl _ _ ?_ ?_)

theorem execOutHoldFall_kept (dt : Nat) (s : State) : ∃ t, execOutHoldFall dt s = .next t ∧ t.kept = (advance dt s).kept := by
  unfold execOutHoldFall
  refine ⟨_, rfl, ?_⟩
  generalize advance dt s = s
  repeat' (first | with_reducible rfl | with_reducible assumption | (intro _ _) | (intro _) | exact trivial | simp only [kept_mk, kept_fold, kept_ite, ite_self, outEvent_kept, hold_kept] | split | with_reducible refine kept_foldl _ _ ?_ ?_)

theorem execOutHoldRise_kept (dt : Nat) (s : State) : ∃ t, execOutHoldRise dt s = .next t ∧ t.kept = (advance dt s).kept := by
  unfold execOutHoldRise
  refine ⟨_, rfl, ?_⟩
  generalize advance dt s = s
  repeat' (first | with_reducible rfl | with_reducible assumption | (intro _ _) | (intro _) | exact trivial | simp only [kept_mk, kept_fold, kept_ite, ite_self, outEvent_kept, hold_kept] | split | with_reducible refine kept_foldl _ _ ?_ ?_)

theorem outStatusBody_kept (p : Packet) (s : State) : ((outStatusBody p s).after s).kept = s.kept := by
  unfold outStatusBody
  repeat' (first | with_reducible rfl | with_reducible assumption | (intro _ _) | (intro _) | exact trivial | simp only [after_ok, after_refuse, after_refuseWith, after_ite, kept_mk, kept_fold, kept_ite, ite_self] | split | with_reducible refine kept_foldl _ _ ?_ ?_)

theorem execOutStatus_kept (dt : Nat) (h : Hdr) (p : Bytes) (s : State) : ∃ t, execOutStatus dt h p s = .next t ∧ t.kept = (advance dt s).kept :=
  hostRow_kept _ _ (fun p s => outStatusBody_kept p s) dt h p s

theorem amendEvents_kept (l : List Line) (s : State) : (amendEvents l s).kept = s.kept := by
  unfold amendEvents
  repeat' (first | with_reducible rfl | with_reducible assumption | (intro _ _) | (intro _) | exact trivial | simp only [kept_mk, kept_fold, kept_ite, ite_self, servEvent_kept, servCount_kept] | split | with_reducible refine kept_foldl _ _ ?_ ?_)

theorem commitAmendment_kept (h : Sheet) (fields : List FieldValue) (s : State) : (commitAmendment h fields s).kept = s.kept := by
  unfold commitAmendment
  repeat' (first | with_reducible rfl | with_reducible assumption | (intro _ _) | (intro _) | exact trivial | simp only [kept_mk, kept_fold, kept_ite, ite_self, commitRecord_kept, amendEvents_kept] | split | with_reducible refine kept_foldl _ _ ?_ ?_)

theorem execRecordCommit_kept (dt kind id : Nat) (fields : List FieldValue) (s : State) : ∃ t, execRecordCommit dt kind id fields s = .next t ∧ t.kept = (advance dt s).kept := by
  unfold execRecordCommit
  refine ⟨_, rfl, ?_⟩
  generalize advance dt s = s
  repeat' (first | with_reducible rfl | with_reducible assumption | (intro _ _) | (intro _) | exact trivial | simp only [kept_mk, kept_fold, kept_ite, ite_self, sweepSheets_kept, commitRecord_kept, commitAmendment_kept] | split | with_reducible refine kept_foldl _ _ ?_ ?_)

end Sys2Proof.Machine
end

