-- ==== Sys2Proof/Laws/KeptServing.lean ====
section
/-! SUPPORT. What Serving.lean keeps. -/
set_option linter.unusedSimpArgs false
set_option linter.unusedVariables false
set_option linter.unusedTactic false
set_option linter.unreachableTactic false
namespace Sys2Proof.Machine

theorem modLine_kept (l : Line) (f : Line → Line) (s : State) : (modLine l f s).kept = s.kept := by
  unfold modLine
  repeat' (first | with_reducible rfl | with_reducible assumption | (intro _ _) | (intro _) | exact trivial | simp only [kept_mk, kept_fold, kept_ite, ite_self] | split | with_reducible refine kept_foldl _ _ ?_ ?_)

theorem enterWindow_kept (j b v : Nat) (s : State) : (enterWindow j b v s).kept = s.kept := by
  unfold enterWindow
  repeat' (first | with_reducible rfl | with_reducible assumption | (intro _ _) | (intro _) | exact trivial | simp only [kept_mk, kept_fold, kept_ite, ite_self, modJob_kept] | split | with_reducible refine kept_foldl _ _ ?_ ?_)

theorem putSource_kept (q : Seq) (pos tok : Nat) (s : State) : (putSource q pos tok s).kept = s.kept := by
  unfold putSource
  repeat' (first | with_reducible rfl | with_reducible assumption | (intro _ _) | (intro _) | exact trivial | simp only [kept_mk, kept_fold, kept_ite, ite_self] | split | with_reducible refine kept_foldl _ _ ?_ ?_)

theorem setPriority_kept (h p : Nat) (s : State) : (setPriority h p s).kept = s.kept := by
  unfold setPriority
  repeat' (first | with_reducible rfl | with_reducible assumption | (intro _ _) | (intro _) | exact trivial | simp only [kept_mk, kept_fold, kept_ite, ite_self, modSeq_kept] | split | with_reducible refine kept_foldl _ _ ?_ ?_)

theorem closeHandle_kept (h : Nat) (s : State) : (closeHandle h s).kept = s.kept := by
  unfold closeHandle
  repeat' (first | with_reducible rfl | with_reducible assumption | (intro _ _) | (intro _) | exact trivial | simp only [kept_mk, kept_fold, kept_ite, ite_self, closeSeq_kept] | split | with_reducible refine kept_foldl _ _ ?_ ?_)

theorem cancelDeadline_kept (h st : Nat) (s : State) : (cancelDeadline h st s).kept = s.kept := by
  unfold cancelDeadline
  repeat' (first | with_reducible rfl | with_reducible assumption | (intro _ _) | (intro _) | exact trivial | simp only [kept_mk, kept_fold, kept_ite, ite_self, modSlot_kept, freeSlot_kept] | split | with_reducible refine kept_foldl _ _ ?_ ?_)

theorem moveSlow_kept (l : Line) (cause step st : Nat) (s : State) : (moveSlow l cause step st s).kept = s.kept := by
  unfold moveSlow
  repeat' (first | with_reducible rfl | with_reducible assumption | (intro _ _) | (intro _) | exact trivial | simp only [kept_mk, kept_fold, kept_ite, ite_self, cancelDeadline_kept, enterWindow_kept, setPriority_kept, modLine_kept, servEvent_kept, servCount_kept] | split | with_reducible refine kept_foldl _ _ ?_ ?_)

theorem openLine_kept (j : Nat) (o : OpenLine) (s : State) : (openLine j o s).kept = s.kept := by
  unfold openLine
  repeat' (first | with_reducible rfl | with_reducible assumption | (intro _ _) | (intro _) | exact trivial | simp only [kept_mk, kept_fold, kept_ite, ite_self, openSeq_kept, putSource_kept] | split | with_reducible refine kept_foldl _ _ ?_ ?_)

theorem joinLine_kept (j due : Nat) (l : Line) (s : State) : (joinLine j due l s).kept = s.kept := by
  unfold joinLine
  repeat' (first | with_reducible rfl | with_reducible assumption | (intro _ _) | (intro _) | exact trivial | simp only [kept_mk, kept_fold, kept_ite, ite_self, addSlot_kept, modLine_kept] | split | with_reducible refine kept_foldl _ _ ?_ ?_)

theorem joinLines_kept (j step due : Nat) (l : List Line) (b : Build) : (joinLines j step due l b).s.kept = b.s.kept := by
  induction l generalizing b with
  | nil => rfl
  | cons x l ih =>
    unfold joinLines
    repeat' (first | with_reducible rfl | simp only [ih, joinLine_kept, reserveSlabs_kept] | split)

theorem addPrefill_kept (j : Nat) (l : List Line) (b : Build) : (addPrefill j l b).s.kept = b.s.kept := by
  induction l generalizing b with
  | nil => rfl
  | cons x l ih =>
    unfold addPrefill
    repeat' (first | with_reducible rfl | simp only [ih] | split)

theorem addSlow_kept (j : Nat) (l : List Line) (b : Build) : (addSlow j l b).s.kept = b.s.kept := by
  induction l generalizing b with
  | nil => rfl
  | cons x l ih =>
    unfold addSlow
    repeat' (first | with_reducible rfl | simp only [ih] | split)

theorem fillDecode_kept (j step due : Nat) (s : State) : (fillDecode j step due s).s.kept = s.kept := by
  unfold fillDecode
  simp only [addSlow_kept, addPrefill_kept, joinLines_kept, kept_ite, reserveSlabs_kept, ite_self]

theorem writeLists_kept (j step : Nat) (p : StepPlan) (s : State) : (writeLists j step p s).kept = s.kept := by
  unfold writeLists
  repeat' (first | with_reducible rfl | with_reducible assumption | (intro _ _) | (intro _) | exact trivial | simp only [kept_mk, kept_fold, kept_ite, ite_self, writeCommons_kept] | split | with_reducible refine kept_foldl _ _ ?_ ?_)

theorem enterHandle_kept (step h : Nat) (recompute : Bool) (s : State) : (enterHandle step h recompute s).kept = s.kept := by
  unfold enterHandle
  repeat' (first | with_reducible rfl | with_reducible assumption | (intro _ _) | (intro _) | exact trivial | simp only [kept_mk, kept_fold, kept_ite, ite_self, enterSeq_kept] | split | with_reducible refine kept_foldl _ _ ?_ ?_)

theorem countSteps_kept (epoch : Nat) (b : Build) (s : State) : (countSteps epoch b s).kept = s.kept := by
  unfold countSteps
  repeat' (first | with_reducible rfl | with_reducible assumption | (intro _ _) | (intro _) | exact trivial | simp only [kept_mk, kept_fold, kept_ite, ite_self, modLine_kept] | split | with_reducible refine kept_foldl _ _ ?_ ?_)

theorem retireAccepted_kept (j : Nat) (s : State) : (retireAccepted j s).kept = s.kept := by
  unfold retireAccepted
  repeat' (first | with_reducible rfl | with_reducible assumption | (intro _ _) | (intro _) | exact trivial | simp only [kept_mk, kept_fold, kept_ite, ite_self, retireStep_kept, modJob_kept] | split | with_reducible refine kept_foldl _ _ ?_ ?_)

theorem postStep_kept (j step due start : Nat) (d : JobDecl) (p : StepPlan) (b : Build) (map : List (Option Nat)) :
    (postStep j step due start d p b map).kept = b.s.kept := by
  unfold postStep
  repeat' (first | with_reducible rfl | with_reducible assumption | (intro _ _) | simp only [servEvent_kept, servCount_kept, addSlot_kept, armTally_kept, setCount_kept, modJob_kept, countSteps_kept, retireAccepted_kept, enterHandle_kept, writeLists_kept, kept_mk, kept_fold, kept_ite, ite_self] | split | with_reducible refine kept_foldl _ _ ?_ ?_)

theorem moveExpired_kept (j : Nat) (s : State) : (moveExpired j s).kept = s.kept := by
  unfold moveExpired
  repeat' (first | with_reducible rfl | with_reducible assumption | (intro _ _) | (intro _) | exact trivial | simp only [kept_mk, kept_fold, kept_ite, ite_self, moveSlow_kept] | split | with_reducible refine kept_foldl _ _ ?_ ?_)

theorem buildStep_kept (j : Nat) (d : JobDecl) (p : StepPlan) (s : State) : (buildStep j d p s).kept = s.kept := by
  unfold buildStep
  repeat' (first | with_reducible rfl | with_reducible assumption | (intro _ _) | (intro _) | exact trivial | simp only [kept_mk, kept_fold, kept_ite, ite_self, openLine_kept, moveExpired_kept, adoptJob_kept, touchDie_kept, modJob_kept, postStep_kept, fillDecode_kept] | split | with_reducible refine kept_foldl _ _ ?_ ?_)

theorem execStepBuild_kept (dt j : Nat) (p : StepPlan) (s : State) : ∃ t, execStepBuild dt j p s = .next t ∧ t.kept = (advance dt s).kept := by
  unfold execStepBuild
  refine ⟨_, rfl, ?_⟩
  generalize advance dt s = s
  repeat' (first | with_reducible rfl | with_reducible assumption | (intro _ _) | (intro _) | exact trivial | simp only [kept_mk, kept_fold, kept_ite, ite_self, buildStep_kept] | split | with_reducible refine kept_foldl _ _ ?_ ?_)

theorem commitTokens_kept (l : Line) (toks : List Nat) (s : State) : (commitTokens l toks s).kept = s.kept := by
  unfold commitTokens
  repeat' (first | with_reducible rfl | with_reducible assumption | (intro _ _) | (intro _) | exact trivial | simp only [kept_mk, kept_fold, kept_ite, ite_self, putSource_kept, modSeq_kept] | split | with_reducible refine kept_foldl _ _ ?_ ?_)

theorem completeLine_kept (l : Line) (done : Nat) (s : State) : (completeLine l done s).kept = s.kept := by
  unfold completeLine
  repeat' (first | with_reducible rfl | with_reducible assumption | (intro _ _) | (intro _) | exact trivial | simp only [kept_mk, kept_fold, kept_ite, ite_self, enterWindow_kept, cancelDeadline_kept, closeHandle_kept, modLine_kept] | split | with_reducible refine kept_foldl _ _ ?_ ?_)

theorem textCount_kept (i n : Nat) (s : State) : (textCount i n s).kept = s.kept := by
  unfold textCount
  repeat' (first | with_reducible rfl | with_reducible assumption | (intro _ _) | (intro _) | exact trivial | simp only [kept_mk, kept_fold, kept_ite, ite_self] | split | with_reducible refine kept_foldl _ _ ?_ ?_)

theorem goOn_kept (l : Line) (step done : Nat) (s : State) : (goOn l step done s).kept = s.kept := by
  unfold goOn
  repeat' (first | with_reducible rfl | with_reducible assumption | (intro _ _) | (intro _) | exact trivial | simp only [kept_mk, kept_fold, kept_ite, ite_self, moveSlow_kept] | split | with_reducible refine kept_foldl _ _ ?_ ?_)

theorem moveLate_kept (j done : Nat) (s : State) : (moveLate j done s).kept = s.kept := by
  unfold moveLate
  repeat' (first | with_reducible rfl | with_reducible assumption | (intro _ _) | (intro _) | exact trivial | simp only [kept_mk, kept_fold, kept_ite, ite_self, moveSlow_kept] | split | with_reducible refine kept_foldl _ _ ?_ ?_)

theorem acceptLine_kept (j : Nat) (t : Step) (done : Nat) (r : RowsAt) (facts : List RowFact) (s : State) : (acceptLine j t done r facts s).kept = s.kept := by
  unfold acceptLine
  repeat' (first | with_reducible rfl | with_reducible assumption | (intro _ _) | (intro _) | exact trivial | simp only [kept_mk, kept_fold, kept_ite, ite_self, completeLine_kept, modLine_kept, commitTokens_kept, goOn_kept, textCount_kept, tokenize_kept] | split | with_reducible refine kept_foldl _ _ ?_ ?_)

theorem acceptPrefill_kept (e : Nat × Nat) (s : State) : (acceptPrefill e s).kept = s.kept := by
  unfold acceptPrefill
  repeat' (first | with_reducible rfl | with_reducible assumption | (intro _ _) | (intro _) | exact trivial | simp only [kept_mk, kept_fold, kept_ite, ite_self, modLine_kept, commitTokens_kept] | split | with_reducible refine kept_foldl _ _ ?_ ?_)

theorem acceptBatch_kept (j : Nat) (t : Step) (learn : Bool) (s : State) : (acceptBatch j t learn s).kept = s.kept := by
  unfold acceptBatch
  repeat' (first | with_reducible rfl | with_reducible assumption | (intro _ _) | (intro _) | exact trivial | simp only [kept_mk, kept_fold, kept_ite, ite_self, noteEpoch_kept] | split | with_reducible refine kept_foldl _ _ ?_ ?_)

theorem acceptStep_kept (j : Nat) (d : JobDecl) (t : Step) (facts : List (List RowFact)) (s : State) : (acceptStep j d t facts s).kept = s.kept := by
  unfold acceptStep
  repeat' (first | with_reducible rfl | with_reducible assumption | (intro _ _) | (intro _) | exact trivial | simp only [kept_mk, kept_fold, kept_ite, ite_self, moveLate_kept, acceptPrefill_kept, noteEpoch_kept, acceptLine_kept, modStep_kept, retireAccepted_kept, acceptBatch_kept] | split | with_reducible refine kept_foldl _ _ ?_ ?_)

theorem execAcceptance_kept (dt j : Nat) (facts : List (List RowFact)) (s : State) : ∃ t, execAcceptance dt j facts s = .next t ∧ t.kept = (advance dt s).kept := by
  unfold execAcceptance
  refine ⟨_, rfl, ?_⟩
  generalize advance dt s = s
  repeat' (first | with_reducible rfl | with_reducible assumption | (intro _ _) | (intro _) | exact trivial | simp only [kept_mk, kept_fold, kept_ite, ite_self, sweepSheets_kept, acceptStep_kept] | split | with_reducible refine kept_foldl _ _ ?_ ?_)

theorem execReleaseCheckTimeout_kept (dt id : Nat) (fields : List FieldValue) (s : State) : ∃ t, execReleaseCheckTimeout dt id fields s = .next t ∧ t.kept = (advance dt s).kept := by
  unfold execReleaseCheckTimeout
  refine ⟨_, rfl, ?_⟩
  generalize advance dt s = s
  repeat' (first | with_reducible rfl | with_reducible assumption | (intro _ _) | (intro _) | exact trivial | simp only [kept_mk, kept_fold, kept_ite, ite_self, moveSlow_kept, commitRecord_kept] | split | with_reducible refine kept_foldl _ _ ?_ ?_)

theorem lineUnread_kept (l : Line) (d : Nat) (s : State) : (lineUnread l d s).kept = s.kept := by
  unfold lineUnread
  repeat' (first | with_reducible rfl | with_reducible assumption | (intro _ _) | (intro _) | exact trivial | simp only [kept_mk, kept_fold, kept_ite, ite_self, modLine_kept, closeHandle_kept, servEvent_kept, servCount_kept] | split | with_reducible refine kept_foldl _ _ ?_ ?_)

theorem execSecondDeadlineTimeout_kept (dt id : Nat) (s : State) : ∃ t, execSecondDeadlineTimeout dt id s = .next t ∧ t.kept = (advance dt s).kept := by
  unfold execSecondDeadlineTimeout
  refine ⟨_, rfl, ?_⟩
  generalize advance dt s = s
  repeat' (first | with_reducible rfl | with_reducible assumption | (intro _ _) | (intro _) | exact trivial | simp only [kept_mk, kept_fold, kept_ite, ite_self, lineUnread_kept, sweepSheets_kept, commitAmendment_kept] | split | with_reducible refine kept_foldl _ _ ?_ ?_)

theorem execJobWaiting_kept (dt j : Nat) (s : State) : ∃ t, execJobWaiting dt j s = .next t ∧ t.kept = (advance dt s).kept := by
  unfold execJobWaiting
  refine ⟨_, rfl, ?_⟩
  generalize advance dt s = s
  repeat' (first | with_reducible rfl | with_reducible assumption | (intro _ _) | (intro _) | exact trivial | simp only [kept_mk, kept_fold, kept_ite, ite_self, servEvent_kept, modJob_kept] | split | with_reducible refine kept_foldl _ _ ?_ ?_)

theorem watchTargets_kept (s : State) : (watchTargets s).kept = s.kept := by
  unfold watchTargets
  repeat' (first | with_reducible rfl | with_reducible assumption | (intro _ _) | (intro _) | exact trivial | simp only [kept_mk, kept_fold, kept_ite, ite_self, dropSlots_kept, addSlot_kept] | split | with_reducible refine kept_foldl _ _ ?_ ?_)

theorem execLearningTargetExpiry_kept (dt : Nat) (s : State) : ∃ t, execLearningTargetExpiry dt s = .next t ∧ t.kept = (advance dt s).kept := by
  unfold execLearningTargetExpiry
  refine ⟨_, rfl, ?_⟩
  generalize advance dt s = s
  repeat' (first | with_reducible rfl | with_reducible assumption | (intro _ _) | (intro _) | exact trivial | simp only [kept_mk, kept_fold, kept_ite, ite_self, watchTargets_kept, servEvent_kept] | split | with_reducible refine kept_foldl _ _ ?_ ?_)

theorem jobStatusBody_kept (p : Packet) (s : State) : ((jobStatusBody p s).after s).kept = s.kept := by
  unfold jobStatusBody
  repeat' (first | with_reducible rfl | with_reducible assumption | (intro _ _) | (intro _) | exact trivial | simp only [after_ok, after_refuse, after_refuseWith, after_ite, kept_mk, kept_fold, kept_ite, ite_self] | split | with_reducible refine kept_foldl _ _ ?_ ?_)

theorem lineQueryBody_kept (p : Packet) (s : State) : ((lineQueryBody p s).after s).kept = s.kept := by
  unfold lineQueryBody
  repeat' (first | with_reducible rfl | with_reducible assumption | (intro _ _) | (intro _) | exact trivial | simp only [after_ok, after_refuse, after_refuseWith, after_ite, kept_mk, kept_fold, kept_ite, ite_self] | split | with_reducible refine kept_foldl _ _ ?_ ?_)

theorem learnPostBody_kept (p : Packet) (s : State) : ((learnPostBody p s).after s).kept = s.kept := by
  unfold learnPostBody
  repeat' (first | with_reducible rfl | with_reducible assumption | (intro _ _) | (intro _) | exact trivial | simp only [after_ok, after_refuse, after_refuseWith, after_ite, kept_mk, kept_fold, kept_ite, ite_self, watchTargets_kept] | split | with_reducible refine kept_foldl _ _ ?_ ?_)

theorem learnControlBody_kept (p : Packet) (s : State) : ((learnControlBody p s).after s).kept = s.kept := by
  unfold learnControlBody
  repeat' (first | with_reducible rfl | with_reducible assumption | (intro _ _) | (intro _) | exact trivial | simp only [after_ok, after_refuse, after_refuseWith, after_ite, kept_mk, kept_fold, kept_ite, ite_self, modJob_kept] | split | with_reducible refine kept_foldl _ _ ?_ ?_)

theorem execJobStatus_kept (dt : Nat) (h : Hdr) (p : Bytes) (s : State) : ∃ t, execJobStatus dt h p s = .next t ∧ t.kept = (advance dt s).kept :=
  hostRow_kept _ _ (fun p s => jobStatusBody_kept p s) dt h p s

theorem execLineQuery_kept (dt : Nat) (h : Hdr) (p : Bytes) (s : State) : ∃ t, execLineQuery dt h p s = .next t ∧ t.kept = (advance dt s).kept :=
  hostRow_kept _ _ (fun p s => lineQueryBody_kept p s) dt h p s

theorem execLearnPost_kept (dt : Nat) (h : Hdr) (p : Bytes) (s : State) : ∃ t, execLearnPost dt h p s = .next t ∧ t.kept = (advance dt s).kept :=
  hostRow_kept _ _ (fun p s => learnPostBody_kept p s) dt h p s

theorem execLearnControl_kept (dt : Nat) (h : Hdr) (p : Bytes) (s : State) : ∃ t, execLearnControl dt h p s = .next t ∧ t.kept = (advance dt s).kept :=
  hostRow_kept _ _ (fun p s => learnControlBody_kept p s) dt h p s

end Sys2Proof.Machine
end

