-- ==== Sys2Proof/Laws/KeptDebug.lean ====
section
/-! SUPPORT. What Debug.lean keeps. -/
set_option linter.unusedSimpArgs false
set_option linter.unusedVariables false
set_option linter.unusedTactic false
set_option linter.unreachableTactic false
namespace Sys2Proof.Machine

theorem regClear_kept (a : Nat) (s : State) : (regClear a s).kept = s.kept := by
  unfold regClear
  repeat' (first | with_reducible rfl | with_reducible assumption | (intro _ _) | (intro _) | exact trivial | simp only [kept_mk, kept_fold, kept_ite, ite_self, modCore_kept, modTx_kept, modChan_kept] | split | with_reducible refine kept_foldl _ _ ?_ ?_)

theorem regWrite_kept (a v : Nat) (s : State) : (regWrite a v s).kept = s.kept := by
  unfold regWrite
  repeat' (first | with_reducible rfl | with_reducible assumption | (intro _ _) | (intro _) | exact trivial | simp only [kept_mk, kept_fold, kept_ite, ite_self, modSlabs_kept] | split | with_reducible refine kept_foldl _ _ ?_ ?_)

theorem modJtag_kept (f : Jtag → Jtag) (s : State) : (modJtag f s).kept = s.kept := by
  unfold modJtag
  repeat' (first | with_reducible rfl | with_reducible assumption | (intro _ _) | (intro _) | exact trivial | simp only [kept_mk, kept_fold, kept_ite, ite_self] | split | with_reducible refine kept_foldl _ _ ?_ ?_)

theorem regRead_kept (a : Nat) (s : State) : (regRead a s).kept = s.kept := by
  unfold regRead
  repeat' (first | with_reducible rfl | with_reducible assumption | (intro _ _) | (intro _) | exact trivial | simp only [kept_mk, kept_fold, kept_ite, ite_self, modJtag_kept, regClear_kept, draw_kept] | split | with_reducible refine kept_foldl _ _ ?_ ?_)

theorem regStore_kept (a v : Nat) (s : State) : (regStore a v s).kept = s.kept := by
  unfold regStore
  repeat' (first | with_reducible rfl | with_reducible assumption | (intro _ _) | (intro _) | exact trivial | simp only [kept_mk, kept_fold, kept_ite, ite_self, modJtag_kept, regWrite_kept] | split | with_reducible refine kept_foldl _ _ ?_ ?_)

theorem frzReadBody_kept (p : Packet) (s : State) : ((frzReadBody p s).after s).kept = s.kept := by
  unfold frzReadBody
  repeat' (first | with_reducible rfl | with_reducible assumption | (intro _ _) | (intro _) | exact trivial | simp only [after_ok, after_refuse, after_refuseWith, after_ite, kept_mk, kept_fold, kept_ite, ite_self, modJtag_kept] | split | with_reducible refine kept_foldl _ _ ?_ ?_)

theorem execFrzRead_kept (dt : Nat) (h : Hdr) (p : Bytes) (s : State) : ∃ t, execFrzRead dt h p s = .next t ∧ t.kept = (advance dt s).kept :=
  hostRow_kept _ _ (fun p s => frzReadBody_kept p s) dt h p s

theorem regRow_kept (a dt : Nat) (s : State) : ∃ t, regRow a dt s = .next t ∧ t.kept = (advance dt s).kept := ⟨_, rfl, regRead_kept _ _⟩

theorem execTimeTbLo_kept (dt : Nat) (s : State) : ∃ t, execTimeTbLo dt s = .next t ∧ t.kept = (advance dt s).kept := by
  unfold execTimeTbLo
  first | exact regRow_kept _ _ _ | (split; exact regRow_kept _ _ _; exact ⟨_, rfl, rfl⟩)

theorem execTimeFcStatus_kept (dt : Nat) (s : State) : ∃ t, execTimeFcStatus dt s = .next t ∧ t.kept = (advance dt s).kept := by
  unfold execTimeFcStatus
  first | exact regRow_kept _ _ _ | (split; exact regRow_kept _ _ _; exact ⟨_, rfl, rfl⟩)

theorem execIntkPortErr_kept (dt port : Nat) (s : State) : ∃ t, execIntkPortErr dt port s = .next t ∧ t.kept = (advance dt s).kept := by
  unfold execIntkPortErr
  first | exact regRow_kept _ _ _ | (split; exact regRow_kept _ _ _; exact ⟨_, rfl, rfl⟩)

theorem execCoreNumEvt_kept (dt : Nat) (s : State) : ∃ t, execCoreNumEvt dt s = .next t ∧ t.kept = (advance dt s).kept := by
  unfold execCoreNumEvt
  first | exact regRow_kept _ _ _ | (split; exact regRow_kept _ _ _; exact ⟨_, rfl, rfl⟩)

theorem execTextGmu_kept (dt : Nat) (s : State) : ∃ t, execTextGmu dt s = .next t ∧ t.kept = (advance dt s).kept := by
  unfold execTextGmu
  first | exact regRow_kept _ _ _ | (split; exact regRow_kept _ _ _; exact ⟨_, rfl, rfl⟩)

theorem execOutPortStat_kept (dt port : Nat) (s : State) : ∃ t, execOutPortStat dt port s = .next t ∧ t.kept = (advance dt s).kept := by
  unfold execOutPortStat
  first | exact regRow_kept _ _ _ | (split; exact regRow_kept _ _ _; exact ⟨_, rfl, rfl⟩)

theorem execCmdChan_kept (dt : Nat) (s : State) : ∃ t, execCmdChan dt s = .next t ∧ t.kept = (advance dt s).kept := by
  unfold execCmdChan
  first | exact regRow_kept _ _ _ | (split; exact regRow_kept _ _ _; exact ⟨_, rfl, rfl⟩)

theorem execCmdIf_kept (dt : Nat) (s : State) : ∃ t, execCmdIf dt s = .next t ∧ t.kept = (advance dt s).kept := by
  unfold execCmdIf
  first | exact regRow_kept _ _ _ | (split; exact regRow_kept _ _ _; exact ⟨_, rfl, rfl⟩)

theorem execPwrWakeCause_kept (dt : Nat) (s : State) : ∃ t, execPwrWakeCause dt s = .next t ∧ t.kept = (advance dt s).kept := by
  unfold execPwrWakeCause
  first | exact regRow_kept _ _ _ | (split; exact regRow_kept _ _ _; exact ⟨_, rfl, rfl⟩)

theorem execFltEcc_kept (dt : Nat) (s : State) : ∃ t, execFltEcc dt s = .next t ∧ t.kept = (advance dt s).kept := by
  unfold execFltEcc
  first | exact regRow_kept _ _ _ | (split; exact regRow_kept _ _ _; exact ⟨_, rfl, rfl⟩)

theorem execPinClkStat_kept (dt : Nat) (s : State) : ∃ t, execPinClkStat dt s = .next t ∧ t.kept = (advance dt s).kept := by
  unfold execPinClkStat
  first | exact regRow_kept _ _ _ | (split; exact regRow_kept _ _ _; exact ⟨_, rfl, rfl⟩)

theorem execDebugRegisterWrite_kept (dt addr : Nat) (v : Word) (s : State) : ∃ t, execDebugRegisterWrite dt addr v s = .next t ∧ t.kept = (advance dt s).kept := by
  unfold execDebugRegisterWrite
  refine ⟨_, rfl, ?_⟩
  generalize advance dt s = s
  repeat' (first | with_reducible rfl | with_reducible assumption | (intro _ _) | (intro _) | exact trivial | simp only [kept_mk, kept_fold, kept_ite, ite_self, regStore_kept] | split | with_reducible refine kept_foldl _ _ ?_ ?_)

theorem setInstr_kept (i : JtagInstr) (s : State) : (setInstr i s).kept = s.kept := by
  unfold setInstr
  repeat' (first | with_reducible rfl | with_reducible assumption | (intro _ _) | (intro _) | exact trivial | simp only [kept_mk, kept_fold, kept_ite, ite_self, modJtag_kept] | split | with_reducible refine kept_foldl _ _ ?_ ?_)

theorem execFrzAddr_kept (dt : Nat) (a : DWord) (s : State) : ∃ t, execFrzAddr dt a s = .next t ∧ t.kept = (advance dt s).kept := by
  unfold execFrzAddr
  refine ⟨_, rfl, ?_⟩
  generalize advance dt s = s
  repeat' (first | with_reducible rfl | with_reducible assumption | (intro _ _) | (intro _) | exact trivial | simp only [kept_mk, kept_fold, kept_ite, ite_self, setInstr_kept, modJtag_kept] | split | with_reducible refine kept_foldl _ _ ?_ ?_)

theorem execFrzData_kept (dt : Nat) (s : State) : ∃ t, execFrzData dt s = .next t ∧ t.kept = (advance dt s).kept := by
  unfold execFrzData
  refine ⟨_, rfl, ?_⟩
  generalize advance dt s = s
  repeat' (first | with_reducible rfl | with_reducible assumption | (intro _ _) | (intro _) | exact trivial | simp only [kept_mk, kept_fold, kept_ite, ite_self, setInstr_kept, modJtag_kept] | split | with_reducible refine kept_foldl _ _ ?_ ?_)

theorem execFrzStat_kept (dt : Nat) (s : State) : ∃ t, execFrzStat dt s = .next t ∧ t.kept = (advance dt s).kept := by
  unfold execFrzStat
  refine ⟨_, rfl, ?_⟩
  generalize advance dt s = s
  repeat' (first | with_reducible rfl | with_reducible assumption | (intro _ _) | (intro _) | exact trivial | simp only [kept_mk, kept_fold, kept_ite, ite_self, setInstr_kept, modJtag_kept] | split | with_reducible refine kept_foldl _ _ ?_ ?_)

theorem execFrzReset_kept (dt : Nat) (s : State) : ∃ t, execFrzReset dt s = .next t ∧ t.kept = (advance dt s).kept := by
  unfold execFrzReset
  refine ⟨_, rfl, ?_⟩
  generalize advance dt s = s
  repeat' (first | with_reducible rfl | with_reducible assumption | (intro _ _) | (intro _) | exact trivial | simp only [kept_mk, kept_fold, kept_ite, ite_self, setInstr_kept, askBoot_kept] | split | with_reducible refine kept_foldl _ _ ?_ ?_)

theorem execDbgAddr_kept (dt addr : Nat) (s : State) : ∃ t, execDbgAddr dt addr s = .next t ∧ t.kept = (advance dt s).kept := by
  unfold execDbgAddr
  refine ⟨_, rfl, ?_⟩
  generalize advance dt s = s
  repeat' (first | with_reducible rfl | with_reducible assumption | (intro _ _) | (intro _) | exact trivial | simp only [kept_mk, kept_fold, kept_ite, ite_self, modJtag_kept, setInstr_kept] | split | with_reducible refine kept_foldl _ _ ?_ ?_)

theorem execDbgData_kept (dt : Nat) (write : Bool) (v : Word) (s : State) : ∃ t, execDbgData dt write v s = .next t ∧ t.kept = (advance dt s).kept := by
  unfold execDbgData
  refine ⟨_, rfl, ?_⟩
  generalize advance dt s = s
  repeat' (first | with_reducible rfl | with_reducible assumption | (intro _ _) | (intro _) | exact trivial | simp only [kept_mk, kept_fold, kept_ite, ite_self, setInstr_kept, regRead_kept, regStore_kept] | split | with_reducible refine kept_foldl _ _ ?_ ?_)

theorem execBypass_kept (dt : Nat) (tdi : Bool) (s : State) : ∃ t, execBypass dt tdi s = .next t ∧ t.kept = (advance dt s).kept := by
  unfold execBypass
  refine ⟨_, rfl, ?_⟩
  generalize advance dt s = s
  repeat' (first | with_reducible rfl | with_reducible assumption | (intro _ _) | (intro _) | exact trivial | simp only [kept_mk, kept_fold, kept_ite, ite_self, modJtag_kept, setInstr_kept] | split | with_reducible refine kept_foldl _ _ ?_ ?_)

theorem execIdcode_kept (dt : Nat) (s : State) : ∃ t, execIdcode dt s = .next t ∧ t.kept = (advance dt s).kept := by
  unfold execIdcode
  refine ⟨_, rfl, ?_⟩
  generalize advance dt s = s
  repeat' (first | with_reducible rfl | with_reducible assumption | (intro _ _) | (intro _) | exact trivial | simp only [kept_mk, kept_fold, kept_ite, ite_self, modJtag_kept, setInstr_kept] | split | with_reducible refine kept_foldl _ _ ?_ ?_)

theorem scanCells_kept (i : JtagInstr) (cells : BitVec 16) (s : State) : (scanCells i cells s).kept = s.kept := by
  unfold scanCells
  repeat' (first | with_reducible rfl | with_reducible assumption | (intro _ _) | (intro _) | exact trivial | simp only [kept_mk, kept_fold, kept_ite, ite_self, modJtag_kept] | split | with_reducible refine kept_foldl _ _ ?_ ?_)

theorem execSamplePreload_kept (dt : Nat) (cells : BitVec 16) (s : State) : ∃ t, execSamplePreload dt cells s = .next t ∧ t.kept = (advance dt s).kept := by
  unfold execSamplePreload
  refine ⟨_, rfl, ?_⟩
  generalize advance dt s = s
  repeat' (first | with_reducible rfl | with_reducible assumption | (intro _ _) | (intro _) | exact trivial | simp only [kept_mk, kept_fold, kept_ite, ite_self, scanCells_kept] | split | with_reducible refine kept_foldl _ _ ?_ ?_)

theorem execExtest_kept (dt : Nat) (cells : BitVec 16) (s : State) : ∃ t, execExtest dt cells s = .next t ∧ t.kept = (advance dt s).kept := by
  unfold execExtest
  refine ⟨_, rfl, ?_⟩
  generalize advance dt s = s
  repeat' (first | with_reducible rfl | with_reducible assumption | (intro _ _) | (intro _) | exact trivial | simp only [kept_mk, kept_fold, kept_ite, ite_self, scanCells_kept] | split | with_reducible refine kept_foldl _ _ ?_ ?_)

theorem execExtestPulse_kept (dt : Nat) (cells : BitVec 16) (s : State) : ∃ t, execExtestPulse dt cells s = .next t ∧ t.kept = (advance dt s).kept := by
  unfold execExtestPulse
  refine ⟨_, rfl, ?_⟩
  generalize advance dt s = s
  repeat' (first | with_reducible rfl | with_reducible assumption | (intro _ _) | (intro _) | exact trivial | simp only [kept_mk, kept_fold, kept_ite, ite_self, scanCells_kept] | split | with_reducible refine kept_foldl _ _ ?_ ?_)

theorem execExtestTrain_kept (dt : Nat) (cells : BitVec 16) (s : State) : ∃ t, execExtestTrain dt cells s = .next t ∧ t.kept = (advance dt s).kept := by
  unfold execExtestTrain
  refine ⟨_, rfl, ?_⟩
  generalize advance dt s = s
  repeat' (first | with_reducible rfl | with_reducible assumption | (intro _ _) | (intro _) | exact trivial | simp only [kept_mk, kept_fold, kept_ite, ite_self, scanCells_kept] | split | with_reducible refine kept_foldl _ _ ?_ ?_)

end Sys2Proof.Machine
end

