-- ==== Sys2Proof/Laws/KeptImageLoad.lean ====
section
/-! SUPPORT. What ImageLoad.lean keeps. -/
set_option linter.unusedSimpArgs false
set_option linter.unusedVariables false
set_option linter.unusedTactic false
set_option linter.unreachableTactic false
namespace Sys2Proof.Machine

theorem dropPrefixes_kept (s : State) : (dropPrefixes s).kept = s.kept := by
  unfold dropPrefixes
  repeat' (first | with_reducible rfl | with_reducible assumption | (intro _ _) | (intro _) | exact trivial | simp only [kept_mk, kept_fold, kept_ite, ite_self, dropPrefix_kept] | split | with_reducible refine kept_foldl _ _ ?_ ?_)

theorem loadImage_kept (i : Image) (s : State) : (loadImage i s).kept = s.kept := by
  unfold loadImage
  repeat' (first | with_reducible rfl | with_reducible assumption | (intro _ _) | (intro _) | exact trivial | simp only [kept_mk, kept_fold, kept_ite, ite_self, dropPrefixes_kept, reloadCommons_kept, reloadResident_kept] | split | with_reducible refine kept_foldl _ _ ?_ ?_)

theorem noteImage_kept (slot : Nat) (c : Bytes) (s : State) : (noteImage slot c s).kept = s.kept := by
  unfold noteImage
  repeat' (first | with_reducible rfl | with_reducible assumption | (intro _ _) | (intro _) | exact trivial | simp only [kept_mk, kept_fold, kept_ite, ite_self] | split | with_reducible refine kept_foldl _ _ ?_ ?_)

theorem execImageCommit_kept (dt : Nat) (h : Hdr) (p : Bytes) (s : State) : ∃ t, execImageCommit dt h p s = .next t ∧ t.kept = (advance dt s).kept :=
  hostRow_kept _ _ (fun p s => imageCommitBody_kept _ p s) dt h p s

end Sys2Proof.Machine
end

