-- ==== Sys2Proof/Laws/KeptTwinOps.lean ====
section
/-! SUPPORT. What TwinOps.lean keeps. -/
set_option linter.unusedSimpArgs false
set_option linter.unusedVariables false
set_option linter.unusedTactic false
set_option linter.unreachableTactic false
namespace Sys2Proof.Machine

theorem modTwin_kept (f : Twin → Twin) (s : State) : (modTwin f s).kept = s.kept := by
  unfold modTwin
  repeat' (first | with_reducible rfl | with_reducible assumption | (intro _ _) | (intro _) | exact trivial | simp only [kept_mk, kept_fold, kept_ite, ite_self] | split | with_reducible refine kept_foldl _ _ ?_ ?_)

theorem setRole_kept (n : Nat) (s : State) : (setRole n s).kept = s.kept := by
  unfold setRole
  repeat' (first | with_reducible rfl | with_reducible assumption | (intro _ _) | (intro _) | exact trivial | simp only [kept_mk, kept_fold, kept_ite, ite_self, funcPins_kept, fltEvent_kept, modTwin_kept] | split | with_reducible refine kept_foldl _ _ ?_ ?_)

theorem setPartner_kept (s : State) : (setPartner s).kept = s.kept := by
  unfold setPartner
  repeat' (first | with_reducible rfl | with_reducible assumption | (intro _ _) | (intro _) | exact trivial | simp only [kept_mk, kept_fold, kept_ite, ite_self, fltEvent_kept, modTwin_kept] | split | with_reducible refine kept_foldl _ _ ?_ ?_)

theorem settleTwin_kept (s : State) : (settleTwin s).kept = s.kept := by
  unfold settleTwin
  repeat' (first | with_reducible rfl | with_reducible assumption | (intro _ _) | (intro _) | exact trivial | simp only [kept_mk, kept_fold, kept_ite, ite_self, setPartner_kept, setRole_kept] | split | with_reducible refine kept_foldl _ _ ?_ ?_)

theorem postJudge_kept (u : SlotUse) (st : Nat) (s : State) : (postJudge u st s).kept = s.kept := by
  unfold postJudge
  repeat' (first | with_reducible rfl | with_reducible assumption | (intro _ _) | (intro _) | exact trivial | simp only [kept_mk, kept_fold, kept_ite, ite_self, modSlot_kept, freeSlot_kept, addSlot_kept] | split | with_reducible refine kept_foldl _ _ ?_ ?_)

theorem startLink_kept (s : State) : (startLink s).kept = s.kept := by
  unfold startLink
  repeat' (first | with_reducible rfl | with_reducible assumption | (intro _ _) | (intro _) | exact trivial | simp only [kept_mk, kept_fold, kept_ite, ite_self, mirror_kept, modTwin_kept] | split | with_reducible refine kept_foldl _ _ ?_ ?_)

theorem mirrorAdapters_kept (reading learn : Nat) (s : State) : (mirrorAdapters reading learn s).kept = s.kept := by
  unfold mirrorAdapters
  repeat' (first | with_reducible rfl | with_reducible assumption | (intro _ _) | (intro _) | exact trivial | simp only [kept_mk, kept_fold, kept_ite, ite_self, draw_kept, mirror_kept] | split | with_reducible refine kept_foldl _ _ ?_ ?_)

theorem mirrorAgain_kept (r : OutRecord) (s : State) : (mirrorAgain r s).kept = s.kept := by
  unfold mirrorAgain
  repeat' (first | with_reducible rfl | with_reducible assumption | (intro _ _) | (intro _) | exact trivial | simp only [kept_mk, kept_fold, kept_ite, ite_self, mirror_kept, modRecord_kept] | split | with_reducible refine kept_foldl _ _ ?_ ?_)

theorem sendSnapshot_kept (s : State) : (sendSnapshot s).kept = s.kept := by
  unfold sendSnapshot
  repeat' (first | with_reducible rfl | with_reducible assumption | (intro _ _) | (intro _) | exact trivial | simp only [kept_mk, kept_fold, kept_ite, ite_self, mirror_kept, mirrorAdapters_kept, mirrorAgain_kept, modTwin_kept] | split | with_reducible refine kept_foldl _ _ ?_ ?_)

theorem noticeSide_kept (m : MirroredSide) (s : State) : (noticeSide m s).kept = s.kept := by
  unfold noticeSide
  repeat' (first | with_reducible rfl | with_reducible assumption | (intro _ _) | (intro _) | exact trivial | simp only [kept_mk, kept_fold, kept_ite, ite_self] | split | with_reducible refine kept_foldl _ _ ?_ ?_)

theorem queueRetained_kept (r : Retained) (s : State) : (queueRetained r s).kept = s.kept := by
  unfold queueRetained
  repeat' (first | with_reducible rfl | with_reducible assumption | (intro _ _) | (intro _) | exact trivial | simp only [kept_mk, kept_fold, kept_ite, ite_self, modEntries_kept] | split | with_reducible refine kept_foldl _ _ ?_ ?_)

theorem openBody_kept (op : Nat) (p : Packet) (s : State) : ((openBody op p s).after s).kept = s.kept := by
  unfold openBody
  split
  · exact streamOpenBody_kept p s
  · split
    · exact flatLoadBody_kept p s
    · exact speedSetBody_kept p s

theorem takeOver_kept (s : State) : (takeOver s).kept = s.kept := by
  unfold takeOver
  repeat' (first | with_reducible rfl | with_reducible assumption | (intro _ _) | (intro _) | exact trivial | simp only [kept_mk, kept_fold, kept_ite, ite_self, setRole_kept, noticeSide_kept, queueRetained_kept, modTwin_kept, runPacket_kept, openBody_kept] | split | with_reducible refine kept_foldl _ _ ?_ ?_ | exact runPacket_kept _ _ _ (fun p s => openBody_kept p s) | exact runPacket_kept _ _ _ (fun p s => openBody_kept _ p s) | exact receive_kept _ _ _ (fun p s => openBody_kept p s) | exact receive_kept _ _ _ (fun p s => openBody_kept _ p s))

theorem twinStatusBody_kept (p : Packet) (s : State) : ((twinStatusBody p s).after s).kept = s.kept := by
  unfold twinStatusBody
  repeat' (first | with_reducible rfl | with_reducible assumption | (intro _ _) | (intro _) | exact trivial | simp only [after_ok, after_refuse, after_refuseWith, after_ite, kept_mk, kept_fold, kept_ite, ite_self] | split | with_reducible refine kept_foldl _ _ ?_ ?_)

theorem twinTakeoverBody_kept (p : Packet) (s : State) : ((twinTakeoverBody p s).after s).kept = s.kept := by
  unfold twinTakeoverBody
  repeat' (first | with_reducible rfl | with_reducible assumption | (intro _ _) | (intro _) | exact trivial | simp only [after_ok, after_refuse, after_refuseWith, after_ite, kept_mk, kept_fold, kept_ite, ite_self, takeOver_kept] | split | with_reducible refine kept_foldl _ _ ?_ ?_)

theorem twinHandoverBody_kept (p : Packet) (s : State) : ((twinHandoverBody p s).after s).kept = s.kept := by
  unfold twinHandoverBody
  repeat' (first | with_reducible rfl | with_reducible assumption | (intro _ _) | (intro _) | exact trivial | simp only [after_ok, after_refuse, after_refuseWith, after_ite, kept_mk, kept_fold, kept_ite, ite_self, modTwin_kept] | split | with_reducible refine kept_foldl _ _ ?_ ?_)

theorem execTwinStatus_kept (dt : Nat) (h : Hdr) (p : Bytes) (s : State) : ∃ t, execTwinStatus dt h p s = .next t ∧ t.kept = (advance dt s).kept :=
  hostRow_kept _ _ (fun p s => twinStatusBody_kept p s) dt h p s

theorem execTwinTakeover_kept (dt : Nat) (h : Hdr) (p : Bytes) (s : State) : ∃ t, execTwinTakeover dt h p s = .next t ∧ t.kept = (advance dt s).kept :=
  hostRow_kept _ _ (fun p s => twinTakeoverBody_kept p s) dt h p s

theorem execTwinHandover_kept (dt : Nat) (h : Hdr) (p : Bytes) (s : State) : ∃ t, execTwinHandover dt h p s = .next t ∧ t.kept = (advance dt s).kept :=
  hostRow_kept _ _ (fun p s => twinHandoverBody_kept p s) dt h p s

end Sys2Proof.Machine
end

