-- ==== Sys2Proof/Laws/KeptDeadline.lean ====
section
/-! SUPPORT. What Deadline.lean keeps. -/
set_option linter.unusedSimpArgs false
set_option linter.unusedVariables false
set_option linter.unusedTactic false
set_option linter.unreachableTactic false
namespace Sys2Proof.Machine

theorem edgeTimedOut_kept (k d : Nat) (s : State) : (edgeTimedOut k d s).kept = s.kept := by
  unfold edgeTimedOut
  repeat' (first | with_reducible rfl | with_reducible assumption | (intro _ _) | (intro _) | exact trivial | simp only [kept_mk, kept_fold, kept_ite, ite_self, intakeDiscard_kept] | split | with_reducible refine kept_foldl _ _ ?_ ?_)

theorem timedOut_kept (sl : Slot) (s : State) : (timedOut sl s).kept = s.kept := by
  unfold timedOut
  repeat' (first | with_reducible rfl | with_reducible assumption | (intro _ _) | (intro _) | exact trivial | simp only [kept_mk, kept_fold, kept_ite, ite_self, edgeTimedOut_kept, modSheet_kept, modLine_kept, settleTwin_kept, modTwin_kept] | split | with_reducible refine kept_foldl _ _ ?_ ?_)

theorem evaluateDeadline_kept (n : Nat) (sl : Slot) (s : State) : (evaluateDeadline n sl s).kept = s.kept := by
  unfold evaluateDeadline
  repeat' (first | with_reducible rfl | with_reducible assumption | (intro _ _) | (intro _) | exact trivial | simp only [kept_mk, kept_fold, kept_ite, ite_self, timedOut_kept, signalTally_kept, finishAt_kept] | split | with_reducible refine kept_foldl _ _ ?_ ?_)

theorem execDeadline_kept (dt n : Nat) (s : State) : ∃ t, execDeadline dt n s = .next t ∧ t.kept = (advance dt s).kept := by
  unfold execDeadline
  refine ⟨_, rfl, ?_⟩
  generalize advance dt s = s
  repeat' (first | with_reducible rfl | with_reducible assumption | (intro _ _) | (intro _) | exact trivial | simp only [kept_mk, kept_fold, kept_ite, ite_self, evaluateDeadline_kept] | split | with_reducible refine kept_foldl _ _ ?_ ?_)

end Sys2Proof.Machine
end

