-- ==== Sys2Proof/Laws/KeptI3c.lean ====
section
/-! SUPPORT. What I3c.lean keeps. -/
set_option linter.unusedSimpArgs false
set_option linter.unusedVariables false
set_option linter.unusedTactic false
set_option linter.unreachableTactic false
namespace Sys2Proof.Machine

theorem modCmd_kept (f : Command → Command) (s : State) (h : ∀ c, (f c).staticAddr = c.staticAddr) : (modCmd f s).kept = s.kept := by
  unfold modCmd
  simp only [kept_mk, h, kept_fold]

theorem assign_kept (a : Nat) (s : State) : (assign a s).kept = s.kept := by
  unfold assign
  repeat' (first | with_reducible rfl | with_reducible assumption | (intro _ _) | (intro _) | exact trivial | simp only [kept_mk, kept_fold, kept_ite, ite_self, modCmd_kept] | split | with_reducible refine kept_foldl _ _ ?_ ?_ | (rw [modCmd_kept] <;> first | (intro _; rfl) | skip) | (rw [broadcast_kept] <;> first | (intro _; rfl) | skip))

theorem execEntdaa_kept (dt a : Nat) (s : State) : ∃ t, execEntdaa dt a s = .next t ∧ t.kept = (advance dt s).kept := by
  unfold execEntdaa
  refine ⟨_, rfl, ?_⟩
  generalize advance dt s = s
  repeat' (first | with_reducible rfl | with_reducible assumption | (intro _ _) | (intro _) | exact trivial | simp only [kept_mk, kept_fold, kept_ite, ite_self, assign_kept] | split | with_reducible refine kept_foldl _ _ ?_ ?_)

theorem execSetdasa_kept (dt a : Nat) (s : State) : ∃ t, execSetdasa dt a s = .next t ∧ t.kept = (advance dt s).kept := by
  unfold execSetdasa
  refine ⟨_, rfl, ?_⟩
  generalize advance dt s = s
  repeat' (first | with_reducible rfl | with_reducible assumption | (intro _ _) | (intro _) | exact trivial | simp only [kept_mk, kept_fold, kept_ite, ite_self, assign_kept] | split | with_reducible refine kept_foldl _ _ ?_ ?_)

theorem broadcast_kept (f : Command → Command) (s : State) (h : ∀ c, (f c).staticAddr = c.staticAddr) : (broadcast f s).kept = s.kept := by
  unfold broadcast
  split
  · exact modCmd_kept f s h
  · rfl

theorem execRstdaa_kept (dt : Nat) (s : State) : ∃ t, execRstdaa dt s = .next t ∧ t.kept = (advance dt s).kept := by
  unfold execRstdaa
  refine ⟨_, rfl, ?_⟩
  generalize advance dt s = s
  repeat' (first | with_reducible rfl | with_reducible assumption | (intro _ _) | (intro _) | exact trivial | simp only [kept_mk, kept_fold, kept_ite, ite_self, broadcast_kept] | split | with_reducible refine kept_foldl _ _ ?_ ?_ | (rw [modCmd_kept] <;> first | (intro _; rfl) | skip) | (rw [broadcast_kept] <;> first | (intro _; rfl) | skip))

theorem execEnec_kept (dt bits : Nat) (s : State) : ∃ t, execEnec dt bits s = .next t ∧ t.kept = (advance dt s).kept := by
  unfold execEnec
  refine ⟨_, rfl, ?_⟩
  generalize advance dt s = s
  repeat' (first | with_reducible rfl | with_reducible assumption | (intro _ _) | (intro _) | exact trivial | simp only [kept_mk, kept_fold, kept_ite, ite_self, broadcast_kept] | split | with_reducible refine kept_foldl _ _ ?_ ?_ | (rw [modCmd_kept] <;> first | (intro _; rfl) | skip) | (rw [broadcast_kept] <;> first | (intro _; rfl) | skip))

theorem execDisec_kept (dt bits : Nat) (s : State) : ∃ t, execDisec dt bits s = .next t ∧ t.kept = (advance dt s).kept := by
  unfold execDisec
  refine ⟨_, rfl, ?_⟩
  generalize advance dt s = s
  repeat' (first | with_reducible rfl | with_reducible assumption | (intro _ _) | (intro _) | exact trivial | simp only [kept_mk, kept_fold, kept_ite, ite_self, broadcast_kept] | split | with_reducible refine kept_foldl _ _ ?_ ?_ | (rw [modCmd_kept] <;> first | (intro _; rfl) | skip) | (rw [broadcast_kept] <;> first | (intro _; rfl) | skip))

theorem execSetmwl_kept (dt n : Nat) (s : State) : ∃ t, execSetmwl dt n s = .next t ∧ t.kept = (advance dt s).kept := by
  unfold execSetmwl
  refine ⟨_, rfl, ?_⟩
  generalize advance dt s = s
  repeat' (first | with_reducible rfl | with_reducible assumption | (intro _ _) | (intro _) | exact trivial | simp only [kept_mk, kept_fold, kept_ite, ite_self, broadcast_kept] | split | with_reducible refine kept_foldl _ _ ?_ ?_ | (rw [modCmd_kept] <;> first | (intro _; rfl) | skip) | (rw [broadcast_kept] <;> first | (intro _; rfl) | skip))

theorem execSetmrl_kept (dt n : Nat) (s : State) : ∃ t, execSetmrl dt n s = .next t ∧ t.kept = (advance dt s).kept := by
  unfold execSetmrl
  refine ⟨_, rfl, ?_⟩
  generalize advance dt s = s
  repeat' (first | with_reducible rfl | with_reducible assumption | (intro _ _) | (intro _) | exact trivial | simp only [kept_mk, kept_fold, kept_ite, ite_self, broadcast_kept] | split | with_reducible refine kept_foldl _ _ ?_ ?_ | (rw [modCmd_kept] <;> first | (intro _; rfl) | skip) | (rw [broadcast_kept] <;> first | (intro _; rfl) | skip))

theorem execEnthdr0_kept (dt : Nat) (s : State) : ∃ t, execEnthdr0 dt s = .next t ∧ t.kept = (advance dt s).kept := by
  unfold execEnthdr0
  refine ⟨_, rfl, ?_⟩
  generalize advance dt s = s
  repeat' (first | with_reducible rfl | with_reducible assumption | (intro _ _) | (intro _) | exact trivial | simp only [kept_mk, kept_fold, kept_ite, ite_self, broadcast_kept] | split | with_reducible refine kept_foldl _ _ ?_ ?_ | (rw [modCmd_kept] <;> first | (intro _; rfl) | skip) | (rw [broadcast_kept] <;> first | (intro _; rfl) | skip))

theorem answerCcc_kept (f : State → Bytes) (s : State) : (answerCcc f s).kept = s.kept := by
  unfold answerCcc
  repeat' (first | with_reducible rfl | with_reducible assumption | (intro _ _) | (intro _) | exact trivial | simp only [kept_mk, kept_fold, kept_ite, ite_self, modCmd_kept] | split | with_reducible refine kept_foldl _ _ ?_ ?_ | (rw [modCmd_kept] <;> first | (intro _; rfl) | skip) | (rw [broadcast_kept] <;> first | (intro _; rfl) | skip))

theorem execGetpid_kept (dt : Nat) (s : State) : ∃ t, execGetpid dt s = .next t ∧ t.kept = (advance dt s).kept := by
  unfold execGetpid
  refine ⟨_, rfl, ?_⟩
  generalize advance dt s = s
  repeat' (first | with_reducible rfl | with_reducible assumption | (intro _ _) | (intro _) | exact trivial | simp only [kept_mk, kept_fold, kept_ite, ite_self, answerCcc_kept] | split | with_reducible refine kept_foldl _ _ ?_ ?_)

theorem execGetbcr_kept (dt : Nat) (s : State) : ∃ t, execGetbcr dt s = .next t ∧ t.kept = (advance dt s).kept := by
  unfold execGetbcr
  refine ⟨_, rfl, ?_⟩
  generalize advance dt s = s
  repeat' (first | with_reducible rfl | with_reducible assumption | (intro _ _) | (intro _) | exact trivial | simp only [kept_mk, kept_fold, kept_ite, ite_self, answerCcc_kept] | split | with_reducible refine kept_foldl _ _ ?_ ?_)

theorem execGetdcr_kept (dt : Nat) (s : State) : ∃ t, execGetdcr dt s = .next t ∧ t.kept = (advance dt s).kept := by
  unfold execGetdcr
  refine ⟨_, rfl, ?_⟩
  generalize advance dt s = s
  repeat' (first | with_reducible rfl | with_reducible assumption | (intro _ _) | (intro _) | exact trivial | simp only [kept_mk, kept_fold, kept_ite, ite_self, answerCcc_kept] | split | with_reducible refine kept_foldl _ _ ?_ ?_)

theorem execGetstatus_kept (dt : Nat) (s : State) : ∃ t, execGetstatus dt s = .next t ∧ t.kept = (advance dt s).kept := by
  unfold execGetstatus
  refine ⟨_, rfl, ?_⟩
  generalize advance dt s = s
  repeat' (first | with_reducible rfl | with_reducible assumption | (intro _ _) | (intro _) | exact trivial | simp only [kept_mk, kept_fold, kept_ite, ite_self, draw_kept, modCmd_kept] | split | with_reducible refine kept_foldl _ _ ?_ ?_ | (rw [modCmd_kept] <;> first | (intro _; rfl) | skip) | (rw [broadcast_kept] <;> first | (intro _; rfl) | skip))

theorem execGetmwl_kept (dt : Nat) (s : State) : ∃ t, execGetmwl dt s = .next t ∧ t.kept = (advance dt s).kept := by
  unfold execGetmwl
  refine ⟨_, rfl, ?_⟩
  generalize advance dt s = s
  repeat' (first | with_reducible rfl | with_reducible assumption | (intro _ _) | (intro _) | exact trivial | simp only [kept_mk, kept_fold, kept_ite, ite_self, answerCcc_kept] | split | with_reducible refine kept_foldl _ _ ?_ ?_)

theorem execGetmrl_kept (dt : Nat) (s : State) : ∃ t, execGetmrl dt s = .next t ∧ t.kept = (advance dt s).kept := by
  unfold execGetmrl
  refine ⟨_, rfl, ?_⟩
  generalize advance dt s = s
  repeat' (first | with_reducible rfl | with_reducible assumption | (intro _ _) | (intro _) | exact trivial | simp only [kept_mk, kept_fold, kept_ite, ite_self, answerCcc_kept] | split | with_reducible refine kept_foldl _ _ ?_ ?_)

theorem execGetmxds_kept (dt : Nat) (s : State) : ∃ t, execGetmxds dt s = .next t ∧ t.kept = (advance dt s).kept := by
  unfold execGetmxds
  refine ⟨_, rfl, ?_⟩
  generalize advance dt s = s
  repeat' (first | with_reducible rfl | with_reducible assumption | (intro _ _) | (intro _) | exact trivial | simp only [kept_mk, kept_fold, kept_ite, ite_self, answerCcc_kept] | split | with_reducible refine kept_foldl _ _ ?_ ?_)

theorem execGetcaps_kept (dt : Nat) (s : State) : ∃ t, execGetcaps dt s = .next t ∧ t.kept = (advance dt s).kept := by
  unfold execGetcaps
  refine ⟨_, rfl, ?_⟩
  generalize advance dt s = s
  repeat' (first | with_reducible rfl | with_reducible assumption | (intro _ _) | (intro _) | exact trivial | simp only [kept_mk, kept_fold, kept_ite, ite_self, answerCcc_kept] | split | with_reducible refine kept_foldl _ _ ?_ ?_)

theorem requestIbi_kept (p : Ibi → Bool) (nack : Bool) (s : State) : (requestIbi p nack s).kept = s.kept := by
  unfold requestIbi
  repeat' (first | with_reducible rfl | with_reducible assumption | (intro _ _) | (intro _) | exact trivial | simp only [kept_mk, kept_fold, kept_ite, ite_self, modCmd_kept] | split | with_reducible refine kept_foldl _ _ ?_ ?_ | (rw [modCmd_kept] <;> first | (intro _; rfl) | skip) | (rw [broadcast_kept] <;> first | (intro _; rfl) | skip))

theorem execBusFree_kept (dt : Nat) (nack : Bool) (s : State) : ∃ t, execBusFree dt nack s = .next t ∧ t.kept = (advance dt s).kept := by
  unfold execBusFree
  refine ⟨_, rfl, ?_⟩
  generalize advance dt s = s
  repeat' (first | with_reducible rfl | with_reducible assumption | (intro _ _) | (intro _) | exact trivial | simp only [kept_mk, kept_fold, kept_ite, ite_self, requestIbi_kept, modCmd_kept] | split | with_reducible refine kept_foldl _ _ ?_ ?_ | (rw [modCmd_kept] <;> first | (intro _; rfl) | skip) | (rw [broadcast_kept] <;> first | (intro _; rfl) | skip))

theorem execIbiRetry_kept (dt : Nat) (nack : Bool) (s : State) : ∃ t, execIbiRetry dt nack s = .next t ∧ t.kept = (advance dt s).kept := by
  unfold execIbiRetry
  refine ⟨_, rfl, ?_⟩
  generalize advance dt s = s
  repeat' (first | with_reducible rfl | with_reducible assumption | (intro _ _) | (intro _) | exact trivial | simp only [kept_mk, kept_fold, kept_ite, ite_self, requestIbi_kept] | split | with_reducible refine kept_foldl _ _ ?_ ?_)

end Sys2Proof.Machine
end

