-- ==== Sys2Proof/Laws/KeptMailbox.lean ====
section
/-! SUPPORT. What Mailbox.lean keeps. -/
set_option linter.unusedSimpArgs false
set_option linter.unusedVariables false
set_option linter.unusedTactic false
set_option linter.unreachableTactic false
namespace Sys2Proof.Machine

theorem mboxWriteBody_kept (p : Packet) (s : State) : ((mboxWriteBody p s).after s).kept = s.kept := by
  unfold mboxWriteBody
  repeat' (first | with_reducible rfl | with_reducible assumption | (intro _ _) | (intro _) | exact trivial | simp only [after_ok, after_refuse, after_refuseWith, after_ite, kept_mk, kept_fold, kept_ite, ite_self, countDenied_kept, cmdEvent_kept, postQuiet_kept] | split | with_reducible refine kept_foldl _ _ ?_ ?_)

theorem takeFrom_kept (c n : Nat) (s : State) : (takeFrom c n s).2.2.kept = s.kept := by
  unfold takeFrom
  repeat' (first | with_reducible rfl | with_reducible assumption | (intro _ _) | (intro _) | exact trivial | simp only [kept_mk, kept_fold, kept_ite, snd_ite, ite_self, roomMade_kept, modChan_kept, rearmIbi_kept] | split | with_reducible refine kept_foldl _ _ ?_ ?_)

theorem takeAll_kept  (x0 : List Nat) (x1 : Nat) (s : State) : (takeAll x0 x1 s).2.2.kept = s.kept := by
  induction x0 generalizing x1 s with
  | nil =>
    unfold takeAll
    repeat' (first | with_reducible rfl | with_reducible assumption | (intro _ _) | (intro _) | exact trivial | simp only [kept_mk, kept_fold, kept_ite, snd_ite, ite_self, takeFrom_kept] | split | with_reducible refine kept_foldl _ _ ?_ ?_)
  | cons y l ih =>
    unfold takeAll
    repeat' (first | with_reducible rfl | with_reducible assumption | (intro _ _) | (intro _) | exact trivial | simp only [kept_mk, kept_fold, kept_ite, snd_ite, ite_self, ih, takeFrom_kept] | split | with_reducible refine kept_foldl _ _ ?_ ?_)

theorem mboxReadBody_kept (p : Packet) (s : State) : ((mboxReadBody p s).after s).kept = s.kept := by
  unfold mboxReadBody
  repeat' (first | with_reducible rfl | with_reducible assumption | (intro _ _) | (intro _) | exact trivial | simp only [after_ok, after_refuse, after_refuseWith, after_ite, kept_mk, kept_fold, kept_ite, ite_self, takeAll_kept] | split | with_reducible refine kept_foldl _ _ ?_ ?_)

theorem mboxRingBody_kept (p : Packet) (s : State) : ((mboxRingBody p s).after s).kept = s.kept := by
  unfold mboxRingBody
  repeat' (first | with_reducible rfl | with_reducible assumption | (intro _ _) | (intro _) | exact trivial | simp only [after_ok, after_refuse, after_refuseWith, after_ite, kept_mk, kept_fold, kept_ite, ite_self, countDenied_kept, cmdEvent_kept, ringAndWake_kept] | split | with_reducible refine kept_foldl _ _ ?_ ?_)

theorem mboxDbReadBody_kept (p : Packet) (s : State) : ((mboxDbReadBody p s).after s).kept = s.kept := by
  unfold mboxDbReadBody
  repeat' (first | with_reducible rfl | with_reducible assumption | (intro _ _) | (intro _) | exact trivial | simp only [after_ok, after_refuse, after_refuseWith, after_ite, kept_mk, kept_fold, kept_ite, ite_self, rearmIbi_kept, modChan_kept] | split | with_reducible refine kept_foldl _ _ ?_ ?_)

theorem mboxConfigBody_kept (p : Packet) (s : State) : ((mboxConfigBody p s).after s).kept = s.kept := by
  unfold mboxConfigBody
  repeat' (first | with_reducible rfl | with_reducible assumption | (intro _ _) | (intro _) | exact trivial | simp only [after_ok, after_refuse, after_refuseWith, after_ite, kept_mk, kept_fold, kept_ite, ite_self, roomMade_kept, modChan_kept] | split | with_reducible refine kept_foldl _ _ ?_ ?_)

theorem mboxQueryBody_kept (p : Packet) (s : State) : ((mboxQueryBody p s).after s).kept = s.kept := by
  unfold mboxQueryBody
  repeat' (first | with_reducible rfl | with_reducible assumption | (intro _ _) | (intro _) | exact trivial | simp only [after_ok, after_refuse, after_refuseWith, after_ite, kept_mk, kept_fold, kept_ite, ite_self] | split | with_reducible refine kept_foldl _ _ ?_ ?_)

theorem mboxFlushBody_kept (p : Packet) (s : State) : ((mboxFlushBody p s).after s).kept = s.kept := by
  unfold mboxFlushBody
  repeat' (first | with_reducible rfl | with_reducible assumption | (intro _ _) | (intro _) | exact trivial | simp only [after_ok, after_refuse, after_refuseWith, after_ite, kept_mk, kept_fold, kept_ite, ite_self, roomMade_kept, rearmIbi_kept, modChan_kept] | split | with_reducible refine kept_foldl _ _ ?_ ?_)

theorem execMboxWrite_kept (dt : Nat) (h : Hdr) (p : Bytes) (s : State) : ∃ t, execMboxWrite dt h p s = .next t ∧ t.kept = (advance dt s).kept :=
  hostRow_kept _ _ (fun p s => mboxWriteBody_kept p s) dt h p s

theorem execMboxRead_kept (dt : Nat) (h : Hdr) (p : Bytes) (s : State) : ∃ t, execMboxRead dt h p s = .next t ∧ t.kept = (advance dt s).kept :=
  hostRow_kept _ _ (fun p s => mboxReadBody_kept p s) dt h p s

theorem execMboxRing_kept (dt : Nat) (h : Hdr) (p : Bytes) (s : State) : ∃ t, execMboxRing dt h p s = .next t ∧ t.kept = (advance dt s).kept :=
  hostRow_kept _ _ (fun p s => mboxRingBody_kept p s) dt h p s

theorem execMboxDbRead_kept (dt : Nat) (h : Hdr) (p : Bytes) (s : State) : ∃ t, execMboxDbRead dt h p s = .next t ∧ t.kept = (advance dt s).kept :=
  hostRow_kept _ _ (fun p s => mboxDbReadBody_kept p s) dt h p s

theorem execMboxConfig_kept (dt : Nat) (h : Hdr) (p : Bytes) (s : State) : ∃ t, execMboxConfig dt h p s = .next t ∧ t.kept = (advance dt s).kept :=
  hostRow_kept _ _ (fun p s => mboxConfigBody_kept p s) dt h p s

theorem execMboxQuery_kept (dt : Nat) (h : Hdr) (p : Bytes) (s : State) : ∃ t, execMboxQuery dt h p s = .next t ∧ t.kept = (advance dt s).kept :=
  hostRow_kept _ _ (fun p s => mboxQueryBody_kept p s) dt h p s

theorem execMboxFlush_kept (dt : Nat) (h : Hdr) (p : Bytes) (s : State) : ∃ t, execMboxFlush dt h p s = .next t ∧ t.kept = (advance dt s).kept :=
  hostRow_kept _ _ (fun p s => mboxFlushBody_kept p s) dt h p s

end Sys2Proof.Machine
end

