-- ==== Sys2Proof/Laws/KeptCmdDispatch.lean ====
section
/-! SUPPORT. What CmdDispatch.lean keeps. -/
set_option linter.unusedSimpArgs false
set_option linter.unusedVariables false
set_option linter.unusedTactic false
set_option linter.unreachableTactic false
namespace Sys2Proof.Machine

theorem runFirmware_kept (op : Nat) (params : Bytes) (s : State) (h : ∀ p s, ((bodyOf op p s).after s).kept = s.kept) :
    (runFirmware op params s).kept = s.kept := runPacket_kept _ _ _ h

end Sys2Proof.Machine
end

