-- ==== Sys2Proof/Laws/KeptBoot.lean ====
section
/-! SUPPORT. What Boot.lean keeps. -/
set_option linter.unusedSimpArgs false
set_option linter.unusedVariables false
set_option linter.unusedTactic false
set_option linter.unreachableTactic false
namespace Sys2Proof.Machine

theorem modBoot_kept (f : BootState → BootState) (s : State) : (modBoot f s).kept = s.kept := by
  unfold modBoot
  repeat' (first | with_reducible rfl | with_reducible assumption | (intro _ _) | (intro _) | exact trivial | simp only [kept_mk, kept_fold, kept_ite, ite_self] | split | with_reducible refine kept_foldl _ _ ?_ ?_)

theorem noteFailure_kept (r : Option Nat) (s : State) : (noteFailure r s).kept = s.kept := by
  unfold noteFailure
  repeat' (first | with_reducible rfl | with_reducible assumption | (intro _ _) | (intro _) | exact trivial | simp only [kept_mk, kept_fold, kept_ite, ite_self, modBoot_kept] | split | with_reducible refine kept_foldl _ _ ?_ ?_)

theorem runSlot_kept (i : Nat) (fallback : Bool) (s : State) : (runSlot i fallback s).kept = s.kept := by
  unfold runSlot
  repeat' (first | with_reducible rfl | with_reducible assumption | (intro _ _) | (intro _) | exact trivial | simp only [kept_mk, kept_fold, kept_ite, ite_self, modBoot_kept] | split | with_reducible refine kept_foldl _ _ ?_ ?_)

theorem chooseFirmware_kept (s t : State) (h : chooseFirmware s = some t) : t.kept = s.kept := by
  unfold chooseFirmware at h
  simp only at h
  split at h
  · cases h; exact runSlot_kept _ _ _
  · split at h
    · cases h; rw [runSlot_kept, noteFailure_kept]
    · cases h

theorem noteImageFailure_kept (r : Option Nat) (s : State) : (noteImageFailure r s).kept = s.kept := by
  unfold noteImageFailure
  repeat' (first | with_reducible rfl | with_reducible assumption | (intro _ _) | (intro _) | exact trivial | simp only [kept_mk, kept_fold, kept_ite, ite_self, noteFailure_kept] | split | with_reducible refine kept_foldl _ _ ?_ ?_)

theorem chooseImage_kept (s : State) : (chooseImage s).2.kept = s.kept := by
  unfold chooseImage
  repeat' (first | with_reducible rfl | with_reducible assumption | (intro _ _) | (intro _) | exact trivial | simp only [kept_mk, kept_fold, kept_ite, snd_ite, ite_self, noteImageFailure_kept, writeDir_kept, modBoot_kept] | split | with_reducible refine kept_foldl _ _ ?_ ?_)

theorem loadSlot_kept (i : Nat) (s : State) : (loadSlot i s).kept = s.kept := by
  unfold loadSlot
  repeat' (first | with_reducible rfl | with_reducible assumption | (intro _ _) | (intro _) | exact trivial | simp only [kept_mk, kept_fold, kept_ite, ite_self, noteImage_kept, loadImage_kept] | split | with_reducible refine kept_foldl _ _ ?_ ?_)

theorem powerUp_kept (s : State) : (powerUp s).kept = s.kept := by
  unfold powerUp
  repeat' (first | with_reducible rfl | with_reducible assumption | (intro _ _) | (intro _) | exact trivial | simp only [kept_mk, kept_fold, kept_ite, ite_self, standingCharges_kept] | split | with_reducible refine kept_foldl _ _ ?_ ?_)

theorem wakeStack_kept (s : State) (k : Nat) : (wakeStack s k).kept = s.kept := by
  unfold wakeStack
  extract_lets s1 f c1
  have h1 : s1.kept = s.kept := by simp only [s1, setStack_kept, hold_kept, setSram_kept]
  have h2 : f.kept = s1.kept := kept_foldl _ _ (fun s i => modCore_kept _ _ s) rfl
  have e : Kept.mk f.pending f.variant f.fuses f.flash.slots s1.clk.tb f.cmd.staticAddr = f.kept := by
    rw [show s1.clk.tb = f.clk.tb from (congrArg Kept.tb h2).symm]; rfl
  exact e.trans (h2.trans h1)

theorem wakeStacks_kept (s : State) : (wakeStacks s).kept = s.kept :=
  kept_foldl _ _ wakeStack_kept rfl

theorem setChannels_kept (s : State) : (setChannels s).kept = s.kept := by
  unfold setChannels
  repeat' (first | with_reducible rfl | with_reducible assumption | (intro _ _) | (intro _) | exact trivial | simp only [kept_mk, kept_fold, kept_ite, ite_self] | split | with_reducible refine kept_foldl _ _ ?_ ?_)

theorem watchControlCores_kept (s : State) : (watchControlCores s).kept = s.kept := by
  unfold watchControlCores
  repeat' (first | with_reducible rfl | with_reducible assumption | (intro _ _) | (intro _) | exact trivial | simp only [kept_mk, kept_fold, kept_ite, ite_self, addSlot_kept] | split | with_reducible refine kept_foldl _ _ ?_ ?_)

theorem firstEpoch_kept (s : State) : (firstEpoch s).kept = s.kept := by
  unfold firstEpoch
  repeat' (first | with_reducible rfl | with_reducible assumption | (intro _ _) | (intro _) | exact trivial | simp only [kept_mk, kept_fold, kept_ite, ite_self] | split | with_reducible refine kept_foldl _ _ ?_ ?_)

theorem body_0A02_kept (p : Packet) (s : State) : ((bodyOf 0x0A02 p s).after s).kept = s.kept := paramWriteBody_kept p s
theorem body_0A03_kept (p : Packet) (s : State) : ((bodyOf 0x0A03 p s).after s).kept = s.kept := epochPostBody_kept p s
theorem body_0201_kept (p : Packet) (s : State) : ((bodyOf 0x0201 p s).after s).kept = s.kept := streamOpenBody_kept p s

theorem tryFirmware_kept (op : Nat) (params : Bytes) (s : State) (h : ∀ p s, ((bodyOf op p s).after s).kept = s.kept) :
    (tryFirmware op params s).kept = s.kept := by
  unfold tryFirmware
  simp only [kept_ite, secEvent_kept, runFirmware_kept _ _ _ h, ite_self]

theorem applyProfile_kept (b : Bytes) (s : State) : (applyProfile b s).kept = s.kept :=
  kept_foldl _ _ (fun s _ => tryFirmware_kept _ _ s body_0A02_kept) rfl

theorem postProfile_kept (s : State) : (postProfile s).kept = s.kept := by
  unfold postProfile
  split
  · rfl
  · exact runFirmware_kept _ _ _ body_0A03_kept

theorem finishProfile_kept (mask : Nat) (auto : Bool) (s : State) : (finishProfile mask auto s).kept = s.kept := by
  unfold finishProfile
  simp only [kept_mk, kept_fold]
  split
  · rfl
  · exact kept_foldl _ _ (fun s _ => tryFirmware_kept _ _ s body_0201_kept) rfl

theorem fallbackEvent_kept (c : Bool) (st : Nat) (s : State) : (fallbackEvent c st s).kept = s.kept := by
  unfold fallbackEvent
  repeat' (first | with_reducible rfl | with_reducible assumption | (intro _ _) | (intro _) | exact trivial | simp only [kept_mk, kept_fold, kept_ite, ite_self, secEvent_kept] | split | with_reducible refine kept_foldl _ _ ?_ ?_)

theorem discover_kept (k : Nat) (x : PairSeen) (s : State) : (discover k x s).kept = s.kept := by
  unfold discover
  simp only
  repeat' (first | with_reducible rfl | simp only [secEvent_kept, modBoot_kept, runFirmware_kept _ _ _ body_0A02_kept, runFirmware_kept _ _ _ body_0201_kept] | split)

theorem execStreamDiscovery_kept (dt k : Nat) (x : PairSeen) (s : State) : ∃ t, execStreamDiscovery dt k x s = .next t ∧ t.kept = (advance dt s).kept := by
  unfold execStreamDiscovery
  refine ⟨_, rfl, ?_⟩
  generalize advance dt s = s
  repeat' (first | with_reducible rfl | with_reducible assumption | (intro _ _) | (intro _) | exact trivial | simp only [kept_mk, kept_fold, kept_ite, ite_self, discover_kept] | split | with_reducible refine kept_foldl _ _ ?_ ?_)

theorem execDiscoveryRetry_kept (dt k : Nat) (x : PairSeen) (s : State) : ∃ t, execDiscoveryRetry dt k x s = .next t ∧ t.kept = (advance dt s).kept := by
  unfold execDiscoveryRetry
  refine ⟨_, rfl, ?_⟩
  generalize advance dt s = s
  repeat' (first | with_reducible rfl | with_reducible assumption | (intro _ _) | (intro _) | exact trivial | simp only [kept_mk, kept_fold, kept_ite, ite_self, discover_kept] | split | with_reducible refine kept_foldl _ _ ?_ ?_)

theorem applyItem_kept (i : QuietItem) (s : State) : (applyItem i s).kept = s.kept := by
  unfold applyItem
  repeat' (first | with_reducible rfl | with_reducible assumption | (intro _ _) | (intro _) | exact trivial | simp only [kept_mk, kept_fold, kept_ite, ite_self, mirrorAdapters_kept, modBoot_kept, loadSlot_kept, secEvent_kept, writeDir_kept] | split | with_reducible refine kept_foldl _ _ ?_ ?_)

theorem adoptAll_kept (n : Nat) (s : State) : (adoptAll n s).kept = s.kept := by
  unfold adoptAll
  repeat' (first | with_reducible rfl | with_reducible assumption | (intro _ _) | (intro _) | exact trivial | simp only [kept_mk, kept_fold, kept_ite, ite_self, postText_kept] | split | with_reducible refine kept_foldl _ _ ?_ ?_)

theorem endWindow_kept (q : Quiet) (s : State) : (endWindow q s).kept = s.kept := by
  unfold endWindow
  repeat' (first | with_reducible rfl | with_reducible assumption | (intro _ _) | (intro _) | exact trivial | simp only [kept_mk, kept_fold, kept_ite, ite_self, adoptAll_kept, applyItem_kept, cmdEvent_kept] | split | with_reducible refine kept_foldl _ _ ?_ ?_)

theorem execQuietApply_kept (dt : Nat) (s : State) : ∃ t, execQuietApply dt s = .next t ∧ t.kept = (advance dt s).kept := by
  unfold execQuietApply
  refine ⟨_, rfl, ?_⟩
  generalize advance dt s = s
  repeat' (first | with_reducible rfl | with_reducible assumption | (intro _ _) | (intro _) | exact trivial | simp only [kept_mk, kept_fold, kept_ite, ite_self, endWindow_kept] | split | with_reducible refine kept_foldl _ _ ?_ ?_)

end Sys2Proof.Machine
end

