-- ==== Sys2Proof/Laws/KeptTwin.lean ====
section
/-! SUPPORT. What Twin.lean keeps. -/
set_option linter.unusedSimpArgs false
set_option linter.unusedVariables false
set_option linter.unusedTactic false
set_option linter.unreachableTactic false
namespace Sys2Proof.Machine

theorem execHeartbeat_kept (dt : Nat) (s : State) : ∃ t, execHeartbeat dt s = .next t ∧ t.kept = (advance dt s).kept := by
  unfold execHeartbeat
  refine ⟨_, rfl, ?_⟩
  generalize advance dt s = s
  repeat' (first | with_reducible rfl | with_reducible assumption | (intro _ _) | (intro _) | exact trivial | simp only [kept_mk, kept_fold, kept_ite, ite_self] | split | with_reducible refine kept_foldl _ _ ?_ ?_)

theorem pulseIn_kept (code : Nat) (s : State) : (pulseIn code s).kept = s.kept := by
  unfold pulseIn
  repeat' (first | with_reducible rfl | with_reducible assumption | (intro _ _) | (intro _) | exact trivial | simp only [kept_mk, kept_fold, kept_ite, ite_self, modTwin_kept, postJudge_kept, sendSnapshot_kept, startLink_kept, settleTwin_kept] | split | with_reducible refine kept_foldl _ _ ?_ ?_)

theorem execHeartbeatReceived_kept (dt width : Nat) (s : State) : ∃ t, execHeartbeatReceived dt width s = .next t ∧ t.kept = (advance dt s).kept := by
  unfold execHeartbeatReceived
  refine ⟨_, rfl, ?_⟩
  generalize advance dt s = s
  repeat' (first | with_reducible rfl | with_reducible assumption | (intro _ _) | (intro _) | exact trivial | simp only [kept_mk, kept_fold, kept_ite, ite_self, wakeCauseIn_kept, pulseIn_kept] | split | with_reducible refine kept_foldl _ _ ?_ ?_)

theorem itemHeard_kept (m : ItemHdr) (s : State) : (itemHeard m s).kept = s.kept := by
  unfold itemHeard
  repeat' (first | with_reducible rfl | with_reducible assumption | (intro _ _) | (intro _) | exact trivial | simp only [kept_mk, kept_fold, kept_ite, ite_self, postJudge_kept, modTwin_kept] | split | with_reducible refine kept_foldl _ _ ?_ ?_)

theorem sendNak_kept (s : State) : (sendNak s).kept = s.kept := by
  unfold sendNak
  repeat' (first | with_reducible rfl | with_reducible assumption | (intro _ _) | (intro _) | exact trivial | simp only [kept_mk, kept_fold, kept_ite, ite_self, mirror_kept, modTwin_kept] | split | with_reducible refine kept_foldl _ _ ?_ ?_)

theorem takeItem_kept (kind : Nat) (m : ItemHdr) (f : State → State) (s : State) (hf : ∀  s, (f  s).kept = s.kept) : (takeItem kind m f s).kept = s.kept := by
  unfold takeItem
  repeat' (first | with_reducible rfl | with_reducible assumption | (intro _ _) | (intro _) | exact trivial | simp only [kept_mk, kept_fold, kept_ite, ite_self, modTwin_kept, sendNak_kept, hf] | split | with_reducible refine kept_foldl _ _ ?_ ?_)

theorem itemRow_kept (kind dt : Nat) (m : ItemHdr) (f : State → State) (s : State) (hf : ∀ s, (f s).kept = s.kept) :
    ∃ t, itemRow kind dt m f s = .next t ∧ t.kept = (advance dt s).kept := by
  unfold itemRow
  refine ⟨_, rfl, ?_⟩
  generalize advance dt s = s
  simp only [kept_ite, settleTwin_kept, takeItem_kept _ _ f _ hf, itemHeard_kept, ite_self]

theorem atStandby_kept (f : State → State) (s : State) (hf : ∀  s, (f  s).kept = s.kept) : (atStandby f s).kept = s.kept := by
  unfold atStandby
  repeat' (first | with_reducible rfl | with_reducible assumption | (intro _ _) | (intro _) | exact trivial | simp only [kept_mk, kept_fold, kept_ite, ite_self, hf] | split | with_reducible refine kept_foldl _ _ ?_ ?_)

theorem execMirrorItemDiscarded_kept (dt reason : Nat) (s : State) : ∃ t, execMirrorItemDiscarded dt reason s = .next t ∧ t.kept = (advance dt s).kept := by
  unfold execMirrorItemDiscarded
  refine ⟨_, rfl, ?_⟩
  generalize advance dt s = s
  repeat' (first | with_reducible rfl | with_reducible assumption | (intro _ _) | (intro _) | exact trivial | simp only [kept_mk, kept_fold, kept_ite, ite_self, sendNak_kept] | split | with_reducible refine kept_foldl _ _ ?_ ?_)

theorem helloIn_kept (m : ItemHdr) (body : Bytes) (s : State) : (helloIn m body s).kept = s.kept := by
  unfold helloIn
  repeat' (first | with_reducible rfl | with_reducible assumption | (intro _ _) | (intro _) | exact trivial | simp only [kept_mk, kept_fold, kept_ite, ite_self, modTwin_kept, startLink_kept, setRole_kept, sendSnapshot_kept] | split | with_reducible refine kept_foldl _ _ ?_ ?_)

theorem execHello_kept (dt : Nat) (m : ItemHdr) (body : Bytes) (s : State) : ∃ t, execHello dt m body s = .next t ∧ t.kept = (advance dt s).kept :=
  itemRow_kept _ _ _ _ _ (fun s => by repeat' (first | with_reducible rfl | with_reducible refine atStandby_kept _ _ ?_ | simp only [id, kept_mk, kept_fold, kept_ite, ite_self, itemRow_kept, helloIn_kept] | split | (intro _)))

theorem execLinkItem_kept (dt : Nat) (m : ItemHdr) (_body : Bytes) (s : State) : ∃ t, execLinkItem dt m _body s = .next t ∧ t.kept = (advance dt s).kept :=
  itemRow_kept _ _ _ _ _ (fun s => by repeat' (first | with_reducible rfl | with_reducible refine atStandby_kept _ _ ?_ | simp only [id, kept_mk, kept_fold, kept_ite, ite_self, itemRow_kept] | split | (intro _)))

theorem recordOpen_kept (op : Nat) (q : Bytes) (s : State) : (recordOpen op q s).kept = s.kept := by
  unfold recordOpen
  repeat' (first | with_reducible rfl | with_reducible assumption | (intro _ _) | (intro _) | exact trivial | simp only [kept_mk, kept_fold, kept_ite, ite_self, modTwin_kept] | split | with_reducible refine kept_foldl _ _ ?_ ?_)

theorem sideIn_kept (body : Bytes) (s : State) : (sideIn body s).kept = s.kept := by
  unfold sideIn
  repeat' (first | with_reducible rfl | with_reducible assumption | (intro _ _) | (intro _) | exact trivial | simp only [kept_mk, kept_fold, kept_ite, ite_self, modTwin_kept] | split | with_reducible refine kept_foldl _ _ ?_ ?_)

theorem execSideItem_kept (dt : Nat) (m : ItemHdr) (body : Bytes) (s : State) : ∃ t, execSideItem dt m body s = .next t ∧ t.kept = (advance dt s).kept :=
  itemRow_kept _ _ _ _ _ (fun s => by repeat' (first | with_reducible rfl | with_reducible refine atStandby_kept _ _ ?_ | simp only [id, kept_mk, kept_fold, kept_ite, ite_self, itemRow_kept, atStandby_kept, sideIn_kept] | split | (intro _)))

theorem recordIn_kept (body : Bytes) (s : State) : (recordIn body s).kept = s.kept := by
  unfold recordIn
  repeat' (first | with_reducible rfl | with_reducible assumption | (intro _ _) | (intro _) | exact trivial | simp only [kept_mk, kept_fold, kept_ite, ite_self, putEntries_kept, modTwin_kept] | split | with_reducible refine kept_foldl _ _ ?_ ?_)

theorem execRecordItem_kept (dt : Nat) (m : ItemHdr) (body : Bytes) (s : State) : ∃ t, execRecordItem dt m body s = .next t ∧ t.kept = (advance dt s).kept :=
  itemRow_kept _ _ _ _ _ (fun s => by repeat' (first | with_reducible rfl | with_reducible refine atStandby_kept _ _ ?_ | simp only [id, kept_mk, kept_fold, kept_ite, ite_self, itemRow_kept, atStandby_kept, recordIn_kept] | split | (intro _)))

theorem sentIn_kept (no : Nat) (s : State) : (sentIn no s).kept = s.kept := by
  unfold sentIn
  repeat' (first | with_reducible rfl | with_reducible assumption | (intro _ _) | (intro _) | exact trivial | simp only [kept_mk, kept_fold, kept_ite, ite_self, refreshHigh_kept, modTwin_kept] | split | with_reducible refine kept_foldl _ _ ?_ ?_)

theorem execSent_kept (dt : Nat) (m : ItemHdr) (body : Bytes) (s : State) : ∃ t, execSent dt m body s = .next t ∧ t.kept = (advance dt s).kept :=
  itemRow_kept _ _ _ _ _ (fun s => by repeat' (first | with_reducible rfl | with_reducible refine atStandby_kept _ _ ?_ | simp only [id, kept_mk, kept_fold, kept_ite, ite_self, itemRow_kept, atStandby_kept, sentIn_kept] | split | (intro _)))

theorem slabIn_kept (job : Nat) (b : Bytes) (s t : State) (n : Nat) (h : slabIn job b s = some (n, t)) : t.kept = s.kept := by
  unfold slabIn at h
  split at h
  · simp only [Option.some.injEq, Prod.mk.injEq] at h
    obtain ⟨-, rfl⟩ := h
    simp only [kept_mk, kept_fold, putSlab_kept, setTally_kept]
  · exact absurd h (by simp only [reduceCtorEq, not_false_eq_true])

theorem slabsIn_kept (job k : Nat) (b : Bytes) (s : State) : (slabsIn job k b s).2.kept = s.kept := by
  induction k generalizing b s with
  | zero => rfl
  | succ k ih =>
    unfold slabsIn
    split
    · rename_i h
      simp only [ih]
      exact slabIn_kept _ _ _ _ _ h
    · rfl

theorem shareIn_kept (body : Bytes) (s : State) : (shareIn body s).kept = s.kept := by
  unfold shareIn
  repeat' (first | with_reducible rfl | with_reducible assumption | (intro _ _) | (intro _) | exact trivial | simp only [kept_mk, kept_fold, kept_ite, ite_self, dropPrefix_kept, slabsIn_kept, modSlabs_kept] | split | with_reducible refine kept_foldl _ _ ?_ ?_)

theorem blobIn_kept (body : Bytes) (s : State) : (blobIn body s).kept = s.kept := by
  unfold blobIn
  repeat' (first | with_reducible rfl | with_reducible assumption | (intro _ _) | (intro _) | exact trivial | simp only [kept_mk, kept_fold, kept_ite, ite_self, shareIn_kept, dropPrefix_kept] | split | with_reducible refine kept_foldl _ _ ?_ ?_)

theorem execBlob_kept (dt : Nat) (m : ItemHdr) (body : Bytes) (s : State) : ∃ t, execBlob dt m body s = .next t ∧ t.kept = (advance dt s).kept :=
  itemRow_kept _ _ _ _ _ (fun s => by repeat' (first | with_reducible rfl | with_reducible refine atStandby_kept _ _ ?_ | simp only [id, kept_mk, kept_fold, kept_ite, ite_self, itemRow_kept, atStandby_kept, blobIn_kept] | split | (intro _)))

theorem execMboxItem_kept (dt : Nat) (m : ItemHdr) (body : Bytes) (s : State) : ∃ t, execMboxItem dt m body s = .next t ∧ t.kept = (advance dt s).kept :=
  itemRow_kept _ _ _ _ _ (fun s => by repeat' (first | with_reducible rfl | with_reducible refine atStandby_kept _ _ ?_ | simp only [id, kept_mk, kept_fold, kept_ite, ite_self, itemRow_kept, post_kept] | split | (intro _)))

theorem nakIn_kept (n : Nat) (s : State) : (nakIn n s).kept = s.kept := by
  unfold nakIn
  repeat' (first | with_reducible rfl | with_reducible assumption | (intro _ _) | (intro _) | exact trivial | simp only [kept_mk, kept_fold, kept_ite, ite_self, sendItem_kept, sendSnapshot_kept] | split | with_reducible refine kept_foldl _ _ ?_ ?_)

theorem execNak_kept (dt : Nat) (m : ItemHdr) (body : Bytes) (s : State) : ∃ t, execNak dt m body s = .next t ∧ t.kept = (advance dt s).kept :=
  itemRow_kept _ _ _ _ _ (fun s => by repeat' (first | with_reducible rfl | with_reducible refine atStandby_kept _ _ ?_ | simp only [id, kept_mk, kept_fold, kept_ite, ite_self, itemRow_kept, nakIn_kept] | split | (intro _)))

theorem epochsIn_kept (b : Bytes) (s : State) : (epochsIn b s).kept = s.kept := by
  unfold epochsIn
  repeat' (first | with_reducible rfl | with_reducible assumption | (intro _ _) | (intro _) | exact trivial | simp only [kept_mk, kept_fold, kept_ite, ite_self] | split | with_reducible refine kept_foldl _ _ ?_ ?_)

theorem partIn_kept (s : State) (p : Nat × Bytes) : (partIn s p).kept = s.kept := by
  unfold partIn
  repeat' (first | with_reducible rfl | with_reducible assumption | (intro _ _) | (intro _) | exact trivial | simp only [kept_mk, kept_fold, kept_ite, ite_self, epochsIn_kept, applyNow_kept, modTwin_kept] | split | with_reducible refine kept_foldl _ _ ?_ ?_)

theorem clearMirror_kept (s : State) : (clearMirror s).kept = s.kept := by
  unfold clearMirror
  repeat' (first | with_reducible rfl | with_reducible assumption | (intro _ _) | (intro _) | exact trivial | simp only [kept_mk, kept_fold, kept_ite, ite_self, dropPrefixes_kept, refreshHigh_kept] | split | with_reducible refine kept_foldl _ _ ?_ ?_)

theorem snapshotIn_kept (body : Bytes) (s : State) : (snapshotIn body s).kept = s.kept := by
  unfold snapshotIn
  repeat' (first | with_reducible rfl | with_reducible assumption | (intro _ _) | (intro _) | exact trivial | simp only [kept_mk, kept_fold, kept_ite, ite_self, partIn_kept, clearMirror_kept] | split | with_reducible refine kept_foldl _ _ ?_ ?_)

theorem execSnapshotBegin_kept (dt : Nat) (m : ItemHdr) (body : Bytes) (s : State) : ∃ t, execSnapshotBegin dt m body s = .next t ∧ t.kept = (advance dt s).kept :=
  itemRow_kept _ _ _ _ _ (fun s => by repeat' (first | with_reducible rfl | with_reducible refine atStandby_kept _ _ ?_ | simp only [id, kept_mk, kept_fold, kept_ite, ite_self, itemRow_kept, atStandby_kept, snapshotIn_kept] | split | (intro _)))

theorem execSnapshotEnd_kept (dt : Nat) (m : ItemHdr) (_body : Bytes) (s : State) : ∃ t, execSnapshotEnd dt m _body s = .next t ∧ t.kept = (advance dt s).kept :=
  itemRow_kept _ _ _ _ _ (fun s => by repeat' (first | with_reducible rfl | with_reducible refine atStandby_kept _ _ ?_ | simp only [id, kept_mk, kept_fold, kept_ite, ite_self, itemRow_kept, atStandby_kept, modTwin_kept] | split | (intro _)))

theorem execLinkItemSend_kept (dt : Nat) (s : State) : ∃ t, execLinkItemSend dt s = .next t ∧ t.kept = (advance dt s).kept := by
  unfold execLinkItemSend
  refine ⟨_, rfl, ?_⟩
  generalize advance dt s = s
  repeat' (first | with_reducible rfl | with_reducible assumption | (intro _ _) | (intro _) | exact trivial | simp only [kept_mk, kept_fold, kept_ite, ite_self, roomMade_kept, mirror_kept, modChan_kept] | split | with_reducible refine kept_foldl _ _ ?_ ?_)

theorem settleRole_kept (s : State) : (settleRole s).kept = s.kept := by
  unfold settleRole
  repeat' (first | with_reducible rfl | with_reducible assumption | (intro _ _) | (intro _) | exact trivial | simp only [kept_mk, kept_fold, kept_ite, ite_self, modTwin_kept, startLink_kept, setRole_kept, postJudge_kept, modBoot_kept, finishProfile_kept] | split | with_reducible refine kept_foldl _ _ ?_ ?_)

theorem execRoleSettle_kept (dt : Nat) (s : State) : ∃ t, execRoleSettle dt s = .next t ∧ t.kept = (advance dt s).kept := by
  unfold execRoleSettle
  refine ⟨_, rfl, ?_⟩
  generalize advance dt s = s
  repeat' (first | with_reducible rfl | with_reducible assumption | (intro _ _) | (intro _) | exact trivial | simp only [kept_mk, kept_fold, kept_ite, ite_self, settleRole_kept] | split | with_reducible refine kept_foldl _ _ ?_ ?_)

theorem execTakeover_kept (dt : Nat) (s : State) : ∃ t, execTakeover dt s = .next t ∧ t.kept = (advance dt s).kept := by
  unfold execTakeover
  refine ⟨_, rfl, ?_⟩
  generalize advance dt s = s
  repeat' (first | with_reducible rfl | with_reducible assumption | (intro _ _) | (intro _) | exact trivial | simp only [kept_mk, kept_fold, kept_ite, ite_self, takeOver_kept] | split | with_reducible refine kept_foldl _ _ ?_ ?_)

theorem execHandoverComplete_kept (dt : Nat) (s : State) : ∃ t, execHandoverComplete dt s = .next t ∧ t.kept = (advance dt s).kept := by
  unfold execHandoverComplete
  refine ⟨_, rfl, ?_⟩
  generalize advance dt s = s
  repeat' (first | with_reducible rfl | with_reducible assumption | (intro _ _) | (intro _) | exact trivial | simp only [kept_mk, kept_fold, kept_ite, ite_self, modTwin_kept, setRole_kept, startLink_kept, closeStream_kept] | split | with_reducible refine kept_foldl _ _ ?_ ?_)

theorem execAckWaitExpiry_kept (dt : Nat) (s : State) : ∃ t, execAckWaitExpiry dt s = .next t ∧ t.kept = (advance dt s).kept := by
  unfold execAckWaitExpiry
  refine ⟨_, rfl, ?_⟩
  generalize advance dt s = s
  repeat' (first | with_reducible rfl | with_reducible assumption | (intro _ _) | (intro _) | exact trivial | simp only [kept_mk, kept_fold, kept_ite, ite_self, settleTwin_kept, modTwin_kept] | split | with_reducible refine kept_foldl _ _ ?_ ?_)

end Sys2Proof.Machine
end

