-- ==== Sys2Proof/Laws/Held.lean ====
section
/-! SUPPORT. What every command holds to: the queue's rest, the variant, TB, the static address, and fuses that only gain. -/
namespace Sys2Proof.Machine

/-! ### Fuses -/

theorem nth_modNth {α : Type} (l : List α) (i j : Nat) (f : α → α) (d : α) :
    nth (modNth l i f) j d = if j = i ∧ i < l.length then f (nth l i d) else nth l j d := by
  induction l generalizing i j with
  | nil => simp [modNth]
  | cons a l ih =>
    cases i with
    | zero => cases j with
      | zero => simp [modNth, nth]
      | succ j => simp [modNth, nth]
    | succ i => cases j with
      | zero => simp [modNth, nth]
      | succ j =>
        have := ih i j
        simp only [nth, modNth, List.getElem?_cons_succ, List.length_cons] at this ⊢
        rw [this]
        simp

theorem KeySlot.gains_refl (a : KeySlot) : a.Gains a := ⟨fun _ => rfl, id⟩

theorem KeySlot.Gains.trans {a b c : KeySlot} (h : a.Gains b) (k : b.Gains c) : a.Gains c :=
  ⟨fun n => (k.1 (by rw [h.1 n]; exact n)).trans (h.1 n), fun n => k.2 (h.2 n)⟩

theorem Fuses.gains_refl (a : Fuses) : a.Gains a :=
  ⟨fun _ => KeySlot.gains_refl _, fun _ => KeySlot.gains_refl _, Nat.le_refl _, Nat.le_refl _, id, id⟩

theorem Fuses.Gains.trans {a b c : Fuses} (h : a.Gains b) (k : b.Gains c) : a.Gains c :=
  ⟨fun i => (h.vendor i).trans (k.vendor i), fun i => (h.owner i).trans (k.owner i), Nat.le_trans h.fwSvn k.fwSvn,
    Nat.le_trans h.imageSvn k.imageSvn, fun n => k.ownerRequired (h.ownerRequired n), fun n => k.identityPresent (h.identityPresent n)⟩

/-- A change of one key slot that gains. -/
theorem slots_gain (l : List KeySlot) (i j : Nat) (f : KeySlot → KeySlot) (h : (nth l i ⟨none, false⟩).Gains (f (nth l i ⟨none, false⟩))) :
    (nth l j ⟨none, false⟩).Gains (nth (modNth l i f) j ⟨none, false⟩) := by
  rw [nth_modNth]
  split
  · rename_i e; rw [e.1]; exact h
  · exact KeySlot.gains_refl _

theorem enrol_gains (b : Bytes) (s : State) : s.fuses.Gains (enrol b s).fuses := by
  unfold enrol
  simp only
  refine ⟨fun _ => KeySlot.gains_refl _, fun j => ?_, Nat.le_refl _, Nat.le_refl _, fun h => by simp [h], id⟩
  split
  · rename_i i h
    refine slots_gain _ _ _ _ ⟨fun n => absurd ?_ n, id⟩
    have := List.find?_some h
    exact Option.isNone_iff_eq_none.mp this
  · exact KeySlot.gains_refl _

theorem revoke_gains (b : Bytes) (s : State) : s.fuses.Gains (revoke b s).fuses := by
  unfold revoke
  simp only
  split
  · exact ⟨fun _ => KeySlot.gains_refl _, fun j => slots_gain _ _ _ _ ⟨fun _ => rfl, fun _ => rfl⟩, Nat.le_refl _, Nat.le_refl _, id, id⟩
  · exact ⟨fun j => slots_gain _ _ _ _ ⟨fun _ => rfl, fun _ => rfl⟩, fun _ => KeySlot.gains_refl _, Nat.le_refl _, Nat.le_refl _, id, id⟩

/-! ### What holds from one state to a later one -/

/-- The queue, the variant, TB and the static address are the same, and the fuses have only gained. -/
structure Held (a b : State) : Prop where
  pending : b.pending = a.pending
  variant : b.variant = a.variant
  tb : b.clk.tb = a.clk.tb
  addr : b.cmd.staticAddr = a.cmd.staticAddr
  fuses : a.fuses.Gains b.fuses

theorem held_of_kept {a b : State} (h : b.kept = a.kept) : Held a b :=
  ⟨congrArg Kept.pending h, congrArg Kept.variant h, congrArg Kept.tb h, congrArg Kept.addr h,
    by rw [show b.fuses = a.fuses from congrArg Kept.fuses h]; exact Fuses.gains_refl _⟩

theorem held_refl (a : State) : Held a a := held_of_kept rfl

theorem Held.trans {a b c : State} (h : Held a b) (k : Held b c) : Held a c :=
  ⟨k.pending.trans h.pending, k.variant.trans h.variant, k.tb.trans h.tb, k.addr.trans h.addr, h.fuses.trans k.fuses⟩

theorem Held.then {a b c : State} (h : Held a b) (k : c.kept = b.kept) : Held a c := h.trans (held_of_kept k)

theorem held_before {a b c : State} (h : b.kept = a.kept) (k : Held b c) : Held a c := (held_of_kept h).trans k

/-! ### Bodies of commands -/

theorem imageWriteBody_held (p : Packet) (s : State) : Held s ((imageWriteBody p s).after s) := by
  unfold imageWriteBody
  simp only
  split
  · exact held_refl _
  · split
    · exact held_refl _
    · split
      · exact held_refl _
      · simp only [after_ok]
        split
        · refine Held.then (b := { s with flash := _, boot := _ }) ?_ (writeDir_kept _ _)
          exact ⟨rfl, rfl, rfl, rfl, Fuses.gains_refl _⟩
        · exact ⟨rfl, rfl, rfl, rfl, Fuses.gains_refl _⟩

theorem svnCommitBody_held (p : Packet) (s : State) : Held s ((svnCommitBody p s).after s) := by
  unfold svnCommitBody
  simp only
  split
  · exact held_refl _
  · split
    · exact ⟨rfl, rfl, rfl, rfl, fun _ => KeySlot.gains_refl _, fun _ => KeySlot.gains_refl _, Nat.le_max_left _ _, Nat.le_refl _, id, id⟩
    · exact ⟨rfl, rfl, rfl, rfl, fun _ => KeySlot.gains_refl _, fun _ => KeySlot.gains_refl _, Nat.le_refl _, Nat.le_max_left _ _, id, id⟩

theorem keyUpdateBody_held (p : Packet) (s : State) : Held s ((keyUpdateBody p s).after s) := by
  unfold keyUpdateBody
  simp only
  split
  · exact held_refl _
  · split
    · exact held_of_kept (failVerify_kept _ _)
    · simp only [after_ok]
      split
      · exact ⟨rfl, rfl, rfl, rfl, revoke_gains _ _⟩
      · exact ⟨rfl, rfl, rfl, rfl, enrol_gains _ _⟩

theorem bodyOf_held (op : Nat) (p : Packet) (s : State) : Held s ((bodyOf op p s).after s) := by
  unfold bodyOf
  split
  · exact held_of_kept (timeReadBody_kept p s)
  · exact held_of_kept (slotPostBody_kept p s)
  · exact held_of_kept (slotCancelBody_kept p s)
  · exact held_of_kept (slotQueryBody_kept p s)
  · exact held_of_kept (streamOpenBody_kept p s)
  · exact held_of_kept (streamCloseBody_kept p s)
  · exact held_of_kept (flatLoadBody_kept p s)
  · exact held_of_kept (speedSetBody_kept p s)
  · exact held_of_kept (streamStatusBody_kept p s)
  · exact held_of_kept (regionPostBody_kept p s)
  · exact held_of_kept (augPostBody_kept p s)
  · exact held_of_kept (steerSetBody_kept p s)
  · exact held_of_kept (prepStatusBody_kept p s)
  · exact held_of_kept (coreStatusBody_kept p s)
  · exact held_of_kept (tallyQueryBody_kept p s)
  · exact held_of_kept (tallySignalBody_kept p s)
  · exact held_of_kept (tallyArmBody_kept p s)
  · exact held_of_kept (tallySetBody_kept p s)
  · exact held_of_kept (qpQueryBody_kept p s)
  · exact held_of_kept (qpSetBody_kept p s)
  · exact held_of_kept (seqOpenBody_kept p s)
  · exact held_of_kept (seqCloseBody_kept p s)
  · exact held_of_kept (seqCommitBody_kept p s)
  · exact held_of_kept (seqEnterBody_kept p s)
  · exact held_of_kept (stepRetireBody_kept p s)
  · exact held_of_kept (slabReserveBody_kept p s)
  · exact held_of_kept (prefixShareBody_kept p s)
  · exact held_of_kept (prefixDropBody_kept p s)
  · exact held_of_kept (seqQueryBody_kept p s)
  · exact held_of_kept (slabQueryBody_kept p s)
  · exact held_of_kept (slabStatusBody_kept p s)
  · exact held_of_kept (jobStatusBody_kept p s)
  · exact held_of_kept (lineQueryBody_kept p s)
  · exact held_of_kept (learnPostBody_kept p s)
  · exact held_of_kept (learnControlBody_kept p s)
  · exact held_of_kept (textTokenizeBody_kept p s)
  · exact held_of_kept (textDetokenizeBody_kept p s)
  · exact held_of_kept (grammarBindBody_kept p s)
  · exact held_of_kept (stopSetBody_kept p s)
  · exact held_of_kept (grammarLoadBody_kept p s)
  · exact held_of_kept (grammarQueryBody_kept p s)
  · exact held_of_kept (outStatusBody_kept p s)
  · exact held_of_kept (paramReadBody_kept p s)
  · exact held_of_kept (paramWriteBody_kept p s)
  · exact held_of_kept (epochPostBody_kept p s)
  · exact held_of_kept (epochDiscardBody_kept p s)
  · exact held_of_kept (epochStatusBody_kept p s)
  · exact held_of_kept (adapterActivateBody_kept p s)
  · exact held_of_kept (resourceQueryBody_kept p s)
  · exact held_of_kept (mboxWriteBody_kept p s)
  · exact held_of_kept (mboxReadBody_kept p s)
  · exact held_of_kept (mboxRingBody_kept p s)
  · exact held_of_kept (mboxDbReadBody_kept p s)
  · exact held_of_kept (mboxConfigBody_kept p s)
  · exact held_of_kept (mboxQueryBody_kept p s)
  · exact held_of_kept (mboxFlushBody_kept p s)
  · exact held_of_kept (pwrStateBody_kept p s)
  · exact held_of_kept (pwrStatusBody_kept p s)
  · exact held_of_kept (ageQueryBody_kept p s)
  · exact held_of_kept (ageReplanBody_kept p s)
  · exact held_of_kept (faultLogBody_kept p s)
  · exact held_of_kept (faultInjectBody_kept p s)
  · exact held_of_kept (twinStatusBody_kept p s)
  · exact held_of_kept (twinTakeoverBody_kept p s)
  · exact held_of_kept (twinHandoverBody_kept p s)
  · exact held_of_kept (frzReadBody_kept p s)
  · exact held_of_kept (secIdentityBody_kept p s)
  · exact held_of_kept (secAttestBody_kept p s)
  · exact imageWriteBody_held p s
  · exact held_of_kept (imageCommitBody_kept _ p s)
  · exact held_of_kept (imageActivateBody_kept p s)
  · exact held_of_kept (profileStoreBody_kept p s)
  · exact held_of_kept (secRebootBody_kept p s)
  · exact svnCommitBody_held p s
  · exact keyUpdateBody_held p s
  · exact held_of_kept (pinStatusBody_kept p s)
  · exact held_of_kept (clockStatusBody_kept p s)
  · exact held_refl _

/-! ### Executing packets -/

theorem runPacket_held (body : Body) (p : Packet) (s : State) (h : Held s ((body p s).after s)) : Held s (runPacket body p s) := by
  have hs : Held s ((standbyCheck p s (body p s)).after s) := by
    unfold standbyCheck
    split
    · revert h
      cases body p s with
      | ok d t => intro _; exact held_refl _
      | refuse st d => intro _; simp only; split <;> exact held_refl _
      | refuseWith st d t => intro _; exact held_refl _
    · exact h
  unfold runPacket
  extract_lets exec
  cases p.framing with
  | some st => exact held_of_kept (reply_kept _ _ _ _ _ _)
  | none =>
    cases refusedFirst p s with
    | some st => exact held_of_kept (reply_kept _ _ _ _ _ _)
    | none =>
      revert hs
      cases standbyCheck p s (body p s) with
      | ok d t => intro hs; exact Held.then hs (by simp only [reply_kept, mirrorCommand_kept]; rfl)
      | refuse st d => intro _; exact held_of_kept (reply_kept _ _ _ _ _ _)
      | refuseWith st d t => intro hs; exact Held.then hs (reply_kept _ _ _ _ _ _)

theorem receive_held (body : Body) (p : Packet) (s : State) (h : ∀ p s, Held s ((body p s).after s)) : Held s (receive body p s) := by
  unfold receive
  simp only
  repeat' split
  all_goals first
    | exact held_refl _
    | exact held_of_kept (touchFront_kept _)
    | exact held_of_kept rfl
    | exact (held_before rfl (runPacket_held _ _ _ (h _ _)))
    | exact (held_before (by simp only [touchFront_kept, kept_mk, kept_fold]) (runPacket_held _ _ _ (h _ _)))
    | exact held_of_kept (by simp only [touchFront_kept, kept_mk, kept_fold])

theorem hostRow_held (op : Nat) (body : Body) (hb : ∀ p s, Held s ((body p s).after s)) (dt : Nat) (h : Hdr) (p : Bytes) (s : State) :
    ∃ t, hostRow op body dt h p s = .next t ∧ Held (advance dt s) t :=
  ⟨_, rfl, receive_held body _ _ hb⟩

theorem pumpPackets_held (n : Nat) (s : State) : Held s (pumpPackets n s) := by
  induction n generalizing s with
  | zero => exact held_refl _
  | succ n ih =>
    unfold pumpPackets
    split
    · exact held_refl _
    · rename_i p ps _
      split
      · exact held_of_kept (touchFront_kept _)
      · refine Held.trans ?_ (ih _)
        refine Held.then ?_ (finishSleep_kept _)
        exact held_before (a := s) (b := { s with cmd := { s.cmd with packets := ps } }) rfl (runPacket_held _ _ _ (bodyOf_held _ _ _))

theorem runHeld_held (s : State) : Held s (runHeld s) := pumpPackets_held _ _

end Sys2Proof.Machine
end

