-- ==== Sys2Proof/Laws/HeldRows.lean ====
section
/-! SUPPORT. Every command completes, and what it holds to. -/
namespace Sys2Proof.Machine

theorem execReplyRead_held (dt max : Nat) (s : State) : ∃ t, execReplyRead dt max s = .next t ∧ Held (advance dt s) t := by
  unfold execReplyRead
  refine ⟨_, rfl, ?_⟩
  generalize advance dt s = s
  simp only
  split
  · exact held_refl _
  · split
    · exact held_refl _
    · refine held_before ?_ (runHeld_held _)
      simp only [kept_ite, rearmIbi_kept, kept_mk, kept_fold, ite_self]

theorem execDomainReady_held (dt domain : Nat) (s : State) : ∃ t, execDomainReady dt domain s = .next t ∧ Held (advance dt s) t := by
  unfold execDomainReady
  refine ⟨_, rfl, ?_⟩
  split
  · exact held_before (domainReady_kept _ _) (runHeld_held _)
  · exact held_refl _

theorem commandIn_held (body : Bytes) (s : State) : Held s (commandIn body s) := by
  unfold commandIn
  simp only
  split
  · exact held_of_kept (recordOpen_kept _ _ _)
  · exact runPacket_held _ _ _ (bodyOf_held _ _ _)

theorem execCommandItem_held (dt : Nat) (m : ItemHdr) (body : Bytes) (s : State) : ∃ t, execCommandItem dt m body s = .next t ∧ Held (advance dt s) t := by
  unfold execCommandItem itemRow
  refine ⟨_, rfl, ?_⟩
  generalize advance dt s = s
  split
  · refine Held.then ?_ (settleTwin_kept _)
    refine held_before (itemHeard_kept m s) ?_
    unfold takeItem
    split
    · unfold atStandby
      generalize hb : modTwin _ (itemHeard m s) = b
      have hk : b.kept = (itemHeard m s).kept := hb ▸ modTwin_kept _ _
      refine held_before hk ?_
      split
      · exact commandIn_held _ _
      · exact held_refl _
    · split
      · exact held_of_kept (sendNak_kept _)
      · exact held_refl _
  · exact held_refl _

theorem recoveryMode_held (s : State) : Held s (recoveryMode s) := held_before (modBoot_kept _ _) (runHeld_held _)

theorem getReady_held (mask : Nat) (auto : Bool) (s : State) : Held s (getReady mask auto s) := by
  unfold getReady
  refine held_before ?_ (runHeld_held _)
  simp only [funcPins_kept, kept_ite, finishProfile_kept, kept_mk, kept_fold, modTwin_kept, modBoot_kept, ite_self]

theorem profileStep_held (s : State) : Held s (profileStep s) := by
  unfold profileStep
  refine held_before ?_ (getReady_held _ _ _)
  simp only [postProfile_kept, applyProfile_kept, fallbackEvent_kept, modBoot_kept]

theorem firmwareBoot_held (s : State) : Held s (firmwareBoot s) := by
  unfold firmwareBoot
  refine held_before ?_ (profileStep_held _)
  split <;>
    simp only [loadSlot_kept, wakeStacks_kept, chooseImage_kept, watchControlCores_kept, setChannels_kept, firstEpoch_kept, powerUp_kept,
      kept_mk, kept_fold]

theorem execBoot_held (dt : Nat) (s : State) : ∃ t, execBoot dt s = .next t ∧ Held (advance dt s) t := by
  unfold execBoot
  refine ⟨_, rfl, ?_⟩
  generalize advance dt s = s
  simp only
  split
  · split
    · exact recoveryMode_held _
    · generalize hb : writeDir _ s = b
      have hk : b.kept = s.kept := hb ▸ writeDir_kept _ _
      refine held_before hk ?_
      split
      · rename_i h
        exact held_before (chooseFirmware_kept _ _ h) (firmwareBoot_held _)
      · exact held_before (noteFailure_kept _ _) (recoveryMode_held _)
  · exact held_refl _

theorem held_row {o : Host.Outcome State Fault Refusal} {s : State} (h : ∃ t, o = .next t ∧ t.kept = s.kept) : ∃ t, o = .next t ∧ Held s t :=
  ⟨h.choose, h.choose_spec.1, held_of_kept h.choose_spec.2⟩

/-- Every command but those that set TB completes, and holds to the state as time has brought it. -/
theorem exec_held (i : Instr) (s : State) (hi : setsTb i = false) : ∃ t, exec i s = .next t ∧ Held (advance (elapsed i) s) t := by
  cases i with
  | timeRead dt h p => exact held_row (execTimeRead_kept dt h p s)
  | slotPost dt h p => exact held_row (execSlotPost_kept dt h p s)
  | slotCancel dt h p => exact held_row (execSlotCancel_kept dt h p s)
  | slotQuery dt h p => exact held_row (execSlotQuery_kept dt h p s)
  | preDispatch dt slot => exact held_row (execPreDispatch_kept dt slot s)
  | shareGrant dt => exact held_row (execShareGrant_kept dt s)
  | strobe dt slot => exact held_row (execStrobe_kept dt slot s)
  | lineTrig dt slot => exact held_row (execLineTrig_kept dt slot s)
  | pinSet dt slot => exact held_row (execPinSet_kept dt slot s)
  | stepStart dt slot => exact held_row (execStepStart_kept dt slot s)
  | outRelease dt slot => exact held_row (execOutRelease_kept dt slot s)
  | deadline dt slot => exact held_row (execDeadline_kept dt slot s)
  | wake dt slot => exact held_row (execWake_kept dt slot s)
  | tallySignalAction dt slot => exact held_row (execTallySignalAction_kept dt slot s)
  | doorbell dt slot => exact held_row (execDoorbell_kept dt slot s)
  | quietPoint dt slot => exact held_row (execQuietPoint_kept dt slot s)
  | tbMark dt slot => exact held_row (execTbMark_kept dt slot s)
  | watch dt slot => exact held_row (execWatch_kept dt slot s)
  | packetGap dt header => exact held_row (execPacketGap_kept dt header s)
  | ibiRetry dt nack => exact held_row (execIbiRetry_kept dt nack s)
  | controlWatchdog dt core served => exact held_row (execControlWatchdog_kept dt core served s)
  | learningTargetExpiry dt => exact held_row (execLearningTargetExpiry_kept dt s)
  | missingLine dt stream => exact held_row (execMissingLine_kept dt stream s)
  | frameStart dt fix port vc => exact held_row (execFrameStart_kept dt fix port vc s)
  | frameEnd dt fix port vc => exact held_row (execFrameEnd_kept dt fix port vc s)
  | lineStart dt fix port vc data => exact held_row (execLineStart_kept dt fix port vc data s)
  | longPacket dt k => exact held_row (execLongPacket_kept dt k s)
  | lineEnd dt fix port vc => exact held_row (execLineEnd_kept dt fix port vc s)
  | uncorrectableHeaderError dt port => exact held_row (execUncorrectableHeaderError_kept dt port s)
  | genericShortPacket dt fix port vc code data => exact held_row (execGenericShortPacket_kept dt fix port vc code data s)
  | tachEdge dt pin => exact held_row (execTachEdge_kept dt pin s)
  | streamStart dt stream => exact held_row (execStreamStart_kept dt stream s)
  | streamOpen dt h p => exact held_row (execStreamOpen_kept dt h p s)
  | streamClose dt h p => exact held_row (execStreamClose_kept dt h p s)
  | flatLoad dt h p => exact held_row (execFlatLoad_kept dt h p s)
  | speedSet dt h p => exact held_row (execSpeedSet_kept dt h p s)
  | streamStatus dt h p => exact held_row (execStreamStatus_kept dt h p s)
  | streamDiscovery dt stream seen => exact held_row (execStreamDiscovery_kept dt stream seen s)
  | discoveryRetry dt stream seen => exact held_row (execDiscoveryRetry_kept dt stream seen s)
  | bandPrepared dt stream => exact held_row (execBandPrepared_kept dt stream s)
  | batchFilled dt cls => exact held_row (execBatchFilled_kept dt cls s)
  | splitAdvice dt stream => exact held_row (execSplitAdvice_kept dt stream s)
  | regionPost dt h p => exact held_row (execRegionPost_kept dt h p s)
  | augPost dt h p => exact held_row (execAugPost_kept dt h p s)
  | steerSet dt h p => exact held_row (execSteerSet_kept dt h p s)
  | prepStatus dt h p => exact held_row (execPrepStatus_kept dt h p s)
  | addI dt core w => exact held_row (execAddI_kept dt core w s)
  | subI dt core w => exact held_row (execSubI_kept dt core w s)
  | mulI dt core w => exact held_row (execMulI_kept dt core w s)
  | andI dt core w => exact held_row (execAndI_kept dt core w s)
  | orI dt core w => exact held_row (execOrI_kept dt core w s)
  | xorI dt core w => exact held_row (execXorI_kept dt core w s)
  | shl dt core w => exact held_row (execShl_kept dt core w s)
  | shr dt core w => exact held_row (execShr_kept dt core w s)
  | sra dt core w => exact held_row (execSra_kept dt core w s)
  | minI dt core w => exact held_row (execMinI_kept dt core w s)
  | maxI dt core w => exact held_row (execMaxI_kept dt core w s)
  | cmp dt core w => exact held_row (execCmp_kept dt core w s)
  | br dt core w => exact held_row (execBr_kept dt core w s)
  | loop dt core w => exact held_row (execLoop_kept dt core w s)
  | tbrd dt core w => exact held_row (execTbrd_kept dt core w s)
  | halt dt core w => exact held_row (execHalt_kept dt core w s)
  | gset dt core w => exact held_row (execGset_kept dt core w s)
  | ld dt core w => exact held_row (execLd_kept dt core w s)
  | st dt core w => exact held_row (execSt_kept dt core w s)
  | ldv dt core w => exact held_row (execLdv_kept dt core w s)
  | stv dt core w => exact held_row (execStv_kept dt core w s)
  | ldvc dt core w => exact held_row (execLdvc_kept dt core w s)
  | stvc dt core w => exact held_row (execStvc_kept dt core w s)
  | dma dt core w => exact held_row (execDma_kept dt core w s)
  | dmaComplete dt core entry => exact held_row (execDmaComplete_kept dt core entry s)
  | mmI8 dt core w => exact held_row (execMmI8_kept dt core w s)
  | mmE4 dt core w => exact held_row (execMmE4_kept dt core w s)
  | mmE5 dt core w => exact held_row (execMmE5_kept dt core w s)
  | mmBf dt core w => exact held_row (execMmBf_kept dt core w s)
  | mmtI8 dt core w => exact held_row (execMmtI8_kept dt core w s)
  | mmtE4 dt core w => exact held_row (execMmtE4_kept dt core w s)
  | tload dt core w => exact held_row (execTload_kept dt core w s)
  | vectorAdd dt core w => exact held_row (execVectorAdd_kept dt core w s)
  | vectorMul dt core w => exact held_row (execVectorMul_kept dt core w s)
  | fma dt core w => exact held_row (execFma_kept dt core w s)
  | vectorMax dt core w => exact held_row (execVectorMax_kept dt core w s)
  | vectorMin dt core w => exact held_row (execVectorMin_kept dt core w s)
  | exp dt core w => exact held_row (execExp_kept dt core w s)
  | rcp dt core w => exact held_row (execRcp_kept dt core w s)
  | rsqrt dt core w => exact held_row (execRsqrt_kept dt core w s)
  | rsum dt core w => exact held_row (execRsum_kept dt core w s)
  | rmax dt core w => exact held_row (execRmax_kept dt core w s)
  | cvt dt core w => exact held_row (execCvt_kept dt core w s)
  | drain dt core w => exact held_row (execDrain_kept dt core w s)
  | ssoft dt core w => exact held_row (execSsoft_kept dt core w s)
  | spvBf dt core w => exact held_row (execSpvBf_kept dt core w s)
  | spvE4 dt core w => exact held_row (execSpvE4_kept dt core w s)
  | snorm dt core w => exact held_row (execSnorm_kept dt core w s)
  | sstat dt core w => exact held_row (execSstat_kept dt core w s)
  | sldst dt core w => exact held_row (execSldst_kept dt core w s)
  | smerge dt core w => exact held_row (execSmerge_kept dt core w s)
  | sapp dt core w => exact held_row (execSapp_kept dt core w s)
  | sbwd dt core w => exact held_row (execSbwd_kept dt core w s)
  | strn dt core w => exact held_row (execStrn_kept dt core w s)
  | sxlt dt core w => exact held_row (execSxlt_kept dt core w s)
  | walkerReply dt cluster => exact held_row (execWalkerReply_kept dt cluster s)
  | copyOnWriteComplete dt slab => exact held_row (execCopyOnWriteComplete_kept dt slab s)
  | gmask dt core w => exact held_row (execGmask_kept dt core w s)
  | maskRequest dt cluster => exact held_row (execMaskRequest_kept dt cluster s)
  | sargm dt core w => exact held_row (execSargm_kept dt core w s)
  | tsig dt core w => exact held_row (execTsig_kept dt core w s)
  | twait dt core w => exact held_row (execTwait_kept dt core w s)
  | ttry dt core w => exact held_row (execTtry_kept dt core w s)
  | twaitge dt core w => exact held_row (execTwaitge_kept dt core w s)
  | tset dt core w => exact held_row (execTset_kept dt core w s)
  | tarm dt core w => exact held_row (execTarm_kept dt core w s)
  | tread dt core w => exact held_row (execTread_kept dt core w s)
  | fence dt core w => exact held_row (execFence_kept dt core w s)
  | waitu dt core w => exact held_row (execWaitu_kept dt core w s)
  | send dt core w => exact held_row (execSend_kept dt core w s)
  | wmmI8 dt core w => exact held_row (execWmmI8_kept dt core w s)
  | wmmE4 dt core w => exact held_row (execWmmE4_kept dt core w s)
  | wmmE5 dt core w => exact held_row (execWmmE5_kept dt core w s)
  | wmmBf dt core w => exact held_row (execWmmBf_kept dt core w s)
  | wmmtI8 dt core w => exact held_row (execWmmtI8_kept dt core w s)
  | wmmtE4 dt core w => exact held_row (execWmmtE4_kept dt core w s)
  | wdrain dt core w => exact held_row (execWdrain_kept dt core w s)
  | wpool dt core w => exact held_row (execWpool_kept dt core w s)
  | wres dt core w => exact held_row (execWres_kept dt core w s)
  | wunz dt core w => exact held_row (execWunz_kept dt core w s)
  | preemptionRequest dt cluster mask stops => exact held_row (execPreemptionRequest_kept dt cluster mask stops s)
  | contextValid dt core => exact held_row (execContextValid_kept dt core s)
  | restore dt core ctx => exact held_row (execRestore_kept dt core ctx s)
  | restoreComplete dt core => exact held_row (execRestoreComplete_kept dt core s)
  | coreStatus dt h p => exact held_row (execCoreStatus_kept dt h p s)
  | tallyQuery dt h p => exact held_row (execTallyQuery_kept dt h p s)
  | tallySignal dt h p => exact held_row (execTallySignal_kept dt h p s)
  | tallyArm dt h p => exact held_row (execTallyArm_kept dt h p s)
  | tallySet dt h p => exact held_row (execTallySet_kept dt h p s)
  | qpQuery dt h p => exact held_row (execQpQuery_kept dt h p s)
  | qpSet dt h p => exact held_row (execQpSet_kept dt h p s)
  | seqOpen dt h p => exact held_row (execSeqOpen_kept dt h p s)
  | seqClose dt h p => exact held_row (execSeqClose_kept dt h p s)
  | seqCommit dt h p => exact held_row (execSeqCommit_kept dt h p s)
  | seqEnter dt h p => exact held_row (execSeqEnter_kept dt h p s)
  | stepRetire dt h p => exact held_row (execStepRetire_kept dt h p s)
  | slabReserve dt h p => exact held_row (execSlabReserve_kept dt h p s)
  | prefixShare dt h p => exact held_row (execPrefixShare_kept dt h p s)
  | prefixDrop dt h p => exact held_row (execPrefixDrop_kept dt h p s)
  | seqQuery dt h p => exact held_row (execSeqQuery_kept dt h p s)
  | slabQuery dt h p => exact held_row (execSlabQuery_kept dt h p s)
  | slabStatus dt h p => exact held_row (execSlabStatus_kept dt h p s)
  | promotion dt slab => exact held_row (execPromotion_kept dt slab s)
  | stepBuild dt job plan => exact held_row (execStepBuild_kept dt job plan s)
  | acceptance dt job facts => exact held_row (execAcceptance_kept dt job facts s)
  | releaseCheckTimeout dt sheet fields => exact held_row (execReleaseCheckTimeout_kept dt sheet fields s)
  | secondDeadlineTimeout dt sheet => exact held_row (execSecondDeadlineTimeout_kept dt sheet s)
  | jobWaiting dt job => exact held_row (execJobWaiting_kept dt job s)
  | jobStatus dt h p => exact held_row (execJobStatus_kept dt h p s)
  | lineQuery dt h p => exact held_row (execLineQuery_kept dt h p s)
  | learnPost dt h p => exact held_row (execLearnPost_kept dt h p s)
  | learnControl dt h p => exact held_row (execLearnControl_kept dt h p s)
  | textTokenize dt h p => exact held_row (execTextTokenize_kept dt h p s)
  | textDetokenize dt h p => exact held_row (execTextDetokenize_kept dt h p s)
  | grammarBind dt h p => exact held_row (execGrammarBind_kept dt h p s)
  | stopSet dt h p => exact held_row (execStopSet_kept dt h p s)
  | grammarLoad dt h p => exact held_row (execGrammarLoad_kept dt h p s)
  | grammarQuery dt h p => exact held_row (execGrammarQuery_kept dt h p s)
  | recordCommit dt kind sheet fields => exact held_row (execRecordCommit_kept dt kind sheet fields s)
  | transmitPacket dt port => exact held_row (execTransmitPacket_kept dt port s)
  | outHoldFall dt => exact held_row (execOutHoldFall_kept dt s)
  | outHoldRise dt => exact held_row (execOutHoldRise_kept dt s)
  | outStatus dt h p => exact held_row (execOutStatus_kept dt h p s)
  | framingRefusal dt k => exact held_row (execFramingRefusal_kept dt k s)
  | replyRead dt max => exact execReplyRead_held dt max s
  | paramRead dt h p => exact held_row (execParamRead_kept dt h p s)
  | paramWrite dt h p => exact held_row (execParamWrite_kept dt h p s)
  | epochPost dt h p => exact held_row (execEpochPost_kept dt h p s)
  | epochDiscard dt h p => exact held_row (execEpochDiscard_kept dt h p s)
  | epochStatus dt h p => exact held_row (execEpochStatus_kept dt h p s)
  | epochAdoption dt => exact held_row (execEpochAdoption_kept dt s)
  | quietApply dt => exact held_row (execQuietApply_kept dt s)
  | adapterActivate dt h p => exact held_row (execAdapterActivate_kept dt h p s)
  | resourceQuery dt h p => exact held_row (execResourceQuery_kept dt h p s)
  | mboxWrite dt h p => exact held_row (execMboxWrite_kept dt h p s)
  | mboxRead dt h p => exact held_row (execMboxRead_kept dt h p s)
  | mboxRing dt h p => exact held_row (execMboxRing_kept dt h p s)
  | mboxDbRead dt h p => exact held_row (execMboxDbRead_kept dt h p s)
  | mboxConfig dt h p => exact held_row (execMboxConfig_kept dt h p s)
  | mboxQuery dt h p => exact held_row (execMboxQuery_kept dt h p s)
  | mboxFlush dt h p => exact held_row (execMboxFlush_kept dt h p s)
  | entdaa dt addr => exact held_row (execEntdaa_kept dt addr s)
  | setdasa dt addr => exact held_row (execSetdasa_kept dt addr s)
  | rstdaa dt => exact held_row (execRstdaa_kept dt s)
  | enec dt bits => exact held_row (execEnec_kept dt bits s)
  | disec dt bits => exact held_row (execDisec_kept dt bits s)
  | getpid dt => exact held_row (execGetpid_kept dt s)
  | getbcr dt => exact held_row (execGetbcr_kept dt s)
  | getdcr dt => exact held_row (execGetdcr_kept dt s)
  | getstatus dt => exact held_row (execGetstatus_kept dt s)
  | setmwl dt n => exact held_row (execSetmwl_kept dt n s)
  | getmwl dt => exact held_row (execGetmwl_kept dt s)
  | setmrl dt n => exact held_row (execSetmrl_kept dt n s)
  | getmrl dt => exact held_row (execGetmrl_kept dt s)
  | getmxds dt => exact held_row (execGetmxds_kept dt s)
  | getcaps dt => exact held_row (execGetcaps_kept dt s)
  | enthdr0 dt => exact held_row (execEnthdr0_kept dt s)
  | sleepWakeWrite dt addr => exact held_row (execSleepWakeWrite_kept dt addr s)
  | pwrState dt h p => exact held_row (execPwrState_kept dt h p s)
  | pwrStatus dt h p => exact held_row (execPwrStatus_kept dt h p s)
  | ageQuery dt h p => exact held_row (execAgeQuery_kept dt h p s)
  | ageReplan dt h p => exact held_row (execAgeReplan_kept dt h p s)
  | replan dt => exact held_row (execReplan_kept dt s)
  | wakeComparator dt ticks => exact held_row (execWakeComparator_kept dt ticks s)
  | wakeFromSleep dt ticks => exact absurd hi Bool.false_ne_true.symm
  | deviceReady dt => exact held_row (execDeviceReady_kept dt s)
  | dozeEntry dt stack => exact held_row (execDozeEntry_kept dt stack s)
  | domainReady dt domain => exact execDomainReady_held dt domain s
  | clusterHoldExpiry dt cluster => exact held_row (execClusterHoldExpiry_kept dt cluster s)
  | budgetChange dt => exact held_row (execBudgetChange_kept dt s)
  | downshift dt slot => exact held_row (execDownshift_kept dt slot s)
  | ledgerWaitReport dt slot => exact held_row (execLedgerWaitReport_kept dt slot s)
  | thermalSample dt temps => exact held_row (execThermalSample_kept dt temps s)
  | coreSenseSample dt microvolt => exact held_row (execCoreSenseSample_kept dt microvolt s)
  | pathMonitorSample dt cluster ps => exact held_row (execPathMonitorSample_kept dt cluster ps s)
  | ringOscillatorCount dt cluster counts => exact held_row (execRingOscillatorCount_kept dt cluster counts s)
  | brownOut dt rail => exact held_row (execBrownOut_kept dt rail s)
  | recoveryResume dt => exact held_row (execRecoveryResume_kept dt s)
  | sramScrub dt at_ bits => exact held_row (execSramScrub_kept dt at_ bits s)
  | patrolScrub dt addr err => exact held_row (execPatrolScrub_kept dt addr err s)
  | linkUncorrected dt place => exact held_row (execLinkUncorrected_kept dt place s)
  | clockLost dt => exact held_row (execClockLost_kept dt s)
  | refInterruption dt ns => exact held_row (execRefInterruption_kept dt ns s)
  | aonClockLost dt => exact held_row (execAonClockLost_kept dt s)
  | aonClockRestored dt => exact held_row (execAonClockRestored_kept dt s)
  | aonCalibration dt ns => exact held_row (execAonCalibration_kept dt ns s)
  | tbSync dt die => exact held_row (execTbSync_kept dt die s)
  | faultLog dt h p => exact held_row (execFaultLog_kept dt h p s)
  | faultInject dt h p => exact held_row (execFaultInject_kept dt h p s)
  | twinStatus dt h p => exact held_row (execTwinStatus_kept dt h p s)
  | twinTakeover dt h p => exact held_row (execTwinTakeover_kept dt h p s)
  | twinHandover dt h p => exact held_row (execTwinHandover_kept dt h p s)
  | handoverComplete dt => exact held_row (execHandoverComplete_kept dt s)
  | frzRead dt h p => exact held_row (execFrzRead_kept dt h p s)
  | freeze dt => exact held_row (execFreeze_kept dt s)
  | heartbeat dt => exact held_row (execHeartbeat_kept dt s)
  | heartbeatReceived dt width => exact held_row (execHeartbeatReceived_kept dt width s)
  | takeover dt => exact held_row (execTakeover_kept dt s)
  | roleSettle dt => exact held_row (execRoleSettle_kept dt s)
  | ackWaitExpiry dt => exact held_row (execAckWaitExpiry_kept dt s)
  | linkItemSend dt => exact held_row (execLinkItemSend_kept dt s)
  | hello dt m body => exact held_row (execHello_kept dt m body s)
  | linkItem dt m body => exact held_row (execLinkItem_kept dt m body s)
  | commandItem dt m body => exact execCommandItem_held dt m body s
  | sideItem dt m body => exact held_row (execSideItem_kept dt m body s)
  | recordItem dt m body => exact held_row (execRecordItem_kept dt m body s)
  | sent dt m body => exact held_row (execSent_kept dt m body s)
  | blob dt m body => exact held_row (execBlob_kept dt m body s)
  | mboxItem dt m body => exact held_row (execMboxItem_kept dt m body s)
  | nak dt m body => exact held_row (execNak_kept dt m body s)
  | snapshotBegin dt m body => exact held_row (execSnapshotBegin_kept dt m body s)
  | snapshotEnd dt m body => exact held_row (execSnapshotEnd_kept dt m body s)
  | powerOnReset dt asel => exact absurd hi Bool.false_ne_true.symm
  | boot dt => exact execBoot_held dt s
  | pllLock dt => exact absurd hi Bool.false_ne_true.symm
  | secIdentity dt h p => exact held_row (execSecIdentity_kept dt h p s)
  | secAttest dt h p => exact held_row (execSecAttest_kept dt h p s)
  | imageWrite dt h p => exact hostRow_held _ _ imageWriteBody_held dt h p s
  | imageCommit dt h p => exact held_row (execImageCommit_kept dt h p s)
  | imageActivate dt h p => exact held_row (execImageActivate_kept dt h p s)
  | profileStore dt h p => exact held_row (execProfileStore_kept dt h p s)
  | secReboot dt h p => exact held_row (execSecReboot_kept dt h p s)
  | svnCommit dt h p => exact hostRow_held _ _ svnCommitBody_held dt h p s
  | keyUpdate dt h p => exact hostRow_held _ _ keyUpdateBody_held dt h p s
  | pinStatus dt h p => exact held_row (execPinStatus_kept dt h p s)
  | clockStatus dt h p => exact held_row (execClockStatus_kept dt h p s)
  | hostInEdge dt pin level => exact held_row (execHostInEdge_kept dt pin level s)
  | wakeInEdge dt pin level => exact held_row (execWakeInEdge_kept dt pin level s)
  | timeTbLo dt => exact held_row (execTimeTbLo_kept dt s)
  | timeFcStatus dt => exact held_row (execTimeFcStatus_kept dt s)
  | intkPortErr dt port => exact held_row (execIntkPortErr_kept dt port s)
  | coreNumEvt dt => exact held_row (execCoreNumEvt_kept dt s)
  | textGmu dt => exact held_row (execTextGmu_kept dt s)
  | outPortStat dt port => exact held_row (execOutPortStat_kept dt port s)
  | cmdChan dt => exact held_row (execCmdChan_kept dt s)
  | cmdIf dt => exact held_row (execCmdIf_kept dt s)
  | pwrWakeCause dt => exact held_row (execPwrWakeCause_kept dt s)
  | fltEcc dt => exact held_row (execFltEcc_kept dt s)
  | pinClkStat dt => exact held_row (execPinClkStat_kept dt s)
  | debugRegisterWrite dt addr v => exact held_row (execDebugRegisterWrite_kept dt addr v s)
  | frzAddr dt a => exact held_row (execFrzAddr_kept dt a s)
  | frzData dt => exact held_row (execFrzData_kept dt s)
  | frzStat dt => exact held_row (execFrzStat_kept dt s)
  | frzReset dt => exact held_row (execFrzReset_kept dt s)
  | dbgAddr dt addr => exact held_row (execDbgAddr_kept dt addr s)
  | dbgData dt write v => exact held_row (execDbgData_kept dt write v s)
  | bypass dt tdi => exact held_row (execBypass_kept dt tdi s)
  | idcode dt => exact held_row (execIdcode_kept dt s)
  | samplePreload dt cells => exact held_row (execSamplePreload_kept dt cells s)
  | extest dt cells => exact held_row (execExtest_kept dt cells s)
  | extestPulse dt cells => exact held_row (execExtestPulse_kept dt cells s)
  | extestTrain dt cells => exact held_row (execExtestTrain_kept dt cells s)
  | opcodeUnknown dt h opcode p => exact held_row (execOpcodeUnknown_kept dt h opcode p s)
  | shareReturn dt => exact held_row (execShareReturn_kept dt s)
  | mirrorItemDiscarded dt reason => exact held_row (execMirrorItemDiscarded_kept dt reason s)
  | busFree dt nack => exact held_row (execBusFree_kept dt nack s)
  | reverseBias dt cluster => exact held_row (execReverseBias_kept dt cluster s)

/-! ### The commands that set TB -/

theorem advance_pending (dt : Nat) (s : State) : (advance dt s).pending = s.pending := by unfold advance; split <;> rfl
theorem advance_variant (dt : Nat) (s : State) : (advance dt s).variant = s.variant := by unfold advance; split <;> rfl
theorem advance_fuses (dt : Nat) (s : State) : (advance dt s).fuses = s.fuses := by unfold advance; split <;> rfl
theorem advance_addr (dt : Nat) (s : State) : (advance dt s).cmd.staticAddr = s.cmd.staticAddr := by unfold advance; split <;> rfl
theorem advance_tb (dt : Nat) (s : State) : (advance dt s).clk.tb = if s.clk.tbRun then s.clk.tb + dt else s.clk.tb := by
  unfold advance; split <;> rfl

theorem execPllLock_next (dt : Nat) (s : State) :
    ∃ t, execPllLock dt s = .next t ∧ t.pending = s.pending ∧ t.variant = s.variant ∧ t.fuses = s.fuses := by
  unfold execPllLock
  refine ⟨_, rfl, ?_⟩
  split
  · exact ⟨advance_pending _ _, advance_variant _ _, advance_fuses _ _⟩
  · exact ⟨advance_pending _ _, advance_variant _ _, advance_fuses _ _⟩

theorem execWakeFromSleep_next (dt ticks : Nat) (s : State) :
    ∃ t, execWakeFromSleep dt ticks s = .next t ∧ t.pending = s.pending ∧ t.variant = s.variant ∧ t.fuses = s.fuses := by
  unfold execWakeFromSleep
  refine ⟨_, rfl, ?_⟩
  rw [← advance_pending dt s, ← advance_variant dt s, ← advance_fuses dt s]
  generalize advance dt s = s
  have ha : ∀ u : State, u.kept = s.kept → (askBoot u).pending = s.pending ∧ (askBoot u).variant = s.variant ∧ (askBoot u).fuses = s.fuses :=
    fun u e => ⟨congrArg Kept.pending e, congrArg Kept.variant e, congrArg Kept.fuses e⟩
  split
  · split
    · split
      · have e := thaw_kept
        exact ⟨congrArg Kept.pending (e _ ticks s), congrArg Kept.variant (e _ ticks s), congrArg Kept.fuses (e _ ticks s)⟩
      · exact ha _ (recordWake_kept _ _ _ _)
    · exact ha _ (recordWake_kept _ _ _ _)
  · exact ⟨rfl, rfl, rfl⟩

/-- Every command completes, with the queue as it was, the same variant, and fuses that have only gained. -/
theorem exec_next (i : Instr) (s : State) :
    ∃ t, exec i s = .next t ∧ t.pending = s.pending ∧ t.variant = s.variant ∧ s.fuses.Gains t.fuses := by
  cases h : setsTb i with
  | false =>
    obtain ⟨t, e, k⟩ := exec_held i s h
    exact ⟨t, e, k.pending.trans (advance_pending _ _), k.variant.trans (advance_variant _ _), advance_fuses (elapsed i) s ▸ k.fuses⟩
  | true =>
    cases i with
    | pllLock dt => obtain ⟨t, e, a, b, c⟩ := execPllLock_next dt s; exact ⟨t, e, a, b, c ▸ Fuses.gains_refl _⟩
    | powerOnReset dt asel => exact ⟨_, rfl, rfl, rfl, Fuses.gains_refl _⟩
    | wakeFromSleep dt ticks => obtain ⟨t, e, a, b, c⟩ := execWakeFromSleep_next dt ticks s; exact ⟨t, e, a, b, c ▸ Fuses.gains_refl _⟩
    | _ => exact absurd h Bool.false_ne_true

end Sys2Proof.Machine
end

