-- ==== Sys2Proof/Laws/Params.lean ====
section
/-! SUPPORT. What a parameter's value rests on. -/
namespace Sys2Proof.Machine

theorem widthOf_of {s t : State} (h1 : t.cmd.inForce = s.cmd.inForce)
    (h2 : ∀ k, (nth t.intk.streams k Stream.reset).pixels = (nth s.intk.streams k Stream.reset).pixels) (k : Nat) : widthOf t k = widthOf s k := by
  unfold widthOf; rw [h1, h2]

/-- A parameter's value rests on the values in force, the variant, the image, and the widths of the streams. -/
theorem par_of {s t : State} (h1 : t.cmd.inForce = s.cmd.inForce) (h2 : t.variant = s.variant) (h3 : t.image = s.image)
    (h4 : ∀ k, (nth t.intk.streams k Stream.reset).pixels = (nth s.intk.streams k Stream.reset).pixels) (id : Nat) : par t id = par s id := by
  have hi : paramInfo t id = paramInfo s id := by
    unfold paramInfo nomOf
    simp only [h1, h2, h3, widthOf_of h1 h4]
  unfold par paramDefault
  rw [h1, hi]

theorem nth_modNth_pixels (l : List Stream) (k j : Nat) (f : Stream → Stream) (h : ∀ x, (f x).pixels = x.pixels) :
    (nth (modNth l k f) j Stream.reset).pixels = (nth l j Stream.reset).pixels := by
  induction l generalizing k j with
  | nil => rfl
  | cons a l ih =>
    cases k with
    | zero => cases j with
      | zero => exact h a
      | succ j => rfl
    | succ k => cases j with
      | zero => rfl
      | succ j => exact ih k j

theorem par_modStream (k : Nat) (f : Stream → Stream) (h : ∀ x, (f x).pixels = x.pixels) (s : State) (id : Nat) :
    par (modStream k f s) id = par s id :=
  par_of (s := s) (t := modStream k f s) rfl rfl rfl (fun j => nth_modNth_pixels s.intk.streams k j f h) id

theorem ipar_setAsm (k : Nat) (a : Option Assembly) (s : State) (j n : Nat) : ipar (setAsm k a s) j n = ipar s j n :=
  by unfold ipar setAsm; exact par_modStream k (fun t => { t with asm := a }) (fun _ => rfl) s _

end Sys2Proof.Machine
end

