-- ==== Sys2Proof/WellFormed.lean ====
section
/-! DEFINITION. Which commands the block's surroundings can bring: the ranges of their operands. -/
namespace Sys2Proof

/-- Parameters of a packet: LENGTH is at most 16,777,216 (13 R392, R393). -/
def paramsOk (p : Bytes) : Bool := decide (p.length ≤ 16777216)
/-- A Forecast slot (02 R29). -/
def slotOk (n : Nat) : Bool := decide (n < 4096)
/-- A core and a cluster by physical number (05 R133). -/
def coreOk (c : Nat) : Bool := decide (c < 128)
def clusterOk (c : Nat) : Bool := decide (c < 16)
/-- A compute stack (01 R11), a control core. -/
def stackOk (k : Nat) : Bool := decide (k < 4)
def controlOk (c : Nat) : Bool := decide (c < 4)
/-- Intake streams, receive ports and virtual channels (03 R57, R58). -/
def streamOk (k : Nat) : Bool := decide (k < 12)
def rxPortOk (p : Nat) : Bool := decide (p < 6)
def vcOk (v : Nat) : Bool := decide (v < 16)
/-- A transmit port (12 R355). -/
def txPortOk (p : Nat) : Bool := decide (p < 2)
/-- A general pin (17 R538). -/
def pinOk (p : Nat) : Bool := decide (p < 16)
/-- A job, a batch class, a side, a slab. -/
def jobOk (j : Nat) : Bool := decide (j < 16)
def classOk (c : Nat) : Bool := decide (c < 16)
def sheetOk (n : Nat) : Bool := decide (n < 2 ^ 32)
def slabOk (n : Nat) : Bool := decide (n < 2 ^ 22)
/-- A DMA queue entry (05 R154). -/
def entryOk (n : Nat) : Bool := decide (n < 16)
/-- Cores of a cluster. -/
def maskOk (m : Nat) : Bool := decide (m < 256)
/-- KIND of a record (12 R361). -/
def kindOk (k : Nat) : Bool := decide (1 ≤ k) && decide (k ≤ 3)
/-- A 16-bit data field, a data type, a 16-bit address. -/
def wordOk (n : Nat) : Bool := decide (n < 65536)
def typeOk (n : Nat) : Bool := decide (n < 64)
/-- A 7-bit I3C address. -/
def i3cOk (n : Nat) : Bool := decide (n < 128)
def byteOk (n : Nat) : Bool := decide (n < 256)
/-- A power domain (14 R435). -/
def domainCodeOk (d : Nat) : Bool := (decide (1 ≤ d) && decide (d ≤ 4)) || (decide (0x11 ≤ d) && decide (d ≤ 0x14))
/-- A rail with a ledger (14 R445). -/
def railOk (r : Nat) : Bool := decide (1 ≤ r) && decide (r ≤ 4)
/-- Outcomes of a patrol read; reasons of a discarded mirror item; levels of the two address balls. -/
def outcomeOk (n : Nat) : Bool := decide (n < 3)
def aselOk (n : Nat) : Bool := decide (n < 4)
/-- The readings of 14 R454: 16 clusters, 2 I/O dies; the oscillators of R457. -/
def tempsOk (l : List Int) : Bool := l.length == 18
def countsOk (l : List Nat) : Bool := l.length == 8
/-- A packet header is 16 bytes (13 R393). -/
def headerOk (b : Bytes) : Bool := b.length == 16
def someHeaderOk (b : Option Bytes) : Bool := match b with | some h => headerOk h | none => true
def badPacketOk (k : BadPacket) : Bool := headerOk k.header
/-- A long packet (03 R58). -/
def longOk (k : LongPkt) : Bool := rxPortOk k.port && vcOk k.vc && typeOk k.dataType && wordOk k.wordCount
/-- A unit of SRAM (15 R475). -/
def granuleOk (g : SramGranule) : Bool := decide (1 ≤ g.unit) && decide (g.unit ≤ 5)

/-- The command's operands are in range. -/
def Instr.wf (i : Instr) : Bool :=
  match i with
  | .timeRead _ _ p => paramsOk p
  | .slotPost _ _ p => paramsOk p
  | .slotCancel _ _ p => paramsOk p
  | .slotQuery _ _ p => paramsOk p
  | .preDispatch _ slot => slotOk slot
  | .shareGrant _ => true
  | .strobe _ slot => slotOk slot
  | .lineTrig _ slot => slotOk slot
  | .pinSet _ slot => slotOk slot
  | .stepStart _ slot => slotOk slot
  | .outRelease _ slot => slotOk slot
  | .deadline _ slot => slotOk slot
  | .wake _ slot => slotOk slot
  | .tallySignalAction _ slot => slotOk slot
  | .doorbell _ slot => slotOk slot
  | .quietPoint _ slot => slotOk slot
  | .tbMark _ slot => slotOk slot
  | .watch _ slot => slotOk slot
  | .packetGap _ header => someHeaderOk header
  | .ibiRetry _ _ => true
  | .controlWatchdog _ core _ => controlOk core
  | .learningTargetExpiry _ => true
  | .missingLine _ stream => streamOk stream
  | .frameStart _ _ port vc => rxPortOk port && vcOk vc
  | .frameEnd _ _ port vc => rxPortOk port && vcOk vc
  | .lineStart _ _ port vc data => rxPortOk port && vcOk vc && wordOk data
  | .longPacket _ k => longOk k
  | .lineEnd _ _ port vc => rxPortOk port && vcOk vc
  | .uncorrectableHeaderError _ port => rxPortOk port
  | .genericShortPacket _ _ port vc code data => rxPortOk port && vcOk vc && typeOk code && wordOk data
  | .tachEdge _ pin => pinOk pin
  | .streamStart _ stream => streamOk stream
  | .streamOpen _ _ p => paramsOk p
  | .streamClose _ _ p => paramsOk p
  | .flatLoad _ _ p => paramsOk p
  | .speedSet _ _ p => paramsOk p
  | .streamStatus _ _ p => paramsOk p
  | .streamDiscovery _ stream _ => streamOk stream
  | .discoveryRetry _ stream _ => streamOk stream
  | .bandPrepared _ stream => streamOk stream
  | .batchFilled _ cls => classOk cls
  | .splitAdvice _ stream => streamOk stream
  | .regionPost _ _ p => paramsOk p
  | .augPost _ _ p => paramsOk p
  | .steerSet _ _ p => paramsOk p
  | .prepStatus _ _ p => paramsOk p
  | .addI _ core _ => coreOk core
  | .subI _ core _ => coreOk core
  | .mulI _ core _ => coreOk core
  | .andI _ core _ => coreOk core
  | .orI _ core _ => coreOk core
  | .xorI _ core _ => coreOk core
  | .shl _ core _ => coreOk core
  | .shr _ core _ => coreOk core
  | .sra _ core _ => coreOk core
  | .minI _ core _ => coreOk core
  | .maxI _ core _ => coreOk core
  | .cmp _ core _ => coreOk core
  | .br _ core _ => coreOk core
  | .loop _ core _ => coreOk core
  | .tbrd _ core _ => coreOk core
  | .halt _ core _ => coreOk core
  | .gset _ core _ => coreOk core
  | .ld _ core _ => coreOk core
  | .st _ core _ => coreOk core
  | .ldv _ core _ => coreOk core
  | .stv _ core _ => coreOk core
  | .ldvc _ core _ => coreOk core
  | .stvc _ core _ => coreOk core
  | .dma _ core _ => coreOk core
  | .dmaComplete _ core entry => coreOk core && entryOk entry
  | .mmI8 _ core _ => coreOk core
  | .mmE4 _ core _ => coreOk core
  | .mmE5 _ core _ => coreOk core
  | .mmBf _ core _ => coreOk core
  | .mmtI8 _ core _ => coreOk core
  | .mmtE4 _ core _ => coreOk core
  | .tload _ core _ => coreOk core
  | .vectorAdd _ core _ => coreOk core
  | .vectorMul _ core _ => coreOk core
  | .fma _ core _ => coreOk core
  | .vectorMax _ core _ => coreOk core
  | .vectorMin _ core _ => coreOk core
  | .exp _ core _ => coreOk core
  | .rcp _ core _ => coreOk core
  | .rsqrt _ core _ => coreOk core
  | .rsum _ core _ => coreOk core
  | .rmax _ core _ => coreOk core
  | .cvt _ core _ => coreOk core
  | .drain _ core _ => coreOk core
  | .ssoft _ core _ => coreOk core
  | .spvBf _ core _ => coreOk core
  | .spvE4 _ core _ => coreOk core
  | .snorm _ core _ => coreOk core
  | .sstat _ core _ => coreOk core
  | .sldst _ core _ => coreOk core
  | .smerge _ core _ => coreOk core
  | .sapp _ core _ => coreOk core
  | .sbwd _ core _ => coreOk core
  | .strn _ core _ => coreOk core
  | .sxlt _ core _ => coreOk core
  | .walkerReply _ cluster => clusterOk cluster
  | .copyOnWriteComplete _ slab => slabOk slab
  | .gmask _ core _ => coreOk core
  | .maskRequest _ cluster => clusterOk cluster
  | .sargm _ core _ => coreOk core
  | .tsig _ core _ => coreOk core
  | .twait _ core _ => coreOk core
  | .ttry _ core _ => coreOk core
  | .twaitge _ core _ => coreOk core
  | .tset _ core _ => coreOk core
  | .tarm _ core _ => coreOk core
  | .tread _ core _ => coreOk core
  | .fence _ core _ => coreOk core
  | .waitu _ core _ => coreOk core
  | .send _ core _ => coreOk core
  | .wmmI8 _ core _ => coreOk core
  | .wmmE4 _ core _ => coreOk core
  | .wmmE5 _ core _ => coreOk core
  | .wmmBf _ core _ => coreOk core
  | .wmmtI8 _ core _ => coreOk core
  | .wmmtE4 _ core _ => coreOk core
  | .wdrain _ core _ => coreOk core
  | .wpool _ core _ => coreOk core
  | .wres _ core _ => coreOk core
  | .wunz _ core _ => coreOk core
  | .preemptionRequest _ cluster mask _ => clusterOk cluster && maskOk mask
  | .contextValid _ core => coreOk core
  | .restore _ core _ => coreOk core
  | .restoreComplete _ core => coreOk core
  | .coreStatus _ _ p => paramsOk p
  | .tallyQuery _ _ p => paramsOk p
  | .tallySignal _ _ p => paramsOk p
  | .tallyArm _ _ p => paramsOk p
  | .tallySet _ _ p => paramsOk p
  | .qpQuery _ _ p => paramsOk p
  | .qpSet _ _ p => paramsOk p
  | .seqOpen _ _ p => paramsOk p
  | .seqClose _ _ p => paramsOk p
  | .seqCommit _ _ p => paramsOk p
  | .seqEnter _ _ p => paramsOk p
  | .stepRetire _ _ p => paramsOk p
  | .slabReserve _ _ p => paramsOk p
  | .prefixShare _ _ p => paramsOk p
  | .prefixDrop _ _ p => paramsOk p
  | .seqQuery _ _ p => paramsOk p
  | .slabQuery _ _ p => paramsOk p
  | .slabStatus _ _ p => paramsOk p
  | .promotion _ slab => slabOk slab
  | .stepBuild _ job _ => jobOk job
  | .acceptance _ job _ => jobOk job
  | .releaseCheckTimeout _ sheet _ => sheetOk sheet
  | .secondDeadlineTimeout _ sheet => sheetOk sheet
  | .jobWaiting _ job => jobOk job
  | .jobStatus _ _ p => paramsOk p
  | .lineQuery _ _ p => paramsOk p
  | .learnPost _ _ p => paramsOk p
  | .learnControl _ _ p => paramsOk p
  | .textTokenize _ _ p => paramsOk p
  | .textDetokenize _ _ p => paramsOk p
  | .grammarBind _ _ p => paramsOk p
  | .stopSet _ _ p => paramsOk p
  | .grammarLoad _ _ p => paramsOk p
  | .grammarQuery _ _ p => paramsOk p
  | .recordCommit _ kind sheet _ => kindOk kind && sheetOk sheet
  | .transmitPacket _ port => txPortOk port
  | .outHoldFall _ => true
  | .outHoldRise _ => true
  | .outStatus _ _ p => paramsOk p
  | .framingRefusal _ k => badPacketOk k
  | .replyRead _ _ => true
  | .paramRead _ _ p => paramsOk p
  | .paramWrite _ _ p => paramsOk p
  | .epochPost _ _ p => paramsOk p
  | .epochDiscard _ _ p => paramsOk p
  | .epochStatus _ _ p => paramsOk p
  | .epochAdoption _ => true
  | .quietApply _ => true
  | .adapterActivate _ _ p => paramsOk p
  | .resourceQuery _ _ p => paramsOk p
  | .mboxWrite _ _ p => paramsOk p
  | .mboxRead _ _ p => paramsOk p
  | .mboxRing _ _ p => paramsOk p
  | .mboxDbRead _ _ p => paramsOk p
  | .mboxConfig _ _ p => paramsOk p
  | .mboxQuery _ _ p => paramsOk p
  | .mboxFlush _ _ p => paramsOk p
  | .entdaa _ addr => i3cOk addr
  | .setdasa _ addr => i3cOk addr
  | .rstdaa _ => true
  | .enec _ bits => byteOk bits
  | .disec _ bits => byteOk bits
  | .getpid _ => true
  | .getbcr _ => true
  | .getdcr _ => true
  | .getstatus _ => true
  | .setmwl _ n => wordOk n
  | .getmwl _ => true
  | .setmrl _ n => wordOk n
  | .getmrl _ => true
  | .getmxds _ => true
  | .getcaps _ => true
  | .enthdr0 _ => true
  | .sleepWakeWrite _ addr => i3cOk addr
  | .pwrState _ _ p => paramsOk p
  | .pwrStatus _ _ p => paramsOk p
  | .ageQuery _ _ p => paramsOk p
  | .ageReplan _ _ p => paramsOk p
  | .replan _ => true
  | .wakeComparator _ _ => true
  | .wakeFromSleep _ _ => true
  | .deviceReady _ => true
  | .dozeEntry _ stack => stackOk stack
  | .domainReady _ domain => domainCodeOk domain
  | .clusterHoldExpiry _ cluster => clusterOk cluster
  | .budgetChange _ => true
  | .downshift _ slot => slotOk slot
  | .ledgerWaitReport _ slot => slotOk slot
  | .thermalSample _ temps => tempsOk temps
  | .coreSenseSample _ _ => true
  | .pathMonitorSample _ cluster _ => clusterOk cluster
  | .ringOscillatorCount _ cluster counts => clusterOk cluster && countsOk counts
  | .brownOut _ rail => railOk rail
  | .recoveryResume _ => true
  | .sramScrub _ at_ _ => granuleOk at_
  | .patrolScrub _ _ err => outcomeOk err
  | .linkUncorrected _ _ => true
  | .clockLost _ => true
  | .refInterruption _ _ => true
  | .aonClockLost _ => true
  | .aonClockRestored _ => true
  | .aonCalibration _ _ => true
  | .tbSync _ die => stackOk die
  | .faultLog _ _ p => paramsOk p
  | .faultInject _ _ p => paramsOk p
  | .twinStatus _ _ p => paramsOk p
  | .twinTakeover _ _ p => paramsOk p
  | .twinHandover _ _ p => paramsOk p
  | .handoverComplete _ => true
  | .frzRead _ _ p => paramsOk p
  | .freeze _ => true
  | .heartbeat _ => true
  | .heartbeatReceived _ _ => true
  | .takeover _ => true
  | .roleSettle _ => true
  | .ackWaitExpiry _ => true
  | .linkItemSend _ => true
  | .hello _ _ _ => true
  | .linkItem _ _ _ => true
  | .commandItem _ _ _ => true
  | .sideItem _ _ _ => true
  | .recordItem _ _ _ => true
  | .sent _ _ _ => true
  | .blob _ _ _ => true
  | .mboxItem _ _ _ => true
  | .nak _ _ _ => true
  | .snapshotBegin _ _ _ => true
  | .snapshotEnd _ _ _ => true
  | .powerOnReset _ asel => aselOk asel
  | .boot _ => true
  | .pllLock _ => true
  | .secIdentity _ _ p => paramsOk p
  | .secAttest _ _ p => paramsOk p
  | .imageWrite _ _ p => paramsOk p
  | .imageCommit _ _ p => paramsOk p
  | .imageActivate _ _ p => paramsOk p
  | .profileStore _ _ p => paramsOk p
  | .secReboot _ _ p => paramsOk p
  | .svnCommit _ _ p => paramsOk p
  | .keyUpdate _ _ p => paramsOk p
  | .pinStatus _ _ p => paramsOk p
  | .clockStatus _ _ p => paramsOk p
  | .hostInEdge _ pin _ => pinOk pin
  | .wakeInEdge _ pin _ => pinOk pin
  | .timeTbLo _ => true
  | .timeFcStatus _ => true
  | .intkPortErr _ port => rxPortOk port
  | .coreNumEvt _ => true
  | .textGmu _ => true
  | .outPortStat _ port => txPortOk port
  | .cmdChan _ => true
  | .cmdIf _ => true
  | .pwrWakeCause _ => true
  | .fltEcc _ => true
  | .pinClkStat _ => true
  | .debugRegisterWrite _ addr _ => wordOk addr
  | .frzAddr _ _ => true
  | .frzData _ => true
  | .frzStat _ => true
  | .frzReset _ => true
  | .dbgAddr _ addr => wordOk addr
  | .dbgData _ _ _ => true
  | .bypass _ _ => true
  | .idcode _ => true
  | .samplePreload _ _ => true
  | .extest _ _ => true
  | .extestPulse _ _ => true
  | .extestTrain _ _ => true
  | .opcodeUnknown _ _ opcode p => wordOk opcode && paramsOk p
  | .shareReturn _ => true
  | .mirrorItemDiscarded _ reason => outcomeOk reason
  | .busFree _ _ => true
  | .reverseBias _ cluster => clusterOk cluster

end Sys2Proof
end

