-- ==== Sys2Proof/Tests/Slice0.lean ====
section
/-! SUPPORT. Tests: ill-formed terms, and small states that meet the hypotheses of the statements. -/
namespace Sys2Proof.Machine
section
set_option Elab.async false

/-- A part that runs, with its boot behind it. -/
def up : State :=
  { State.reset with
    clk := { Clock.reset with tb := 1000000, tbRun := true, tbValid := true, refOk := true, aonOk := true, tbLock := true, cold := false }
    pwr := { Power.reset with mode := .running, budgets := [880, 96, 160, 880], stackDies := [.awake, .awake, .awake, .awake] }
    boot := { BootState.reset with ready := true, stage := 6, due := false } }

/-- The outcome is a next state. -/
def isNext {σ φ ρ : Type} (o : Host.Outcome σ φ ρ) : Bool := match o with | .next _ => true | _ => false

def hostHdr : Hdr := ⟨0x01, 7, 0⟩

def slotWords (cls ix a0 a1 : Nat) : Bytes := pack [(8, 2000000), (4, 0), (2, 0), (1, cls), (1, 0), (2, ix), (2, 0), (4, a0), (4, a1), (4, 0)]
def withSlots (l : Tab Slot) (s : State) : State := { s with fc := { s.fc with slots := l } }

/-- A slot of a class that has been handed over and is due. -/
def dueSlot (cls ix a0 a1 : Nat) : Slot := { newSlot up 900000 cls ix 0x10 a0 a1 .serving .posted with admitted := 0, state := 2, handed := 899744 }
/-- A running state in which it is due. -/
def dueIn (cls ix a0 a1 : Nat) (s : State) : State := withSlots [(3, dueSlot cls ix a0 a1)] s

/-- A slot that waits, admitted long ago. -/
def waitingSlot (cls ix : Nat) : Slot := { newSlot up 1000100 cls ix 0x10 0 0 .serving .posted with admitted := 0 }

/-- A running part whose stream 0 is open on port 0, in mode 0 of the width given. -/
def scanning (mode trigger width : Nat) (st : Nat) : State :=
  { up with
    cmd := { up.cmd with inForce := [(0x02000000, trigger), (0x02000003, 0x2A), (0x02000004, 1), (0x02000005, mode), (0x02000006, width),
      (0x02000020, 1), (0x02000030, 0), (0x02000032, 63)] }
    intk := { up.intk with streams := modNth up.intk.streams 0 (fun t => { t with state := st }) } }

/-- Such a part with a line in progress. -/
def inLine : State := setAsm 0 (some ⟨some 0, false, [], none, false⟩) (scanning 0 0 64 3)
def linePacket (t : Nat) (ok : Bool) : LongPkt := ⟨0, 0, t, 64, zeros 64, ok, false⟩

/-- A running part whose core 0 is granted its clock and runs. -/
def computing : State := modCore 0 (fun k => { k with state := 2, clocked := true }) up

/-- The same with the base die of stack 0 in its active state. -/
def wakened : State :=
  let l : List Charge := [⟨0, sramUnits computing, .sramStack 0⟩]
  { computing with pwr := { computing.pwr with charges := l } }

def fwHdr : Hdr := ⟨0x10, 7, 0⟩

/-- A running part whose image declares decode job 2, with one open sequence that step 5 has entered. -/
def decoding : State :=
  let g : Geom := ⟨1, 1, 1, 1, false, 4⟩
  let j : JobDecl := ⟨2, 1, 7, 0, 1, 1, 1, 1, 1, 1, some g, false, [], 0⟩
  let q : Seq := { handle := 65536, job := 2, state := 1, priority := 3, flags := 0, prefixId := 0xFFFF, prefixLen := 0, firstPrivate := 0, committed := 0,
                   dir := 0x20000, src := 0, index := 0, entered := 1, lastUse := 0, dropped := [], steps := [(5, false)] }
  let l : Tab Nat := [(0x06000001, 0x100000), (0x06000002, 262144), (0x06000003, 0x10000), (0x06000004, 16)]
  let m : List (Tab Nat) := []
  { up with
    image := some { (default : Image) with jobs := [(2, j)], slotBytes := 32768 }
    cmd := { up.cmd with inForce := l ++ m.flatten }
    slab := { up.slab with seqs := [(0, q)] } }

/-- A part that holds one side of stream 0, which takes host regions. -/
def holding : State :=
  { up with
    cmd := { up.cmd with inForce := [(0x03000030, 1), (0x03000031, 1000000)] }
    image := some { (default : Image) with classes := [(0, ⟨32, 32, 1, 0, 0, 8, false, 0, 100⟩)], jobs := [], detectorClass := some 0 }
    prep := { up.prep with sheets := [{ newSheet up 0 ⟨9, 0, 5, 6, none, none, none, none, 128, true, false, false, false, false, false, 0, 0⟩ none with
      hostWait := true, released := [7] }] } }

/-- The image declares learn job 3 as well, and line 0 of side 9 decodes. -/
def learning : State :=
  let j : JobDecl := ⟨3, 1, 2, 0, 1, 1, 1, 1, 1, 1, none, false, [], 0⟩
  let l : Line := { Line.corrupt 9 0 2 0 with handle := 65536, state := 2 }
  let d : Bytes := pack [(4, 0), (4, 16)]
  { decoding with image := decoding.image.map (fun i => { i with jobs := i.jobs ++ [(3, j)] }), serv := { decoding.serv with lines := [l] },
                  text := { decoding.text with dict := d } }

/-- A container of a kind whose key bytes are zeros, and a part whose fuses trust them. -/
def signedBox (kind svn : Nat) (body : Bytes) : Bytes :=
  pack [(2, 1), (1, kind), (1, 0), (1, svn), (1, 1), (2, 0), (8, body.length)] ++ sha3 body ++ zeros 8112 ++ body
/-- A part whose fuses trust the key of that container. -/
def trusting (b : Bytes) (s : State) : State := { s with fuses := { s.fuses with vendor := modNth s.fuses.vendor 0 (fun k => { k with digest := some (sha3 ((b.drop 256).take 2592)) }) } }
/-- All but the key and the signature, whose verification is a constant without a body. -/
def boxRight (s : State) (kind : Nat) (b : Bytes) : Bool :=
  containerFormatOk s kind b && svnOk s kind b && (sha3 (containerBody b) == (b.drop 16).take 64)
theorem containerRefusal_none {s : State} {kind : Nat} {b : Bytes} (h : boxRight s kind b = true) (k : keyTrusted s kind b = true) (v : signatureGood b = true) :
    containerRefusal s kind b = none := by
  simp only [boxRight, Bool.and_eq_true, beq_iff_eq] at h
  obtain ⟨⟨h1, h3⟩, h4⟩ := h
  unfold containerRefusal
  rw [if_neg (by simp [h1]), if_neg (by simp [k]), if_neg (by simp [v]), if_neg (by simp [h3]), if_neg (by simp [h4])]
theorem keyTrusted_trusting {s : State} {kind : Nat} {b : Bytes} (h1 : ownerSigned b = false) (h2 : byteAt b 3 % 4 = 0) (h3 : signerClassOk (trusting b s) kind b = true)
    (h4 : (nth (trusting b s).fuses.vendor 0 ⟨none, false⟩).revoked = false)
    (h5 : (nth (trusting b s).fuses.vendor 0 ⟨none, false⟩).digest = some (sha3 ((b.drop 256).take 2592))) : keyTrusted (trusting b s) kind b = true := by
  unfold keyTrusted
  rw [h1]; simp only [Bool.false_eq_true, if_false, h2]; rw [h3, h4, h5]; simp

/-! Ill-formed terms: each check refuses one, and the ends of its range are as the spec gives them. -/

theorem test_wf_params (p : Bytes) (h : p.length = 16777217) : (Instr.timeRead 0 hostHdr p).wf = false := by
  show paramsOk p = false
  simp [paramsOk, h]
theorem test_wf_numbers : (Instr.preDispatch 0 4096).wf = false ∧ (Instr.preDispatch 0 4095).wf = true ∧ (Instr.addI 0 128 0).wf = false ∧ (Instr.addI 0 127 0).wf = true
    ∧ (Instr.walkerReply 0 16).wf = false ∧ (Instr.dozeEntry 0 4).wf = false ∧ (Instr.controlWatchdog 0 4 true).wf = false ∧ (Instr.streamStart 0 12).wf = false
    ∧ (Instr.batchFilled 0 16).wf = false ∧ (Instr.stepBuild 0 16 ⟨[], [], 0, 0, []⟩).wf = false ∧ (Instr.dmaComplete 0 0 16).wf = false := by decide
theorem test_wf_ports : (Instr.frameStart 0 false 6 0).wf = false ∧ (Instr.frameStart 0 false 5 16).wf = false ∧ (Instr.frameStart 0 false 5 15).wf = true
    ∧ (Instr.transmitPacket 0 2).wf = false ∧ (Instr.tachEdge 0 16).wf = false := by decide
theorem test_wf_packets : (Instr.longPacket 0 { linePacket 0x2A true with dataType := 64 }).wf = false ∧ (Instr.longPacket 0 { linePacket 0x2A true with wordCount := 65536 }).wf = false
    ∧ (Instr.longPacket 0 (linePacket 0x2A true)).wf = true ∧ (Instr.lineStart 0 false 0 0 65536).wf = false ∧ (Instr.framingRefusal 0 ⟨[0, 0, 0], [], 0, false⟩).wf = false
    ∧ (Instr.packetGap 0 (some [0])).wf = false ∧ (Instr.packetGap 0 none).wf = true := by decide
theorem test_wf_long_numbers : (Instr.secondDeadlineTimeout 0 (2 ^ 32)).wf = false ∧ (Instr.copyOnWriteComplete 0 (2 ^ 22)).wf = false := by decide
theorem test_wf_codes : (Instr.preemptionRequest 0 0 256 []).wf = false ∧ (Instr.recordCommit 0 0 0 []).wf = false ∧ (Instr.recordCommit 0 4 0 []).wf = false
    ∧ (Instr.entdaa 0 128).wf = false ∧ (Instr.enec 0 256).wf = false ∧ (Instr.domainReady 0 5).wf = false ∧ (Instr.domainReady 0 0x14).wf = true
    ∧ (Instr.brownOut 0 0).wf = false ∧ (Instr.brownOut 0 5).wf = false ∧ (Instr.patrolScrub 0 0 3).wf = false ∧ (Instr.powerOnReset 0 4).wf = false
    ∧ (Instr.sramScrub 0 ⟨6, 0, 0⟩ 0).wf = false := by decide
theorem test_wf_readings : (Instr.thermalSample 0 [25]).wf = false ∧ (Instr.thermalSample 0 (List.replicate 18 25)).wf = true
    ∧ (Instr.ringOscillatorCount 0 0 [1, 2]).wf = false := by decide

/-! Values worked by hand from the formats of 05 and 06, the published check values of the two digests, and single steps. -/

/-- The check value of CRC-32C (13 R393): the digest of the nine characters 1 to 9. -/
theorem test_crc32c : crc32c [0x31, 0x32, 0x33, 0x34, 0x35, 0x36, 0x37, 0x38, 0x39] = 0xE3069283 := by decide +kernel
/-- The first bytes of SHA3-512 of no bytes. -/
theorem test_sha3 : (sha3 []).take 4 = [0xA6, 0x9F, 0x73, 0xCC] := by decide +kernel
/-- E4M3: 448 is the largest number, 1000 saturates to it, 1 is 0x38. -/
theorem test_e4m3 : (fmtE4.convert (ofInt 448)).code = 0x7E ∧ (fmtE4.convert (ofInt 1000)).code = 0x7E ∧ (fmtE4.convert (ofInt 1)).code = 0x38 := by
  decide +kernel
theorem test_e5m2 : (fmtE5.convert (ofInt 57344)).code = 0x7B ∧ (fmtE5.convert (ofInt 1)).code = 0x3C := by decide +kernel
/-- A tie rounds to the even code: 257 in BF16 is 256. -/
theorem test_bf16_tie : (fmtBf.convert (ofInt 257)).code = 0x4380 ∧ (fmtBf.convert (ofInt 259)).code = 0x4382 := by decide +kernel
theorem test_float_add : r32 ((fp 0x3F800000).add (fp 0x40000000)) = 0x40400000 ∧ r32 ((fp 0x3F800000).mul (fp 0xC0000000)) = 0xC0000000 := by decide +kernel
theorem test_rsqrt : r32 (fp 0x40800000).rsqrt = 0x3F000000 ∧ r32 (fp 0x40000000).rcp = 0x3F000000 := by decide +kernel
theorem test_exp : r32 (fp 0).exp = 0x3F800000 ∧ r32 (fp 0x3F800000).exp = 0x402DF854 := by decide +kernel

/-- The X registers of core 0 after an outcome. -/
def xAfter (i : Nat) (o : Host.Outcome State Fault Refusal) : Option Nat := match o with | .next t => some (xr t 0 i) | _ => none
/-- X1 holds all ones, X2 holds 2. -/
def withX : State := modCore 0 (fun k => { k with r := { k.r with x := setNth (setNth k.r.x 1 0xFFFFFFFF) 2 2 } }) computing
/-- X3 := X1 + X2 wraps (05 R156, R157: OP in 59 to 54, XD in 50 to 46, XS1 in 45 to 41, XS2 in 40 to 36). -/
theorem test_add_wraps : xAfter 3 (exec (.addI 0 0 (BitVec.ofNat 64 (3 * 2 ^ 46 + 1 * 2 ^ 41 + 2 * 2 ^ 36))) withX) = some 1 := by decide +kernel
theorem test_sub_borrows : xAfter 3 (exec (.subI 0 0 (BitVec.ofNat 64 (1 * 2 ^ 54 + 3 * 2 ^ 46 + 2 * 2 ^ 41 + 1 * 2 ^ 36))) withX) = some 3 := by decide +kernel
/-- SRA of all ones by 1, the immediate form, keeps all ones; SHR does not. -/
theorem test_shifts_right : xAfter 3 (exec (.sra 0 0 (BitVec.ofNat 64 (8 * 2 ^ 54 + 3 * 2 ^ 46 + 1 * 2 ^ 41 + 2 ^ 35 + 1 * 2 ^ 3))) withX) = some 0xFFFFFFFF
    ∧ xAfter 3 (exec (.shr 0 0 (BitVec.ofNat 64 (7 * 2 ^ 54 + 3 * 2 ^ 46 + 1 * 2 ^ 41 + 2 ^ 35 + 1 * 2 ^ 3))) withX) = some 0x7FFFFFFF := by decide +kernel
/-- X0 reads as 0 and takes nothing. -/
theorem test_x0 : xAfter 0 (exec (.addI 0 0 (BitVec.ofNat 64 (1 * 2 ^ 41 + 2 * 2 ^ 36))) withX) = some 0 := by decide +kernel

/-! Witnesses of StepIdles. -/

theorem wit_stepIdles : State.reset.pending = [] := by decide

/-! Witnesses of FusesKeepWhatTheyHold. -/

theorem wit_fusesKeep : isNext (step { State.reset with pending := [.timeTbLo 5] }) = true := by decide

/-! Witnesses of TbOnlyCounts. -/

theorem wit_tbOnlyCounts : isNext (step { up with pending := [.timeTbLo 5] }) = true := by decide
theorem wit_tbOnlyCounts_lock : lockDue (advance 0 State.reset) = true := by decide

/-! Witnesses of StaticAddressStays. -/

theorem wit_staticAddress : 0x2C ≤ State.reset.cmd.staticAddr ∧ State.reset.cmd.staticAddr ≤ 0x2F ∧ isNext (step State.reset) = true := by decide
theorem wit_staticAddress_row : isNext (exec (.timeTbLo 5) up) = true := by decide

/-! Witnesses of FramingIsAnswered. -/

theorem wit_framing : framingFailure (zeros 16) [] 0 false = some (0x01A0, 0, 0) ∧ hears up = true
    ∧ mustWait ⟨0x01, 0, 0, latestEpoch up, [], stamp up, some 0x01A0⟩ up = false := by decide +kernel
theorem wit_framing_clean : framingFailure (zeros 12 ++ le 4 (crc32c (zeros 12))) [] (crc32c []) false = none := by decide +kernel
theorem wit_framing_long : framingFailure (le 4 0 ++ le 4 16777217 ++ zeros 4 ++ le 4 (crc32c (le 4 0 ++ le 4 16777217 ++ zeros 4))) [] 0 false
    = some (0x01A2, 0, 0) := by decide +kernel
theorem wit_framing_extra : framingFailure (zeros 12 ++ le 4 (crc32c (zeros 12))) [] 0 true = some (0x01A2, 0, 0) := by decide +kernel
theorem wit_framing_payload : framingFailure (zeros 12 ++ le 4 (crc32c (zeros 12))) [] 1 false = some (0x01A1, 0, 0) := by decide +kernel
theorem wit_packetGap : (zeros 12 ++ le 4 (crc32c (zeros 12))).length = 16
    ∧ leAt (zeros 12 ++ le 4 (crc32c (zeros 12))) 12 4 = crc32c ((zeros 12 ++ le 4 (crc32c (zeros 12))).take 12) ∧ hears up = true
    ∧ mustWait ⟨0x01, 0, 0, latestEpoch up, [], stamp up, some 0x01A2⟩ up = false := by decide +kernel
theorem wit_opcodeUnknown : opcodeKnown 0x0106 = false ∧ up.flt.frozen = false ∧ hears up = true
    ∧ mustWait (packetOf 0x0106 hostHdr [] up) up = false := by decide

/-! Witnesses of ReplyForm. -/

theorem wit_replyForm : (packetOf 0x0101 hostHdr [] up).sender = 0x01 ∧ (packetOf 0x0101 hostHdr [] up).opcode < 2 ^ 16
    ∧ (packetOf 0x0101 hostHdr [] up).tag < 2 ^ 16 ∧ ([] : Bytes).length < 2 ^ 32 := by decide

/-! Witnesses of EpochIsChecked. -/

theorem wit_epochIsChecked : opcodeKnown 0x0101 = true ∧ up.flt.frozen = false ∧ up.boot.stage ≠ 7 ∧ hears up = true
    ∧ mustWait (packetOf 0x0101 ⟨0x01, 7, 5⟩ [] up) up = false ∧ (5 : Nat) ≠ latestEpoch up + 1 := by decide

/-! Witnesses of FrozenAndRecoveryRefuse. -/

theorem wit_frozenRefuses : opcodeKnown 0x0101 = true ∧ hears { up with flt := { up.flt with frozen := true } } = true
    ∧ mustWait (packetOf 0x0101 hostHdr [] up) { up with flt := { up.flt with frozen := true } } = false := by decide
theorem wit_recoveryRefuses : opcodeKnown 0x0D03 = true ∧ hears { up with boot := { up.boot with stage := 7, ready := false } } = true
    ∧ mustWait (packetOf 0x0D03 hostHdr [2] up) { up with boot := { up.boot with stage := 7, ready := false } } = false
    ∧ byteAt [2] 0 ≠ 1 := by decide

/-! Witnesses of ReplyReadReturns. -/

theorem wit_replyRead_empty : (advance 0 up).cmd.replies = [] := by decide
theorem wit_replyRead : ({ up with cmd := { up.cmd with dynAddr := 0x30, replies := [[1, 2], [3]] } } : State).cmd.packets = []
    ∧ answersRead { up with cmd := { up.cmd with dynAddr := 0x30, replies := [[1, 2], [3]] } } = true
    ∧ Nat.min 1 up.cmd.mrl < ([1, 2] : Bytes).length ∧ ([1, 2] : Bytes).length ≤ Nat.min 2 up.cmd.mrl := by decide
theorem wit_replyRead_last : ({ up with cmd := { up.cmd with dynAddr := 0x30, replies := [[1, 2]] } } : State).cmd.packets = []
    ∧ answersRead { up with cmd := { up.cmd with dynAddr := 0x30, replies := [[1, 2]] } } = true
    ∧ ([1, 2] : Bytes).length ≤ Nat.min 2 up.cmd.mrl := by decide

/-! Witnesses of TimeCommandsAnswer. -/

theorem wit_slotPost : slotFormatOk up.variant (slotWords 7 1 0 0) = true
    ∧ slotDenied up (leAt (slotWords 7 1 0 0) 14 1) (leAt (slotWords 7 1 0 0) 16 2) (leAt (slotWords 7 1 0 0) 20 4) (leAt (slotWords 7 1 0 0) 24 4) = none
    ∧ poolUsed up .host < poolSize up .host ∧ Tab.free up.fc.slots 4096 = some 0 ∧ executes (packetOf 0x0102 hostHdr (slotWords 7 1 0 0) up) up = true := by
  decide +kernel
theorem wit_slotPost_format : slotFormatOk up.variant [] = false := by decide
theorem wit_slotPost_denied : slotFormatOk up.variant (slotWords 4 1 0 0) = true
    ∧ slotDenied up (leAt (slotWords 4 1 0 0) 14 1) (leAt (slotWords 4 1 0 0) 16 2) (leAt (slotWords 4 1 0 0) 20 4) (leAt (slotWords 4 1 0 0) 24 4) = some 0x0504 := by
  decide +kernel
theorem wit_slotPost_full : poolSize (withSlots ((List.range 2048).map (fun n => (n, newSlot up 0 7 1 1 0 0 .host .posted))) up) .host
    ≤ poolUsed (withSlots ((List.range 2048).map (fun n => (n, newSlot up 0 7 1 1 0 0 .host .posted))) up) .host := by decide +kernel
theorem wit_slotQuery : slotAt (withSlots [(5, newSlot up 0 7 1 1 0 0 .host .posted)] up) (leAt [5, 0] 0 2) = some (newSlot up 0 7 1 1 0 0 .host .posted)
    ∧ slotAt up (leAt [5, 0] 0 2) = none := by decide

/-! Witnesses of OwnerCancels. -/

theorem wit_ownerCancels : slotAt (withSlots [(5, newSlot up 9000000 7 1 1 0 0 .host .posted)] up) (leAt [5, 0] 0 2) = some (newSlot up 9000000 7 1 1 0 0 .host .posted)
    ∧ (newSlot up 9000000 7 1 1 0 0 .host .posted).owner = hostHdr.sender.toNat ∧ (newSlot up 9000000 7 1 1 0 0 .host .posted).owner ≠ 0x20
    ∧ handedOver up (newSlot up 9000000 7 1 1 0 0 .host .posted) = false
    ∧ handedOver up { newSlot up 9000000 7 1 1 0 0 .host .posted with state := 2 } = true
    ∧ slotAt up (leAt [5, 0] 0 2) = none ∧ executes (packetOf 0x0103 hostHdr [5, 0] up) up = true := by decide +kernel
theorem wit_ownerCancels_point : handedOver up (newSlot up 1000256 9 1 1 0 0 .host .posted) = true
    ∧ handedOver up (newSlot up 1000257 9 1 1 0 0 .host .posted) = false := by decide

/-! Witnesses of LaunchesAct. -/

theorem due_dueIn (cls ix a0 a1 : Nat) : Due (dueIn cls ix a0 a1 up) cls 3 (dueSlot cls ix a0 a1) := ⟨by simp [slotAt, dueIn, withSlots, Tab.find], rfl, rfl, rfl, rfl, by show 900000 + 0 * 0 ≤ 1000000; decide⟩
theorem wit_launch_doorbell : allowed (setChannels (dueIn 9 0 7 0 up)) 0 0x10 = true := by decide +kernel
theorem wit_launch_quiet : Due { dueIn 0x0A 0 5 0 up with cmd := { up.cmd with quiet := some ⟨1, 5, [], 1, 0, 0⟩ } } 0x0A 3 (dueSlot 0x0A 0 5 0) := ⟨by simp [slotAt, dueIn, withSlots, Tab.find], rfl, rfl, rfl, rfl, Nat.le_of_ble_eq_true rfl⟩
theorem wit_launch_wake : stackAt (setStack 0 .doze (dueIn 7 1 0 0 up)) 0 = .doze ∧ (dueSlot 7 1 0 0).use = .posted := by decide
theorem wit_launch_release : recordNo (dueIn 5 0 9 0 up) 9 = none := by decide
theorem wit_launch_step : asleepStacks (dueIn 4 1 0 0 up) 1 = [] := by decide

/-! Witnesses of LaunchEnds. -/

theorem wit_launchEnds_late : (dueSlot 1 0 100 0).now + 24 < 1000000 ∧ ¬ (dueSlot 1 0 100 0).now + 24 < 900024 ∧ (dueSlot 1 0 100 0).period = 0
    ∧ slotAt (dueIn 1 0 100 0 up) 3 = some (dueSlot 1 0 100 0) := by decide
theorem wit_launchEnds_repeats : ({ dueSlot 1 0 100 0 with period := 500, count := 2 } : Slot).k + 1 < 2
    ∧ ¬ ({ dueSlot 1 0 100 0 with period := 500, count := 2, k := 1 } : Slot).k + 1 < 2 := by decide

/-! Witnesses of DeadlineDecides. -/

theorem wit_deadline : (dueSlot 6 2 0 0).launchAt + 64 ≤ (dueIn 6 2 0 0 up).clk.tb ∧ arrivalOf (dueIn 6 2 0 0 up) (dueSlot 6 2 0 0) = none
    ∧ arrivalOf up { dueSlot 6 2 0 0 with arrival := some 900000 } = some 900000 ∧ (900000 : Nat) ≤ (dueSlot 6 2 0 0).now
    ∧ arrivalOf up { dueSlot 6 2 0 0 with arrival := some 900001 } = some 900001 ∧ (dueSlot 6 2 0 0).now < 900001 := by decide
theorem wit_deadline_early : ({ dueIn 6 2 0 0 up with clk := { up.clk with tb := 900063 } } : State).clk.tb < (dueSlot 6 2 0 0).launchAt + 64
    ∧ Due { dueIn 6 2 0 0 up with clk := { up.clk with tb := 900063 } } 0x06 3 (dueSlot 6 2 0 0) := ⟨by decide, ⟨by simp [slotAt, dueIn, withSlots, Tab.find], rfl, rfl, rfl, rfl, Nat.le_of_ble_eq_true rfl⟩⟩

/-! Witnesses of ShortDueIsLate. -/

/-- A pin set posted 100 ns before its due time. -/
def hastySlot : Slot := { newSlot up 1000100 3 2 0x10 1 0 .serving .posted with admitted := 1000000, state := 2, handed := 1000000 }
def hasty (tb : Nat) : State := { withSlots [(3, hastySlot)] up with clk := { up.clk with tb := tb } }
theorem wit_short_due : hastySlot.now < hastySlot.admitted + 256 ∧ slotAt (hasty 1000256) 3 = some hastySlot ∧ awake (hasty 1000256) = true ∧ (hasty 1000256).clk.tbValid = true
    ∧ hastySlot.admitted + 256 ≤ (hasty 1000256).clk.tb ∧ (hasty 1000255).clk.tb < hastySlot.admitted + 256 ∧ hastySlot.state = 2 ∧ hastySlot.cls = 3 := by decide

/-! Witnesses of SharesKeepTheRate. -/

theorem wit_shares : awake up = true ∧ windowSum up.clk.tb up.pwr.granted ≤ 80 ∧ windowSum up.clk.tb up.pwr.returned ≤ 80 ∧ up.pwr.shares.length < 512 := by
  decide

/-! Witnesses of PreDispatchAndWaits. -/

theorem wit_preDispatch : canPreDispatch (withSlots [(3, waitingSlot 9 1)] up) 3 = true ∧ (waitingSlot 9 1).use = .posted := by decide
theorem wit_ledgerWait : awake up = true ∧ (1 : Nat) + 1000000 < (advance 2 up).clk.tb ∧ ¬ (0 : Nat) + 1000000 < (advance 0 up).clk.tb := by decide
theorem wit_downshift : par { up with cmd := { up.cmd with inForce := [(0x0B000008, 1000)] } } 0x0B000008 ≠ 0
    ∧ downshiftPoint up [0] = some 1
    ∧ downshiftPoint { up with pwr := { up.pwr with budgets := [0, 0, 0, 0] } } [0] = none := by decide +kernel

/-! Witnesses of StreamCommandsAnswer. -/

theorem wit_streamOpen : streamField [0, 0, 0, 0] = some 0 ∧ (streamAt (scanning 0 0 64 0) 0).state = 0 ∧ openRefusal (scanning 0 0 64 0) 0 = none := by
  decide +kernel
theorem wit_streamOthers : (streamAt (scanning 0 0 64 3) 0).state ≠ 0 ∧ (streamAt (scanning 0 0 64 3) 0).edge = .gap ∧ ipar (scanning 0 0 64 3) 0 0x00 = 0
    ∧ ipar (scanning 0 1 64 3) 0 0x00 ≠ 0 := by decide +kernel
theorem wit_flatLoad : 0 < channels (scanning 0 0 64 3) 0 ∧ widthOf (scanning 0 0 64 3) 0 = 64 ∧ ([0, 0, 0, 0] ++ zeros 256).length = 4 + 4 * 64
    ∧ poolUsedBy (modStream 0 (fun x => { x with flats := Tab.set x.flats 8 ⟨flatEntries 64 (zeros 256), false⟩ }) (scanning 0 0 64 3)) 0 ≤ 6291456 := by
  decide +kernel
theorem wit_speedSet : ipar (scanning 0 0 64 3) 0 0x20 = 1 ∧ 1000 ≤ leAt (pack [(4, 0), (4, 1000), (8, 7)]) 4 4
    ∧ (pack [(4, 0), (4, 20000000), (8, 7)]).length = 16 ∧ leAt (pack [(4, 0), (4, 20000000), (8, 7)]) 4 4 ≤ 20000000 := by decide +kernel

/-! Witnesses of PacketsOfALine. -/

theorem wit_packets_stray : awake up = true ∧ up.boot.ready = true ∧ streamOf up 0 0 = none := by decide +kernel
theorem wit_packets : streamOf (scanning 0 0 64 3) 0 0 = some 0 ∧ ipar (scanning 0 0 64 3) 0 0x00 = 0 ∧ (streamAt (scanning 0 0 64 3) 0).asm = none
    ∧ ipar (scanning 0 0 64 3) 0 0x05 = 0 ∧ streamOf (scanning 0 1 64 3) 0 0 = some 0 ∧ ipar (scanning 0 1 64 3) 0 0x00 ≠ 0 ∧ ipar (scanning 0 2 64 3) 0 0x00 = 2 := by
  decide +kernel
theorem wit_packets_long : ipar inLine 0 0x03 = 0x2A ∧ longOk inLine 0 (linePacket 0x2A true) = true ∧ widthOf inLine 0 ≠ 0
    ∧ (linePacket 0x2A false).crcOk = false ∧ (linePacket 0x2B true).dataType ≠ ipar inLine 0 0x03 := by decide +kernel
theorem wit_header : 0 < up.variant.rxPorts := by decide

/-! Witnesses of StreamEventsAct. -/

theorem wit_missingLine : ipar { scanning 0 0 64 3 with cmd := { up.cmd with inForce := [(0x02000010, 20000)] } } 0 0x10 = 20000
    ∧ 3 * 20000 < 2 * ((1000000 : Nat) - 969999) ∧ 2 * ((1000000 : Nat) - 970000) ≤ 3 * 20000 := by decide +kernel
theorem wit_tachEdge : openStreams (scanning 0 0 64 3) = [0]
    ∧ ipar { scanning 0 0 64 3 with cmd := { up.cmd with inForce := [(0x02000020, 2), (0x02000023, 5)] } } 0 0x20 = 2
    ∧ ipar { scanning 0 0 64 3 with cmd := { up.cmd with inForce := [(0x02000020, 2), (0x02000023, 5)] } } 0 0x23 = 5 := by decide +kernel
theorem wit_streamStart : (streamAt (takeStream 0 (scanning 0 0 0 1)) 0).state = 1 ∧ widthOf (takeStream 0 (scanning 0 0 0 1)) 0 = 0
    ∧ widthOf (takeStream 0 (scanning 0 0 64 1)) 0 ≠ 0 ∧ streamCharged (takeStream 0 (scanning 0 0 64 1)) 0 = true := by decide +kernel
def discovering : State := { up with image := some default, cmd := { up.cmd with inForce := [(0x0D000005, 1)] } }
theorem wit_discovery : discovers discovering 3 = true ∧ refusedAt discovering 3 = none
    ∧ refusedAt (modBoot (fun b => { b with discovery := List.replicate 12 ⟨some 5⟩ }) discovering) 3 = some 5
    ∧ discovers (modBoot (fun b => { b with discovery := List.replicate 12 ⟨some 5⟩ }) discovering) 3 = true := by decide +kernel

/-! Witnesses of PrepCommandsAnswer. -/

def regionWords : Bytes := pack [(4, 9), (2, 0xFFFF), (1, 1), (1, 0), (2, 0), (2, 0), (2, 64), (2, 32), (2, 0), (1, 200), (1, 0), (2, 0), (2, 0), (4, 0), (4, 0)]
theorem wit_regionPost : (sheetAt holding 9).map (fun x => (x.alive, x.recorded, awaitsHost holding x (stamp holding))) = some (true, false, true)
    ∧ regionOk holding 9 regionWords = true ∧ (le 4 9 ++ le 2 1 ++ zeros 2 ++ regionWords).length = 8 + 32 * leAt (le 4 9 ++ le 2 1 ++ zeros 2 ++ regionWords) 4 2
    ∧ regionOk holding 8 regionWords = false ∧ (sheetAt up 9).isNone = true := by decide +kernel
theorem wit_regionPost_late : (sheetAt holding 9).map (fun x => awaitsHost holding { x with listDone := true } (stamp holding)) = some false := by decide +kernel
def augWords : Bytes := pack [(4, 9), (2, 0), (2, 0), (2, 0), (2, 0), (2, 16384), (2, 16384), (2, 0), (2, 0), (2, 0), (2, 0), (4, 0), (1, 0), (1, 0), (2, 0), (8, 0), (1, 0), (7, 0)]
theorem wit_augPost : augOk augWords = true ∧ augWords.length = 48 ∧ (postAugs 5 [augWords] 0 holding).1 = none ∧ (postAugs 5 [zeros 48] 0 holding).1 = some 0x0133 := by
  decide +kernel
theorem wit_steerSet : regionOk holding 0 (le 4 0 ++ regionWords.drop 4) = true ∧ regionOk holding 0 regionWords = false := by decide +kernel

/-! Witnesses of PrepEventsAct. -/

theorem wit_prepEvents : recovering holding = false ∧ ((nextSide holding 0).map (fun x => (x.id, x.geo.isSome, x.advised))) = some (9, false, false)
    ∧ par { holding with cmd := { up.cmd with inForce := [(0x03F00001, 500)] } } 0x03F00001 = 500 := by decide +kernel
theorem wit_bandPrepared : ((nextSide (noteWaiting 0 (releaseAll 0 { holding with prep := { holding.prep with sheets := holding.prep.sheets.map (fun x => { x with
      geo := some ⟨none, 64, some 128, 0, 0, 0, 16384⟩ }) } })) 0).map (fun x => x.geo.isSome)) = some true
    ∧ bandTurn (noteWaiting 0 (releaseAll 0 { holding with prep := { holding.prep with sheets := holding.prep.sheets.map (fun x => { x with
      geo := some ⟨none, 64, some 128, 0, 0, 0, 16384⟩ }) } })) 0 = true := by decide +kernel

/-! Witnesses of TallyCommandsAnswer. -/

theorem wit_tallies : tallyRefusal up (leAt (pack [(2, 16128), (2, 3)]) 0 2) true true = none ∧ tallyRefusal up 3 true false = none
    ∧ tallyRefusal up 3 true true = some 0x0540 ∧ (pack [(2, 16128), (2, 0), (4, 9)]).length = 8 ∧ 0 < up.variant.clusters := by decide +kernel
def qpIn : State := { up with qps := [(6, ⟨0, 2, -4, 4, 1, 1, false, false, 0, 0, 0, 0, 0, 0, [(0, 0), (0, 0), (0, 0), (0, 0)], 0, 0, none⟩)] }
theorem wit_qps : (qpAt qpIn (leAt (pack [(2, 6), (2, 0)]) 0 2)).isSome = true ∧ (qpAt up 6).isNone = true
    ∧ byteAt (pack [(2, 6), (1, 2), (1, 0xF0), (1, 16), (1, 1), (2, 1)]) 2 ≤ 2 ∧ -16 ≤ sext 8 (byteAt (pack [(2, 6), (1, 2), (1, 0xF0), (1, 16), (1, 1), (2, 1)]) 3)
    ∧ sext 8 (byteAt (pack [(2, 6), (1, 2), (1, 0xF0), (1, 16), (1, 1), (2, 1)]) 4) ≤ 16 := by decide +kernel

/-! Witnesses of CoreIssueRules. -/

theorem wit_coreIssue : issues computing 0 0 = true ∧ issues up 0 0 = false ∧ opDefined 0 0 = true ∧ opDefined 9 0 = false
    ∧ field (0x9000000000000000 : DWord).toNat 63 60 = 9 ∧ pr computing 0 1 = false := by decide +kernel
theorem wit_coreLoops : innermost [none, some ⟨3, 4, 9⟩, some ⟨2, 6, 8⟩, none] = some (2, ⟨2, 6, 8⟩)
    ∧ innermost [some ⟨1, 5, 9⟩, some ⟨3, 4, 8⟩, none, none] = some (0, ⟨1, 5, 9⟩) := by decide

/-! Witnesses of ScalarInstructions. -/

theorem wit_scalar : Runs computing 0 0x0000420000000000 0 0x00 7 := by constructor <;> decide +kernel
theorem wit_scalar_shift : Runs computing 0 0x0180420800000100 0 0x06 7 ∧ field (0x0180420800000100 : DWord).toNat 34 3 = 32
    ∧ field (0x01804208000000F8 : DWord).toNat 34 3 = 31 ∧ bit (0x01804208000000F8 : DWord).toNat 35 = true := by
  refine ⟨?_, by decide, by decide, by decide⟩
  constructor <;> decide +kernel
theorem wit_cmp : Runs computing 0 0x0400420800000006 0 0x10 0 ∧ field (0x0400420800000006 : DWord).toNat 50 49 = 0
    ∧ field (0x0400420800000006 : DWord).toNat 2 0 = 6 ∧ Runs computing 0 0x0400420800000007 0 0x10 0 := by
  refine ⟨?_, by decide, by decide, ?_⟩ <;> constructor <;> decide +kernel

/-! Witnesses of ControlInstructions. -/

theorem wit_control : Runs computing 0 0x0600000000000000 0 0x18 (bits 37 36 + bits 15 0) ∧ Runs computing 0 0x0680000000200000 0 0x1A (bits 48 46 + bits 20 0)
    ∧ Runs computing 0 0x06C0000000000000 0 0x1B (bits 45 0) ∧ tbLag computing 0 ≤ computing.clk.tb ∧ Runs computing 0 0x0700000000000000 0 0x1C (bits 46 46 + bits 35 0)
    ∧ Runs computing 0 0x07C0000000000000 0 0x1F 0 ∧ asking computing 0 = 0 ∧ Runs computing 0 0x7200000000000000 7 8 (bits 50 0)
    ∧ Runs computing 0 0x7240800000000000 7 9 (bits 45 0) ∧ dmaUsed computing 0 = 0 := by
  refine ⟨?_, ?_, ?_, by decide +kernel, ?_, ?_, by decide +kernel, ?_, ?_, by decide +kernel⟩ <;> constructor <;> decide +kernel
theorem wit_br_not : Runs computing 0 0x0600008000000000 0 0x18 (bits 37 36 + bits 15 0) ∧ condOf 2 0 0 = some false ∧ field (0x0600008000000000 : DWord).toNat 40 38 = 2
    ∧ (coreAt computing 0).tile = none ∧ (coreAt computing 0).state = 2 := by
  refine ⟨?_, by decide, by decide, by decide, by decide⟩
  constructor <;> decide +kernel

/-! Witnesses of LoadsAndStores. -/

theorem wit_loads : Runs computing 0 0x1000D00000400000 1 0 (bits 17 0) ∧ field (0x1000D00000400000 : DWord).toNat 45 43 = 2
    ∧ Runs computing 0 0x1040D00000400000 1 1 (bits 17 0) ∧ (0 : Nat) + 4 ≤ computing.variant.scratchBytes
    ∧ field 0x80000000 31 30 = 2 ∧ sramReady wakened (stackOf 0) = true ∧ field 0xC0000000 31 30 = 3 := by
  refine ⟨?_, by decide, ?_, by decide, by decide, by decide +kernel, by decide⟩ <;> constructor <;> decide +kernel
theorem wit_vectors : Runs computing 0 0x1080400000000000 1 2 (bits 45 43 + bits 17 0) ∧ Runs computing 0 0x10C0400000000000 1 3 (bits 45 43 + bits 17 0)
    ∧ Runs computing 0 0x1100400000000000 1 4 (bits 17 0) ∧ Runs computing 0 0x1140600000000000 1 5 (bits 17 0)
    ∧ field (0x1140600000000000 : DWord).toNat 50 46 = 1 ∧ field (0x1140600000000000 : DWord).toNat 45 43 = 4 := by
  refine ⟨?_, ?_, ?_, ?_, by decide, by decide⟩ <;> constructor <;> decide +kernel
theorem wit_load_faults : Runs computing 0 0x1000580000000000 1 0 (bits 17 0) ∧ field (0x1000580000000000 : DWord).toNat 45 43 = 3
    ∧ Runs computing 0 0x1000500000040000 1 0 (bits 17 0) ∧ field (0x1000500000040000 : DWord).toNat 37 18 = 1
    ∧ Runs computing 0 0x1082000000000000 1 2 (bits 45 43 + bits 17 0) ∧ field (0x1082000000000000 : DWord).toNat 50 46 = 8 := by
  refine ⟨?_, by decide, ?_, by decide, ?_, by decide⟩ <;> constructor <;> decide +kernel

/-! Witnesses of Transfers. -/

theorem wit_dma : Runs computing 0 0x2000000000000000 2 0 (bits 45 0) ∧ xr computing 0 0 + 32 ≤ computing.variant.scratchBytes := by
  refine ⟨?_, by decide +kernel⟩
  constructor <;> decide +kernel
/-- Its core 0 has a descriptor at scratchpad address 0 and a DDR4 window of 4 KiB, and the address of its scratchpad in X1. -/
def moving : State :=
  let q : List DmaXfer := [⟨0x100, 0x200, 8, 1, 0xFFFF, 0, 0, 0⟩]
  let d : Memory := Memory.writeN [] 0 (pack [(8, 2 ^ 63 + 64), (8, 2 ^ 63), (4, 64), (2, 1), (2, 0xFFFF), (8, 0)])
  let t : State := modCore 0 (fun k => { k with scratch := d, r := { k.r with dmaq := q } }) computing
  { t with ddr := Memory.writeN [] 0x100 [1, 2, 3] }
theorem wit_dmaDescriptor : xferOf (ownRead moving 0 0 32) = ⟨2 ^ 63 + 64, 2 ^ 63, 64, 1, 0xFFFF, 0, 0, 0⟩
    ∧ dmaSideOk moving 0 0 (2 ^ 63) 0 64 1 = .ok false ∧ (coreAt moving 0).r.dmaq[0]? = some ⟨0x100, 0x200, 8, 1, 0xFFFF, 0, 0, 0⟩
    ∧ isNext (exec (.dmaComplete 0 0 0) moving) = true := by decide +kernel

/-! Witnesses of CoreFrames. -/

theorem wit_frames : 0 < computing.cores.length ∧ 0 < computing.clusters.length ∧ (coreAt computing 0).r.x.length = 32 ∧ (coreAt computing 0).r.v.length = 8
    ∧ (coreAt computing 0).r.p.length = 8 ∧ (landAt 5 (7 % 2 ^ 32) (coreAt computing 0).r).isSome = true
    ∧ Memory.wf (coreAt computing 0).scratch = true ∧ Memory.wf (clusterAt computing 0).commons = true := by decide +kernel

/-! Witnesses of MatrixInstructions. -/

theorem wit_mm : Runs computing 0 0x3000100000000000 3 0 (bits 16 0) ∧ matrixOk 0 computing 0 0x3000100000000000 = .ok ()
    ∧ Runs computing 0 0x3040100000000000 3 1 (bits 16 0) ∧ Runs computing 0 0x3080100000000000 3 2 (bits 16 0) ∧ Runs computing 0 0x30C0100000000000 3 3 (bits 16 0)
    ∧ matrixOk 3 computing 0 0x30C0100000000000 = .ok () := by
  refine ⟨?_, by rfl, ?_, ?_, ?_, by rfl⟩ <;> constructor <;> decide +kernel
theorem wit_mmt : Runs computing 0 0x3100100003E00000 3 4 (bits 16 0) ∧ matrixOk 4 computing 0 0x3100100003E00000 = .ok ()
    ∧ scalesOk computing (gOf computing 0 0x3100100003E00000) 32 = .ok ()
    ∧ Runs computing 0 0x3140100003E00000 3 5 (bits 16 0) ∧ Runs computing 0 0x3400100000000000 3 0x10 (bits 37 0) := by
  refine ⟨?_, by rfl, by rfl, ?_, ?_⟩ <;> constructor <;> decide +kernel
theorem wit_mmFault : Runs computing 0 0x3040000000000000 3 1 (bits 16 0) ∧ matrixOk 1 computing 0 0x3040000000000000 = .error (.fault 0x0740) := by
  refine ⟨?_, by rfl⟩
  constructor <;> decide +kernel

/-! Witnesses of VectorInstructions. -/

theorem wit_vector : Runs computing 0 0x4000000000000000 4 0 (bits 31 0) ∧ Runs computing 0 0x4040000800000000 4 1 (bits 31 0)
    ∧ Runs computing 0 0x4080000000000000 4 2 (bits 31 0) ∧ Runs computing 0 0x40C0000000000000 4 3 (bits 31 0) ∧ Runs computing 0 0x4100020000000000 4 4 (bits 31 0)
    ∧ Runs computing 0 0x4200000000000000 4 8 (bits 31 0) ∧ Runs computing 0 0x4240000800000000 4 9 (bits 31 0) ∧ Runs computing 0 0x4280000000000000 4 10 (bits 31 0)
    ∧ Runs computing 0 0x4400000000000000 4 0x10 (bits 31 0) ∧ Runs computing 0 0x4440000000000000 4 0x11 (bits 31 0)
    ∧ Runs computing 0 0x4600000500000000 4 0x18 (bits 31 0) ∧ Runs computing 0 0x4600000600000000 4 0x18 (bits 31 0) := by
  refine ⟨?_, ?_, ?_, ?_, ?_, ?_, ?_, ?_, ?_, ?_, ?_, ?_⟩ <;> constructor <;> decide +kernel
/-- Its core 0 has a scale block at scratchpad address 0 with no points, 16 rows and 64 columns. -/
def draining : State :=
  let d : Memory := Memory.writeN [] 512 (pack [(2, 0xFFFF), (2, 0xFFFF), (4, 0), (4, 0), (1, 16), (1, 64)])
  modCore 0 (fun k => { k with scratch := d }) computing
theorem wit_drain : Runs draining 0 0x5000000000000000 5 0 (bits 27 0) ∧ scaleBlockOk draining 0 0 (scaleBlock draining 0 0) = true
    ∧ Runs draining 0 0x5000000700000000 5 0 (bits 27 0) := by
  refine ⟨?_, by decide +kernel, ?_⟩ <;> constructor <;> decide +kernel

/-! Witnesses of WindowInstructions. -/

/-- Its core 0 has a window descriptor at scratchpad address 0 (a 1x1 map of one INT8 channel, 1x1 kernel) and a scale block at 64. -/
def windowing : State :=
  let d : Memory := Memory.writeN (Memory.writeN [] 0 (pack [(4, 4096), (2, 1), (2, 1), (2, 1), (1, 0), (1, 1), (4, 1), (2, 1), (2, 1),
    (1, 1), (1, 1), (1, 1), (1, 1), (1, 1), (1, 1), (4, 0), (2, 0)])) 576 (pack [(2, 0xFFFF), (2, 0xFFFF), (4, 0), (4, 0), (1, 1), (1, 1)])
  modCore 0 (fun k => { k with scratch := d, r := { k.r with x := setNth (setNth k.r.x 1 64) 2 4112 } }) computing
theorem wit_windows : Runs windowing 0 0x8000100000000000 8 0 (bits 11 0) ∧ windOk windowing 0 (windAt windowing 0 0) true = .ok ()
    ∧ ownOk windowing 0 (bBytes (macOf 0) 1) 64 = .ok () ∧ (windAt windowing 0 0).kTotal = 1
    ∧ (tileAt windowing 0 0).fp = false ∧ Runs windowing 0 0x8006000000000000 8 0 (bits 11 0) := by
  refine ⟨?_, by rfl, by rfl, by decide +kernel, by decide +kernel, ?_⟩ <;> constructor <;> decide +kernel
theorem wit_drains : Runs windowing 0 0x8400000800000000 8 0x10 (bits 21 0) ∧ ownOk windowing 64 576 64 = .ok ()
    ∧ scaleBlockOk windowing 0 0 (scaleBlock windowing 0 64) = true ∧ tensorOk windowing (tensorAt windowing 0 0) = .ok () := by
  refine ⟨?_, by rfl, by decide +kernel, by rfl⟩
  constructor <;> decide +kernel
theorem wit_pools : Runs windowing 0 0x8440000000000000 8 0x11 (bits 22 0) ∧ Runs windowing 0 0x8480000000000000 8 0x12 (bits 43 43 + bits 22 0)
    ∧ windOk windowing 0 (windAt windowing 0 0) false = .ok () ∧ infmtOk 0 (windAt windowing 0 0).t.es = true := by
  refine ⟨?_, ?_, by rfl, by decide +kernel⟩ <;> constructor <;> decide +kernel
theorem wit_unzip : Runs windowing 0 0x8600000000000000 8 0x18 (bits 35 0) ∧ segmentElems (pack [(4, 0), (2, 0), (1, 1), (1, 1), (2, 1), (2, 1), (1, 1), (3, 0)]) [0] = some [0]
    ∧ segmentElems (pack [(4, 0), (2, 0), (1, 1), (1, 1), (2, 1), (2, 1), (1, 2), (3, 0)]) [0] = none ∧ reach windowing 0 0 16 = .ok (.scratch 0 0) := by
  refine ⟨?_, by decide +kernel, by decide +kernel, by rfl⟩
  constructor <;> decide +kernel

/-! Witnesses of SequenceInstructions. -/

/-- Its core 0 has FP32 tiles 0 and 1. -/
def attending : State := setTile 0 0 ⟨true, []⟩ (modCore 0 (fun k => { k with r := { k.r with x := setNth k.r.x 1 4096 } }) computing)
theorem wit_soft : Runs attending 0 0x6000000000000000 6 0 (bits 22 0) ∧ attnOk attending 0 0 = .ok () ∧ ownOk attending 0 2048 64 = .ok ()
    ∧ Runs attending 0 0x6000017E00000000 6 0 (bits 22 0) ∧ field (0x6000017E00000000 : DWord).toNat 40 35 + (field (0x6000017E00000000 : DWord).toNat 34 33 + 1) = 51 := by
  refine ⟨?_, by rfl, by rfl, ?_, by decide⟩ <;> constructor <;> decide +kernel
theorem wit_spv : Runs attending 0 0x6040000000000000 6 1 (bits 32 0) ∧ (tileAt attending 0 0).fp = true ∧ ownOk attending 0 8192 64 = .ok ()
    ∧ Runs attending 0 0x6080000000000000 6 2 (bits 32 0) ∧ Runs attending 0 0x60C0000000000000 6 3 (bits 20 0) ∧ ownOk attending 0 1024 64 = .ok ()
    ∧ Runs attending 0 0x60C5E60000000000 6 3 (bits 20 0) := by
  refine ⟨?_, by decide +kernel, by rfl, ?_, ?_, by rfl, ?_⟩ <;> constructor <;> decide +kernel
theorem wit_stats : Runs attending 0 0x6100000000000000 6 4 (bits 43 0) ∧ Runs attending 0 0x6140000000000000 6 5 (bits 43 0) ∧ ownOk attending 0 128 64 = .ok ()
    ∧ Runs attending 0 0x6180000000000000 6 6 (bits 35 0) ∧ ownOk attending 0 4224 64 = .ok () ∧ Runs attending 0 0x6200000000000000 6 8 (bits 24 0) := by
  refine ⟨?_, ?_, by rfl, ?_, by rfl, ?_⟩ <;> constructor <;> decide +kernel
theorem wit_transpose : Runs attending 0 0x6240020000000000 6 9 (bits 39 0) ∧ xr attending 0 1 = 4096 ∧ ownOk attending 4096 4096 64 = .ok ()
    ∧ Runs attending 0 0x6240000000000000 6 9 (bits 39 0) ∧ Runs attending 0 0x62C0000000000000 6 0x0B (bits 33 0) := by
  refine ⟨?_, by decide +kernel, by rfl, ?_, ?_⟩ <;> constructor <;> decide +kernel
def masking : State := modCore 0 (fun k => { k with r := { k.r with x := setNth k.r.x 1 0x80000000 } }) computing
theorem wit_gmask : Runs masking 0 0x6300400000000000 6 0x0C (bits 45 0) ∧ locate masking 0 0 (xr masking 0 1) 48 = .ok (some (.commons 0 0))
    ∧ (maskUnit masking 0).lists = [] := by
  refine ⟨?_, by rfl, by decide +kernel⟩
  constructor <;> decide +kernel

/-! Witnesses of SyncInstructions. -/

/-- Its core 0 runs a tile that may operate on tallies 0 to 9, with the base die of its cluster active. -/
def syncing : State :=
  let l : List Charge := [⟨0, sramUnits computing, .sramStack 0⟩]
  let d : TileDesc := { (tileDescOf (zeros 64)) with tallyLimit := 9 }
  let t : State := modCore 0 (fun k => { k with tile := some d }) computing
  { t with pwr := { t.pwr with charges := l } }
theorem wit_sync : tallyAllowed syncing 0 1 = true ∧ sramReady syncing (stackOf (tallyHome syncing 1)) = true ∧ tallyAllowed syncing 0 10 = false
    ∧ Runs syncing 0 0x7000000080008000 7 0 (bits 14 0) ∧ Runs syncing 0 0x7040000080008000 7 1 (bits 14 0) ∧ Runs syncing 0 0x7080000080008000 7 2 (bits 9 0)
    ∧ Runs syncing 0 0x70C0000080008000 7 3 (bits 14 0) ∧ Runs syncing 0 0x7100000080000000 7 4 (bits 9 0) ∧ Runs syncing 0 0x7140000080000000 7 5 (bits 9 0)
    ∧ Runs syncing 0 0x7180000080000000 7 6 (bits 9 0) ∧ Runs syncing 0 0x7280000000000000 7 0x0A (bits 40 0)
    ∧ (tallyAt syncing 1).waiters = [] ∧ (tallyAt syncing 1).count = 0 := by
  refine ⟨by decide +kernel, by decide +kernel, by decide +kernel, ?_, ?_, ?_, ?_, ?_, ?_, ?_, ?_, by decide +kernel, by decide +kernel⟩ <;> constructor <;> decide +kernel

/-! Witnesses of AppendsAndTranslations. -/

/-- Its core 0 has a scale block at scratchpad address 64, an append descriptor at 0 and a translation record at 640. -/
def appending : State :=
  let d : Memory := Memory.writeN (Memory.writeN (Memory.writeN [] 576 (pack [(2, 0xFFFF), (2, 0xFFFF), (4, 0), (4, 0), (1, 1), (1, 1)])) 0
    (pack [(1, 1), (1, 0), (1, 1), (1, 0), (4, 0), (2, 0), (2, 0), (1, 0), (1, 1), (1, 0), (1, 0), (4, 0), (2, 0xFFFF), (2, 0), (4, 4096)])) 640
    (pack [(4, 65536), (2, 0), (2, 0), (2, 0), (1, 1), (1, 0)])
  modCore 0 (fun k => { k with state := 2, clocked := true, job := 2, step := 5, scratch := d, r := { k.r with x := setNth (setNth k.r.x 1 64) 2 640 } }) decoding
theorem wit_sapp : Runs appending 0 0x61C0000A00000000 6 7 (bits 29 0) ∧ ownOk appending 64 576 64 = .ok ()
    ∧ appendOk appending 0 0x61C0000A00000000 (appendAt appending 0 0) (scaleBlock appending 0 64) = .ok () ∧ (appendAt appending 0 0).dest = 1 := by
  refine ⟨?_, by rfl, by rfl, by decide +kernel⟩
  constructor <;> decide +kernel
theorem wit_sxlt : Runs appending 0 0x6280800000000000 6 0x0A (bits 45 0) ∧ xr appending 0 2 = 640 ∧ ownOk appending 640 64 64 = .ok ()
    ∧ xlatOk appending 0 (ownRead appending 0 640 16) = true ∧ xlatOk appending 0 (ownRead appending 0 0 16) = false := by
  refine ⟨?_, by decide +kernel, by rfl, by decide +kernel, by decide +kernel⟩
  constructor <;> decide +kernel
/-- A translation and an append wait at walkers 0 and 1, and slab 1 is being copied to slab 2. -/
def walking : State :=
  let a : WalkReq := ⟨0, 2, 5, .translate 640 (pack [(4, 65536), (2, 0), (2, 0), (2, 0), (1, 1), (1, 0), (4, 0)]), none, ⟨0, 0, [], 0, none⟩⟩
  let b : WalkReq := ⟨8, 2, 5, .append ⟨65536, 0, 0, 0, 0, false, 0, 0xFFFF, [zeros 64]⟩, none, ⟨0, 0, [], 0, none⟩⟩
  let k : List Walker := modNth (modNth appending.slab.walkers 0 (fun x => { x with queue := [a] })) 1 (fun x => { x with queue := [b] })
  let p : Slab := { newSlab ⟨65536, 2, 1, 3, 0, 0xFFFF, 0, 0, 0, 0x20000, 0, 0, 1, 0, [], []⟩ 0 0 0 with state := 2, refTally := 16000 }
  { appending with slab := { appending.slab with walkers := k, slabs := [(1, p), (2, { p with state := 1 })], copies := [⟨1, 2, 65536, 1, 0, 0⟩] } }
theorem wit_walkers : (nextReq walking 0).isSome = true ∧ (nextReq walking 1).isSome = true ∧ pinsWait walking 0 2 5 0 = false
    ∧ seqOf walking 0 = none ∧ (seqOf walking 65536).isSome = true
    ∧ isNext (exec (.walkerReply 0 1) walking) = true ∧ isNext (exec (.copyOnWriteComplete 0 1) walking) = true
    ∧ (walking.slab.copies.find? (fun x => x.old == 1)).isSome = true ∧ (slabAt walking 1).isSome = true ∧ (jobGeom walking 2).isSome = true := by decide +kernel

/-! Witnesses of PreemptionAndMasks. -/

/-- Core 0 runs for no job, job 2 waits for cores, core 8 saves its context, core 16 is idle with a context kept, core 24 is being restored. -/
def stopping : State :=
  let d : TileDesc := { (tileDescOf (zeros 64)) with ctxBase := 0x1000 }
  let f : Nat → Core → Core := fun st k => { k with state := st, clocked := true, tile := some d }
  let c : State := modCore 0 (f 2) (modCore 8 (f 5) (modCore 16 (f 1) (modCore 24 (f 6) decoding)))
  let l : List Charge := [⟨0, sramUnits up, .sramStack 0⟩, ⟨4, 1, .context 8⟩, ⟨4, 1, .context 24⟩]
  let e : State := modJob 2 (fun j => { j with waitingCores := some 1 }) c
  { e with pwr := { e.pwr with charges := l } }
def keptContext : Context := contextOf (modCore 16 (fun k => { k with job := 2 }) stopping) 16 { (tileDescOf (zeros 64)) with ctxBase := 0x1000 } []
def restoring : State :=
  let t : State := modCore 24 (fun k => { k with restoring := some 0x1000 }) stopping
  let e : State := modJob 2 (fun j => { j with waitingCores := none }) t
  { e with ctxs := [(0x1000, keptContext)], ddr := [(0x1000, 1)], image := e.image.map (fun i => { i with jobs := i.jobs.map (fun j => (j.1, { j.2 with clusters := 7 })) }) }
theorem wit_stops : awake stopping = true ∧ (coreAt stopping 0).state = 2 ∧ mayPreempt stopping 0 = true ∧ (coreAt stopping 24).state = 6 := by decide +kernel
theorem wit_saves : contextCharge 8 stopping = stopping ∧ (coreAt stopping 8).state = 5 ∧ (coreAt stopping 8).tile.isSome = true
    ∧ holds stopping (.context 8) = true ∧ isNext (exec (.contextValid 0 8) stopping) = true := by
  refine ⟨?_, ?_, ?_, ?_, ?_⟩ <;> decide +kernel
theorem wit_restores : stackAt restoring (stackOf 2) = .awake ∧ (coreAt restoring 16).state = 1 ∧ Tab.find restoring.ctxs 0x1000 = some keptContext
    ∧ restoresNow restoring 16 keptContext = true ∧ ctxFormat restoring keptContext = 1 ∧ ctxFormat { restoring with ddr := [] } keptContext ≠ 1 ∧ keptContext.variant = restoring.variant.code ∧ keptContext.kind = 0
    ∧ Tab.find restoring.ctxs 0x2000 = none := by
  refine ⟨?_, ?_, ?_, ?_, ?_, ?_, ?_, ?_, ?_⟩ <;> decide +kernel
theorem wit_restored : contextCharge 24 restoring = restoring ∧ (coreAt restoring 24).restoring = some 0x1000 ∧ holds restoring (.context 24) = true
    ∧ (coreAt restoring 24).state = 6 ∧ awake restoring = true := by
  refine ⟨?_, ?_, ?_, ?_, ?_⟩ <;> decide +kernel
/-- The mask unit of cluster 0 has a list of one request with no grammar, for scratchpad address 0 of core 0. -/
def masked : State :=
  let d : Memory := Memory.writeN [] 0 (pack [(2, 1), (2, 5), (4, vocab stopping), (8, 0), (1, 0xFF), (1, 1), (2, 0), (16, 0), (4, 0)])
  modMask 0 (fun m => { m with lists := [⟨0, 0, 2, 0⟩] }) (modCluster 0 (fun k => { k with commons := d }) stopping)
theorem wit_masks : (maskUnit masked 0).lists = [⟨0, 0, 2, 0⟩] ∧ maskHeaderOk masked (Memory.readN (clusterAt masked 0).commons 0 16) = true
    ∧ maskRequestOk masked (Memory.readN (clusterAt masked 0).commons 16 32) = true
    ∧ (maskPlaces masked ⟨0, 0, 2, 0⟩ (Memory.readN (clusterAt masked 0).commons 16 32)).toOption = some [some (.scratch 0 0)]
    ∧ sramReady masked (stackOf (Loc.scratch 0 0).cluster) = true := by
  refine ⟨?_, ?_, ?_, ?_, ?_⟩ <;> decide +kernel

/-! Witnesses of SlabCommands. -/

def prefixed : State :=
  let e : Tab Prefix := [(3, ⟨2, 0, []⟩)]
  let q : Tab Seq := decoding.slab.seqs.map (fun x => (x.1, { x.2 with entered := 0, steps := [] }))
  { decoding with slab := { decoding.slab with prefixes := e, seqs := q } }
theorem wit_slabs : Tab.free decoding.slab.seqs (par decoding 0x06000004) = some 1 ∧ (seqOf decoding (leAt (pack [(4, 65536)]) 0 4)).isSome = true
    ∧ seqOf decoding (leAt (pack [(4, 5)]) 0 4) = none ∧ (jobGeom decoding (byteAt (pack [(1, 2), (1, 0), (2, 0xFFFF), (28, 0)]) 0)).isSome = true
    ∧ enterList (pack [(1, 2), (1, 0), (2, 1), (4, 9), (4, 65536), (4, 0)]) = [(65536, false)] ∧ fwHdr.sender.toNat ≠ 1 ∧ hostHdr.sender.toNat = 1
    ∧ (Tab.find prefixed.slab.prefixes (leAt (pack [(4, 3)]) 0 2)).isSome = true ∧ Tab.find prefixed.slab.prefixes 4 = none ∧ poolSlots decoding = 8
    ∧ (reserveSlabs 2 5 1 decoding).1 = true ∧ (reserveSlabs 2 5 9 decoding).1 = false
    ∧ Tab.free prefixed.slab.prefixes 65535 = some 0 ∧ (privateSlabs prefixed ⟨65536, 2, 1, 3, 0, 0xFFFF, 0, 0, 0, 0x20000, 0, 0, 0, 0, [], []⟩) = [] := by
  refine ⟨?_, ?_, ?_, ?_, ?_, ?_, ?_, ?_, ?_, ?_, ?_, ?_, ?_, ?_⟩ <;> decide +kernel
def promoting : State :=
  let b : Slab := { newSlab ⟨0, 2, 1, 3, 0, 0xFFFF, 0, 0, 0, 0x20000, 0, 0, 1, 0, [], []⟩ 0 0 0 with state := 2, refTally := 16000 }
  let l : List Charge := [⟨0, sramUnits up, .sramStack 0⟩]
  { decoding with slab := { decoding.slab with slabs := [(1, b)], promos := [⟨1, 0x3F0000, true⟩] }, pwr := { decoding.pwr with charges := l } }
theorem wit_promotion : promoting.slab.promos.find? (fun p => p.slab == 1) = some ⟨1, 0x3F0000, true⟩ ∧ sramReady promoting (stackOf (slabHome promoting 1)) = true
    ∧ (slabAt promoting 1).isSome = true ∧ awake promoting = true := by decide +kernel

/-! Witnesses of ServingCommands. -/

theorem wit_serving : (jobDecl learning (byteAt (pack [(1, 2), (3, 0)]) 0)).isSome = true ∧ jobDecl learning 5 = none
    ∧ (lineAt learning (leAt (pack [(4, 9), (2, 0), (2, 0)]) 0 4) 0).isSome = true ∧ lineAt learning 8 0 = none
    ∧ (jobDecl learning 3).map JobDecl.kind = some 3 ∧ (jobDecl learning 2).map JobDecl.kind = some 2 ∧ vocab learning ≤ 5000000
    ∧ learning.serv.targets = [] ∧ leAt (pack [(4, 9), (2, 0), (2, 1), (4, 5)]) 6 2 = 1 ∧ 5 < vocab learning := by
  refine ⟨?_, ?_, ?_, ?_, ?_, ?_, ?_, ?_, ?_, ?_⟩ <;> decide +kernel

/-! Witnesses of ServingEvents. -/

/-- Side 9 is held; a step of job 2 is done; job 3 has waited for cores; an old target is held. -/
def owing : State :=
  let t : Step := { number := 1, state := 6, epoch := 0, due := 0, launch := 0, acceptedAt := 0, doneTally := 9, tiles := 0, rows := [], prefill := [], recompute := [] }
  let a : State := modJob 2 (fun j => { j with steps := [t] }) (modJob 3 (fun j => { j with waitingCores := some 5 }) learning)
  { a with prep := { a.prep with sheets := holding.prep.sheets.map (fun x => { x with checkHit := some 40 }) }
           serv := { a.serv with targets := [⟨77, 0, [5], 0⟩] }
           clk := { a.clk with tb := 70000000000 } }
def learnedJob : JobDecl := ⟨2, 1, 7, 0, 1, 1, 1, 1, 1, 1, some ⟨1, 1, 1, 1, false, 4⟩, false, [], 0⟩
def onePlan : StepPlan := { opens := [], tiles := [⟨0, false, zeros 9 ++ [0xFF] ++ zeros 54⟩], handle := 0, doneTally := 9, results := [] }
theorem wit_build : jobDecl learning 2 = some learnedJob ∧ hasWork learning 2 (cadence (ceilDiv learning.clk.tb 1000 * 1000) (jobPar learning 2 0x03) (learning.clk.tb + 256)) (learnedJob) = true
    ∧ planOk learning learnedJob onePlan = true ∧ 0 < jobPar learning 2 0x04 ∧ poolUsed learning .serving < poolSize learning .serving
    ∧ asleepStacks learning (planMask onePlan) = [] ∧ (holdCores learning 2 1 (planCores onePlan) (nth learning.coreMaps 2 [])).isSome = true
    ∧ (moveExpired 2 (adoptJob 2 learning)).serv.lines.length = 1 ∧ (fillDecode 2 1 2000000 learning).rows = 1
    ∧ holdCores learning 2 1 [0] (List.replicate 128 none) = none := by
  refine ⟨?_, ?_, ?_, ?_, ?_, ?_, ?_, ?_, ?_, ?_⟩ <;> decide +kernel
theorem wit_accept : ((jobAt owing 2).steps.find? (fun t => t.state != 7)).map (stepDone owing) = some true ∧ (jobAt owing 3).waitingCores = some 5
    ∧ (jobAt owing 3).waitReported = false ∧ 5 + jobPar owing 3 0x03 ≤ owing.clk.tb
    ∧ owing.serv.targets.filter (fun t => decide (t.arrived + 60000000000 < owing.clk.tb) && !targetMatched owing t) = [⟨77, 0, [5], 0⟩] := by
  refine ⟨?_, ?_, ?_, ?_, ?_⟩ <;> decide +kernel
theorem wit_deadlines : (sheetAt owing 9).map (fun x => (x.alive, x.checkHit, x.committed)) = some (true, some 40, none)
    ∧ acceptanceOwed { owing with serv := learning.serv } 40 = false ∧ agreeing [5, 6, 7] [5, 6, 8] = 2 := by
  refine ⟨?_, ?_, ?_⟩ <;> decide +kernel

/-! Witnesses of TextCommands. -/

/-- A part whose image has a vocabulary, with grammar 5 loaded and bound. -/
def bound : State := { learning with text := { learning.text with grammars := [(5, zeros 32)], bindings := [((1, 2), (5, 0))] } }
theorem wit_text_detok : tokenOk learning 0x41 = true ∧ tokenOk learning 0x104 = false ∧ leAt (pack [(2, 1), (2, 0), (4, 0x41)]) 0 2 = 1 := by
  refine ⟨?_, ?_, ?_⟩ <;> decide +kernel
theorem wit_text_tables : (Tab.find bound.text.grammars 5).isSome = true ∧ Tab.find bound.text.grammars 6 = none ∧ (bindKeys bound).length < 1024
    ∧ (∃ e ∈ bound.text.bindings, e.2.1 = 5) ∧ (∀ e ∈ bound.text.bindings, e.2.1 ≠ 6) ∧ (∀ e ∈ bound.serv.lines, lineUses 6 e = false) := by
  refine ⟨?_, ?_, ?_, ?_, ?_, ?_⟩ <;> decide +kernel
theorem wit_text_full : (bindKeys { up with text := { up.text with bindings := (List.range 1024).map (fun i => ((1, i), (0, 0))) } }).length = 1024 := by decide +kernel
theorem wit_text_stop : stopOk (stopRecord (pack [(1, 1), (1, 0), (1, 0xFF), (5, 0), (1, 0x41), (31, 0)]) 0) = true ∧ stopOk (stopRecord (zeros 40) 0) = false := by
  refine ⟨?_, ?_⟩ <;> decide +kernel
/-- A grammar of one accepting state with one edge, under class table 0. -/
def oneState : Bytes := pack [(2, 1), (1, 0), (1, 0), (2, 1), (2, 0), (4, 1), (4, 288), (16, 0), (32, 2), (4, 0), (2, 1), (1, 1), (1, 0), (4, 1)]
def grammars : State :=
  let l : Tab Nat := [(0x08000001, 64)]
  trusting (signedBox 3 0 oneState) { learning with text := { learning.text with classTables := [(0, [])] }, cmd := { learning.cmd with inForce := l } }
theorem wit_grammar_load : sectionTable (containerBody (signedBox 3 0 oneState)) = none ∧ grammarOk (vocab grammars) (grammars.text.classTables.map Prod.fst) (sectionGrammar (containerBody (signedBox 3 0 oneState))) = true
    ∧ (signatureGood (signedBox 3 0 oneState) = true → containerRefusal grammars 3 (signedBox 3 0 oneState) = none)
    ∧ grammarBytes { grammars with text := { grammars.text with grammars := [(5, oneState)] } } ≤ par grammars 0x08000001 * 1024 := by
  refine ⟨?_, ?_, containerRefusal_none ?_ (keyTrusted_trusting ?_ ?_ ?_ ?_ rfl), ?_⟩ <;> decide +kernel

/-! Witnesses of TransmitPackets. -/

/-- Port 0 holds a mark; a queued record; an image row. -/
def marking : State := modTx 0 (fun t => { t with marks := [⟨4, 1, 900000, 999990⟩] }) up
def queuedRecord (frame sent : Nat) : OutRecord := { no := 1, kind := 1, sheet := 9, stream := 0, port := 0, vc := 2, bytes := zeros 64, commit := 1000, queued := true, launched := true, mirrored := 0, frame := frame, sentBytes := sent }
def queueing (frame sent : Nat) : State := { up with out := { up.out with records := [queuedRecord frame sent], ports := modNth up.out.ports 0 (fun t => { t with packetBytes := 64 }) } }
def imaging (f : List OpenFrame) (r : List OutRow) : State := modTx 0 (fun t => { t with rows := r, frames := f }) up
theorem wit_transmit : (nth marking.out.ports 0 TxPort.reset).marks.length = 1 ∧ notHeld marking = true ∧ awake marking = true ∧ 0 < marking.variant.txPorts
    ∧ (queueing 0 0).out.records.find? (fun r => r.queued && r.port == 0) = some (queuedRecord 0 0) ∧ mayStart (queueing 0 0) 0 64 = true
    ∧ (queueing 1 0).out.records.find? (fun r => r.queued && r.port == 0) = some (queuedRecord 1 0)
    ∧ (queueing 1 64).out.records.find? (fun r => r.queued && r.port == 0) = some (queuedRecord 1 64) := by
  refine ⟨?_, ?_, ?_, ?_, ?_, ?_, ?_, ?_⟩ <;> decide +kernel
theorem wit_transmit_rows : (nth (imaging [⟨9, 4, 1, true, true⟩] []).out.ports 0 TxPort.reset).frames.find? (endsNow up (nth (imaging [⟨9, 4, 1, true, true⟩] []).out.ports 0 TxPort.reset)) = some ⟨9, 4, 1, true, true⟩
    ∧ (nth (imaging [] [⟨9, 0, 4, 0, 0x2A, [1], false, 5⟩]).out.ports 0 TxPort.reset).frames = [] ∧ 0 < up.out.ports.length
    ∧ sortBy (fun r => r.at_ * 16 + r.stream) [(⟨9, 0, 4, 0, 0x2A, [1], false, 5⟩ : OutRow)] = [⟨9, 0, 4, 0, 0x2A, [1], false, 5⟩]
    ∧ notHeld { up with out := { up.out with hold := some 1000 } } = false := by
  refine ⟨?_, ?_, ?_, ?_, ?_⟩ <;> decide +kernel

/-! Witnesses of RecordsAndHold. -/

/-- A side whose release check has passed. -/
def wholeSide : Sheet := { newSheet up 0 ⟨9, 0, 5, 6, none, none, none, none, 128, true, false, false, false, false, false, 0, 0⟩ none with checkHit := some 5 }
def sides (h : Sheet) : State := { up with prep := { up.prep with sheets := [h] } }
theorem wit_record_commit : sheetAt (sides wholeSide) 9 = some wholeSide ∧ wholeSide.checkHit.isSome = true ∧ wholeSide.alive = true
    ∧ linesOf (sides wholeSide) 9 = [] ∧ sheetRecordDue (sides { wholeSide with checkHit := none }) { wholeSide with checkHit := none } = false
    ∧ ({ wholeSide with committed := some 5 } : Sheet).alive = true
    ∧ ((sides { wholeSide with dead := some 1 }).prep.sheets.find? (fun h => h.id == 9 && h.dead.isSome && !h.noticed)).isSome = true
    ∧ up.pins.outHold = true ∧ ({ up with pins := { up.pins with outHold := false } } : State).pins.outHold = false := by
  refine ⟨?_, ?_, ?_, ?_, ?_, ?_, ?_, ?_, ?_⟩ <;> decide +kernel

/-! Witnesses of ParametersAndEpochs. -/

def staging : State := let l : Tab Nat := [(0x07000003, 6)]; { up with cmd := { up.cmd with staged := l } }
def quieting (st : Nat) : State := { up with cmd := { up.cmd with quiet := some ⟨2, 900000, [], st, 0, 0⟩ } }
theorem wit_params : paramInfo up 0x0FFFFFFF = .unknown ∧ (∃ i, paramInfo up 0x07000003 = .known i ∧ i.change ≠ .ro)
    ∧ firstRefusal up (lastEntries (writeEntries (pack [(2, 1), (2, 0)] ++ paramEntry 0x07000003 6))) 0 [] (writeEntries (pack [(2, 1), (2, 0)] ++ paramEntry 0x07000003 6)) = none
    ∧ firstRefusal up (lastEntries (writeEntries (pack [(2, 1), (2, 0)] ++ paramEntry 0x0D000005 1))) 0 [] (writeEntries (pack [(2, 1), (2, 0)] ++ paramEntry 0x0D000005 1)) = none
    ∧ (∃ e ∈ lastEntries (writeEntries (pack [(2, 1), (2, 0)] ++ paramEntry 0x0D000005 1)), e.1 = 0x0D000005)
    ∧ firstRefusal up (lastEntries (writeEntries (pack [(2, 1), (2, 0)] ++ paramEntry 0x0FFFFFFF 6))) 0 [] (writeEntries (pack [(2, 1), (2, 0)] ++ paramEntry 0x0FFFFFFF 6)) = some (0, 0x01A4) := by
  refine ⟨by decide +kernel, ⟨_, rfl, by decide +kernel⟩, by decide +kernel, by decide +kernel, ⟨(0x0D000005, 1), by decide +kernel, rfl⟩, by decide +kernel⟩
theorem wit_epochs : recheck staging staging.cmd.staged = none ∧ staging.cmd.quiet = none ∧ staging.cmd.staged ≠ [] ∧ poolUsed up .housekeeping < poolSize up .housekeeping
    ∧ (recheck { up with cmd := { up.cmd with staged := [(0x0FFFFFFF, 1)] } } [(0x0FFFFFFF, 1)]) = some 0x01A4
    ∧ quietReady (quieting 2) = true ∧ stepInFlight (quieting 2) = false ∧ quietReady (quieting 1) = false ∧ awake (quieting 2) = true
    ∧ (jobDecl learning 3).map JobDecl.kind = some 3 ∧ (jobDecl learning 2).map JobDecl.kind = some 2 := by
  refine ⟨?_, ?_, ?_, ?_, ?_, ?_, ?_, ?_, ?_, ?_, ?_⟩ <;> decide +kernel

/-! Witnesses of MailboxCommands. -/

/-- The channels as a boot leaves them. -/
def mailing : State := setChannels up
def mailFull : State := modChan 2 (fun ch => { ch with depth := 1, queue := [⟨0x10, 0, 1, 5, zeros 64⟩], doorbell := 1 }) mailing
theorem wit_mail : allowed mailing 8 0x01 = true ∧ (chanAt mailing 8).queue.length < (chanAt mailing 8).depth ∧ allowed mailing 2 0x10 = true ∧ allowed mailing 2 0x01 = false
    ∧ 2 ≠ par mailing 0x0A000012 ∧ 0 = par mailing 0x0A000012 ∧ allowed mailing 0 0x01 = false ∧ mailing.cmd.waiting = [] ∧ 8 < mailing.cmd.chans.length
    ∧ hostChannel mailing 2 = true ∧ hostChannel mailing 8 = false ∧ bitsOf 32 4 = [2] ∧ bitsOf 32 256 = [8] := by
  refine ⟨?_, ?_, ?_, ?_, ?_, ?_, ?_, ?_, ?_, ?_, ?_, ?_, ?_⟩ <;> decide +kernel
theorem wit_mail_full : (let s := modChan 8 (fun ch => { ch with depth := 1, queue := [⟨0x10, 0, 1, 5, zeros 64⟩] }) mailing
      allowed s 8 0x01 = true ∧ (chanAt s 8).depth ≤ (chanAt s 8).queue.length)
    ∧ (chanAt mailFull 2).queue ≠ [] ∧ (chanAt mailFull 2).receiver = 1 ∧ depthTotal mailFull 2 64 ≤ 2048 ∧ receiverOk mailFull.variant 0 = true ∧ aclOk 0xF0 = true
    ∧ 2048 < depthTotal { mailing with cmd := { mailing.cmd with chans := List.replicate 32 { Channel.reset with depth := 65 } } } 2 64 := by
  refine ⟨⟨?_, ?_⟩, ?_, ?_, ?_, ?_, ?_, ?_⟩ <;> decide +kernel

/-! Witnesses of I3cTarget. -/

def addressed : State := { up with cmd := { up.cmd with dynAddr := 0x30, enint := true, ibis := [⟨0x01, 0, 0, false, none⟩, ⟨0x04, 0, 0, false, none⟩, ⟨0x02, 1, 1, false, some 9⟩] } }
theorem wit_i3c : hears up = true ∧ up.cmd.dynAddr = 0 ∧ hears addressed = true ∧ addressed.flt.frozen = false ∧ hears { up with pwr := { up.pwr with mode := .sleep } } = false
    ∧ firstIbi (fun i => i.nacked.isNone) addressed = some ⟨0x04, 0, 0, false, none⟩ ∧ firstIbi (fun i => i.nacked.isSome) addressed = some ⟨0x02, 1, 1, false, some 9⟩
    ∧ firstIbi (fun i => i.nacked.isNone) up = none ∧ ({ up with pwr := { up.pwr with mode := .sleep, waking := none } } : State).cmd.staticAddr = 0x2C := by
  refine ⟨?_, ?_, ?_, ?_, ?_, ?_, ?_, ?_, ?_⟩ <;> decide +kernel

/-! Witnesses of PowerCommands. -/

theorem wit_power_commands : sleepReason up = none ∧ up.clk.aonOk = true ∧ executes (packetOf 0x0B01 hostHdr (pack [(1, 4), (3, 0)]) up) up = true
    ∧ sleepReason (scanning 0 0 64 3) = some 1 ∧ openStreams up = [] ∧ (∃ e ∈ decoding.slab.seqs, e.2.state = 1) ∧ openStreams decoding = []
    ∧ 0 < up.variant.clusters ∧ up.variant.clusters ≤ 255 ∧ awake up = true := by
  refine ⟨?_, ?_, ?_, ?_, ?_, ⟨_, List.mem_cons_self .., rfl⟩, ?_, ?_, ?_, ?_⟩ <;> decide +kernel

/-! Witnesses of PowerEvents. -/

def sleeping : State := { up with pwr := { up.pwr with mode := .sleep, waking := some 1, saved := some ⟨1, true, 5, 0⟩ }, clk := { up.clk with comparator := some 100 } }
def charged : State := { wakened with pwr := { wakened.pwr with points := setNth wakened.pwr.points 0 (some 0) } }
def hotSample (t : Int) : List Int := List.replicate 18 t
theorem wit_power_events : sleeping.pwr.mode = .sleep ∧ sleeping.clk.comparator = some 100 ∧ ({ sleeping with pwr := { sleeping.pwr with saved := some ⟨1, false, 5, 0⟩ } } : State).pwr.saved = some ⟨1, false, 5, 0⟩
    ∧ awake up = true ∧ stackAt up 0 = .awake ∧ mayDoze up 0 = false ∧ mayDoze { up with pwr := { up.pwr with dozeAsked := [true, false, false, false] } } 0 = true
    ∧ stackAt { up with pwr := { up.pwr with stackDies := [.entering 5, .waking, .doze, .awake] } } 1 = .waking ∧ up.pwr.shares = []
    ∧ clusterHeld charged 0 = true ∧ clusterBusy charged 0 = false ∧ nth charged.pwr.lastDone 0 0 + par charged 0x0B000005 ≤ charged.clk.tb ∧ clusterHeld up 0 = false
    ∧ nth up.pwr.lastHeld 0 0 + 20000 ≤ up.clk.tb ∧ nth charged.pwr.points 0 none = some 0 := by
  refine ⟨?_, ?_, ?_, ?_, ?_, ?_, ?_, ?_, ?_, ?_, ?_, ?_, ?_, ?_, ?_⟩ <;> decide +kernel
theorem wit_cluster_busy : clusterBusy { up with fc := { up.fc with slots := [(3, dueSlot 0x04 1 0 0)] } } 0 = true := by decide +kernel
theorem wit_thermal : (sensorList up).find? (fun i => decide (120 ≤ nth (hotSample 40) i 0) && decide (120 ≤ nth up.pwr.temps i 0)) = none
    ∧ hottest ((List.range up.variant.clusters).map (fun i => nth (hotSample 40) i 0)) = 40 ∧ (newCap up 40).1 = up.pwr.thermalCap ∧ (40 : Int) < par up 0x0B00000A + 10
    ∧ (sensorList up).find? (fun i => decide (120 ≤ nth (hotSample 121) i 0) && decide (120 ≤ nth (hotSample 121) i 0)) = some 0 ∧ up.pwr.thermalCap < capFor up 119 := by
  refine ⟨?_, ?_, ?_, ?_, ?_, ?_⟩ <;> decide +kernel

/-! Witnesses of FaultsAndClocks. -/

theorem wit_faults : bit (par up 0x0C000001) (freezeGroup 0x07C3) = false ∧ bit (par { up with cmd := { up.cmd with inForce := [(0x0C000001, 16)] } } 0x0C000001) (freezeGroup 0x07C3) = true
    ∧ awake up = true
    ∧ nth { up with flt := { up.flt with watchdog := [0, 0, 0, 0] } }.flt.watchdog 0 0 + 50000000 < ({ up with clk := { up.clk with tb := 50000001 } } : State).clk.tb
    ∧ up.clk.aonOk = true ∧ ({ up with clk := { up.clk with calOpen := true } } : State).clk.calOpen = true ∧ stackAt up 0 = .awake ∧ injectUnit 0x07C3 = some 6 ∧ injectUnit 0x0770 = none := by
  refine ⟨?_, ?_, ?_, ?_, ?_, ?_, ?_, ?_, ?_⟩ <;> decide +kernel
theorem wit_frz_read : (let s := { up with flt := { up.flt with frozen := true }, clk := { up.clk with tbRun := false } }
      hears s = true ∧ mustWait (packetOf 0x0C06 hostHdr (pack [(8, 0), (4, 8)]) s) s = false) ∧ leAt (pack [(8, 0), (4, 8)]) 8 4 = 8 := by
  refine ⟨⟨?_, ?_⟩, ?_⟩ <;> decide +kernel
/-- A part whose output ring lies at 0x1000 and holds something. -/
def ringed : State := { up with out := { up.out with ring := [⟨.thumb 9, 8, false, false⟩] }, cmd := { up.cmd with inForce := [(0x09F00001, 0x1000), (0x09F00002, 0x1000)] } }
theorem wit_held : heldAddr ringed 0x1000 = true ∧ ∃ x, heldAddr up x = false := by
  refine ⟨?_, Config.ddrImage.1 + Config.ddrImage.2 + Config.ddrFirmware.1 + Config.ddrFirmware.2, ?_⟩
  · have h : (!ringed.out.ring.isEmpty && (decide (par ringed 0x09F00001 ≤ 0x1000) && decide (0x1000 < par ringed 0x09F00001 + par ringed 0x09F00002))) = true := by decide +kernel
    unfold heldAddr
    simp only [h, Bool.or_true, Bool.true_or]
  · have h1 : up.slab.slabs = [] := rfl
    have h2 : up.out.ring.isEmpty = true := rfl
    have h3 : up.ctxs = [] := rfl
    have h4 : up.slab.seqs = [] := rfl
    unfold heldAddr
    simp only [h1, h2, h3, h4, List.any_nil, Bool.not_true, Bool.false_and, Bool.or_false, Bool.or_eq_false_iff, Bool.and_eq_false_iff, decide_eq_false_iff_not]
    constructor <;> right <;> omega

/-! Witnesses of TwinCommandsAndEvents. -/

def pairing (r : Nat) : State := { up with twin := { up.twin with state := r, lastBeat := 800000, hbLost := true, linkLost := true, pulseCode := 1 } }
theorem wit_twin : twinOn (pairing 1) = true ∧ isStandby (pairing 3) = true ∧ isStandby (pairing 1) = false ∧ isPrimary (pairing 1) = true
    ∧ (pairing 1).twin.lastBeat + par (pairing 1) 0x0C000015 ≤ (pairing 1).clk.tb ∧ pulseCodeOf 11000 = some 2 ∧ pulseCodeOf 12500 = none
    ∧ par (pairing 3) 0x0C00001A = 1 ∧ handedAll { pairing 1 with twin := { (pairing 1).twin with handover := true } } = true
    ∧ handedAll { holding with twin := { (pairing 1).twin with handover := true } } = false ∧ (chanAt up 29).queue = [] ∧ (pairing 1).twin.lastSend + par (pairing 1) 0x0C000015 / 2 ≤ (pairing 1).clk.tb := by
  refine ⟨?_, ?_, ?_, ?_, ?_, ?_, ?_, ?_, ?_, ?_, ?_, ?_⟩ <;> decide +kernel

/-! Witnesses of TwinItems. -/

def standing : State := { pairing 3 with cmd := { up.cmd with inForce := [(0x0C000015, 100000), (0x0C000016, 3)] } }
theorem wit_items : twinOn standing = true ∧ isStandby (itemHeard ⟨1, 0, 0⟩ standing) = true ∧ (itemHeard ⟨1, 0, 0⟩ standing).twin.received + 1 = 1 ∧ isStandby (itemHeard ⟨1, 0, 0⟩ (pairing 1)) = false
    ∧ isPrimary (itemHeard ⟨5, 0, 0⟩ standing) = false ∧ (itemHeard ⟨5, 0, 0⟩ standing).twin.received + 1 < 5 ∧ isPrimary (pairing 1) = true
    ∧ (∃ i ∈ ({ pairing 1 with twin := { (pairing 1).twin with sentItems := [⟨2, 7, [], 5⟩] } } : State).twin.sentItems, i.mseq = 7) := by
  refine ⟨?_, ?_, ?_, ?_, ?_, ?_, ?_, ⟨⟨2, 7, [], 5⟩, ?_, rfl⟩⟩ <;> decide +kernel

/-! Witnesses of SecurityCommands. -/

/-- The memory that holds bytes from an address on. -/
def cellsFrom : Nat → Bytes → Memory
  | _, [] => []
  | k, x :: xs => if x = 0 then cellsFrom (k + 1) xs else (k, x) :: cellsFrom (k + 1) xs
theorem read_cells_below (k a : Nat) (b : Bytes) (h : a < k) : Memory.read (cellsFrom k b) a = 0 := by
  induction b generalizing k with
  | nil => rfl
  | cons x xs ih =>
    unfold cellsFrom
    split
    · exact ih (k + 1) (by omega)
    · unfold Memory.read; rw [if_neg (by omega)]; exact ih (k + 1) (by omega)
theorem readN_cells (b : Bytes) (k : Nat) : Memory.readN (cellsFrom k b) k b.length = b := by
  have up1 : ∀ (x : Byte) (m : Memory) (k j n : Nat), k < j → Memory.readN ((k, x) :: m) j n = Memory.readN m j n := by
    intro x m k j n
    induction n generalizing j with
    | zero => intro _; rfl
    | succ n ih =>
      intro h
      show Memory.read ((k, x) :: m) j :: Memory.readN ((k, x) :: m) (j + 1) n = _
      rw [ih (j + 1) (by omega)]
      have : Memory.read ((k, x) :: m) j = Memory.read m j := if_neg (by omega)
      rw [this]; rfl
  induction b generalizing k with
  | nil => rfl
  | cons x xs ih =>
    show Memory.read (cellsFrom k (x :: xs)) k :: Memory.readN (cellsFrom k (x :: xs)) (k + 1) xs.length = _
    unfold cellsFrom
    split
    · rename_i h
      rw [read_cells_below (k + 1) k xs (by omega), ih (k + 1), h]
    · have : Memory.read ((k, x) :: cellsFrom (k + 1) xs) k = x := if_pos rfl
      rw [this, up1 _ _ _ _ _ (by omega), ih (k + 1)]
theorem readN_split (m : Memory) (a n k : Nat) : Memory.readN m a (n + k) = Memory.readN m a n ++ Memory.readN m (a + n) k := by
  induction n generalizing a with
  | zero => simp [Memory.readN]
  | succ n ih =>
    rw [show n + 1 + k = (n + k) + 1 by omega]
    show Memory.read m a :: Memory.readN m (a + 1) (n + k) = _
    rw [ih (a + 1), show a + 1 + n = a + (n + 1) by omega]; rfl
/-- A flash whose slots are committed; firmware slot B holds a container. -/
def flashed : State :=
  let d : Directory := ⟨1, 0, 0, [.committed, .committed, .committed, .committed], 0⟩
  { up with flash := { up.flash with usable := true, copies := [some d, none], slots := [[], cellsFrom 0 (signedBox 1 0 [1]), [], []] } }
theorem wit_images : inactiveSlot up 1 = 1 ∧ nth up.flash.sizes 1 0 < 1099511627776 ∧ imageStaged up = false ∧ slotMark up 1 ≠ .committed
    ∧ imageStaged { up with cmd := { up.cmd with stagedItems := [.image] } } = true
    ∧ slotMark flashed 1 = .committed ∧ inactiveSlot flashed 1 = 1 ∧ slotMark flashed 3 = .committed ∧ inactiveSlot flashed 2 = 3
    ∧ openStreams up = [] ∧ openStreams (scanning 0 0 64 3) ≠ [] ∧ profileRange factoryProfile = true ∧ profileFormat factoryProfile = true
    ∧ profileFormat (zeros 20) = false ∧ profileRange (zeros 20) = true := by
  refine ⟨?_, ?_, ?_, ?_, ?_, ?_, ?_, ?_, ?_, ?_, ?_, ?_, ?_, ?_, ?_⟩ <;> decide +kernel
/-- Its fuses trust the key of that container. -/
def boxed : State := trusting (signedBox 1 0 [1]) flashed
theorem slot_of {s : State} {i n : Nat} {b : Bytes} (hs : nth s.flash.slots i [] = cellsFrom 0 b) (hl : b.length = 8192 + n) (hb : leAt (b.take 8192) 8 8 = n)
    (hz : n ≤ nth s.flash.sizes i 0 - 8192) : slotContainer s i = b := by
  have z : ∀ (m : Memory) (a n : Nat), (Memory.readN m a n).length = n := by
    intro m a n
    induction n generalizing a with
    | zero => rfl
    | succ n ih => show (Memory.readN m (a + 1) n).length + 1 = _; rw [ih]
  have w := readN_cells b 0
  rw [hl, readN_split, Nat.zero_add] at w
  have y := congrArg (List.take 8192) w
  rw [List.take_append_of_le_length (by rw [z]), List.take_of_length_le (by rw [z])] at y
  unfold slotContainer
  simp only [hs, y, hb]
  rw [show Nat.min n (nth s.flash.sizes i 0 - 8192) = n from Nat.min_eq_left hz, ← y]
  exact w
theorem slot_boxed : slotContainer boxed 1 = signedBox 1 0 [1] :=
  slot_of (n := 1) rfl (by decide +kernel) (by decide +kernel) (by decide +kernel)
theorem wit_box : signatureGood (signedBox 1 0 [1]) = true → containerRefusal boxed 1 (signedBox 1 0 [1]) = none :=
  containerRefusal_none (by decide +kernel) (keyTrusted_trusting (s := flashed) (by decide +kernel) (by decide +kernel) (by decide +kernel) (by decide +kernel) rfl)
theorem slotRefusal_firmware {s : State} {i : Nat} {b : Bytes} (h : slotContainer s i = b) (k : containerRefusal s 1 b = none) : slotRefusal imageRefusal 1 i s = none := by
  unfold slotRefusal
  simp only [h, k]
  exact if_neg (by decide)
theorem wit_commit (v : signatureGood (signedBox 1 0 [1]) = true) : slotRefusal imageRefusal 1 1 boxed = none :=
  slotRefusal_firmware slot_boxed (wit_box v)
theorem wit_commit_refused : slotRefusal imageRefusal 1 1 up = some 0x06D0 := by decide +kernel
theorem wit_key_update : (signatureGood (signedBox 4 0 [1]) = true → containerRefusal (trusting (signedBox 4 0 [1]) up) 4 (signedBox 4 0 [1]) = none)
    ∧ (signedBox 4 0 [1]).length = 8193 ∧ byteAt (signedBox 4 0 [1]) 2 = 4 ∧ containerRefusal up 4 (zeros 8192) = some 0x06D0 := by
  refine ⟨containerRefusal_none ?_ (keyTrusted_trusting ?_ ?_ ?_ ?_ rfl), ?_, ?_, ?_⟩ <;> decide +kernel

/-! Witnesses of BootSequence. -/

/-- A locked device whose boot is due. -/
def booting (s : State) : State := { s with boot := { s.boot with due := true, stage := 0, ready := false } }
theorem wit_boot : awake (booting up) = true ∧ (booting up).clk.tbLock = true ∧ directory (booting up) = none ∧ directory (booting flashed) ≠ none
    ∧ slotMark flashed (2 + (dirNow flashed).activeImage) = .committed ∧ slotMark up (2 + (dirNow up).activeImage) ≠ .committed ∧ slotMark up (inactiveSlot up 2) ≠ .committed
    ∧ chooseFirmware up = none ∧ slotRefusal imageRefusal 1 (dirNow up).preferredFw up = some 0x06D0
    ∧ slotRefusal imageRefusal 1 0 { up with boot := { up.boot with lastStatus := 0x06D0 } } ≠ none ∧ up.cmd.packets = [] ∧ up.twin.listening = none
    ∧ { up with image := none }.image = none ∧ awake State.reset = false := by
  refine ⟨?_, ?_, ?_, ?_, ?_, ?_, ?_, ?_, ?_, ?_, ?_, ?_, ?_, ?_⟩ <;> decide +kernel
/-- With a signature that verifies, slot B's firmware is chosen behind the blank slot A. -/
theorem wit_boot_fallback (v : signatureGood (signedBox 1 0 [1]) = true) :
    slotRefusal imageRefusal 1 (dirNow boxed).preferredFw boxed = some 0x06D0
    ∧ slotRefusal imageRefusal 1 (1 - (dirNow boxed).preferredFw) { boxed with boot := { boxed.boot with lastStatus := 0x06D0 } } = none := by
  refine ⟨by decide +kernel, ?_⟩
  have p : (dirNow boxed).preferredFw = 0 := by decide +kernel
  rw [p]
  exact slotRefusal_firmware slot_boxed (wit_box v)

/-! Witnesses of PinsAndRegisters. -/

/-- The part whose general pin 0 has a function. -/
def pinned (f : Nat) (s : State) : State := { s with cmd := { s.cmd with inForce := Tab.set s.cmd.inForce 0x0E000000 f } }
theorem wit_pins : awake (pinned 2 up) = true ∧ pinFunc (pinned 2 up) 0 = 2 ∧ pinFunc (pinned 3 up) 0 = 3 ∧ pinLow (pinned 3 up) 0 = false ∧ up.pwr.mode ≠ .sleep
    ∧ isSelector 0x0400 = true ∧ isSelector 0x0100 = false ∧ up.flt.frozen = false ∧ pinFunc up 0 ≠ 2
    ∧ pinFunc (pinned 3 { up with clk := { up.clk with tbRun := false }, pwr := { up.pwr with mode := .sleep } }) 0 = 3 := by
  refine ⟨?_, ?_, ?_, ?_, ?_, ?_, ?_, ?_, ?_, ?_⟩ <;> decide +kernel

/-! Witnesses of JtagInstructions. -/

/-- A frozen part. -/
def iced : State := { up with flt := { up.flt with frozen := true } }
theorem wit_jtag : iced.flt.frozen = true ∧ (freezeRead iced (0x02 * 2 ^ 56)).isSome = true ∧ freezeRead iced 0 = none ∧ up.flt.frozen = false
    ∧ iced.variant.cores > 127 ∧ freezeRead iced (0x0A * 2 ^ 56 + 2 ^ 40) = none := by
  refine ⟨?_, ?_, ?_, ?_, ?_, ?_⟩ <;> decide +kernel

/-! Witnesses of PartIdentity. -/

theorem wit_part : paramInfo up 0x0A000001 ≠ .unknown ∧ (0 : Nat) < 2 ^ 64 ∧ regValue up 0x0A00 = 0x96041000 := by decide +kernel

end
end Sys2Proof.Machine
end

section
/-! SUPPORT. The scope statements: every step completes, the part identity, the pins and the debug registers. -/
namespace Sys2Proof.Machine

/-! ### A step completes -/

theorem step_of_pending_nil {s : State} (h : s.pending = []) : step s = .next s := by
  unfold step; rw [h]

theorem step_of_pending_cons {s : State} {c : Instr} {r : List Instr} (h : s.pending = c :: r) :
    step s = exec c { s with pending := r } := by
  unfold step; rw [h]

/-- Settles O3: an empty queue idles (log 9), and a front command completes on the queue's rest (log 11). -/
theorem everyStepCompletes : Obligations.EveryStepCompletes := by
  intro s
  cases hq : s.pending with
  | nil => exact ⟨s, step_of_pending_nil hq, hq, rfl, Fuses.gains_refl _⟩
  | cons c r =>
    obtain ⟨t, hstep, hpending, hvariant, hfuses⟩ := exec_next c { s with pending := r }
    exact ⟨t, (step_of_pending_cons hq).trans hstep, hpending, hvariant, hfuses⟩

/-! ### Packed fields and reserved bytes -/

theorem leAt_pack_skip (w v off n : Nat) (r : List (Nat × Nat)) (h : w ≤ off) :
    leAt (pack ((w, v) :: r)) off n = leAt (pack r) (off - w) n := by
  simpa using leAt_pack_cons w v r [] off n h

theorem leAt_pack_head (w v : Nat) (r : List (Nat × Nat)) (h : v < 256 ^ w) : leAt (pack ((w, v) :: r)) 0 w = v := by
  simpa using leAt_pack_front w v r [] h

theorem resZero_pack_skip (w v off n : Nat) (r : List (Nat × Nat)) (h : w ≤ off) :
    resZero (pack ((w, v) :: r)) off n = resZero (pack r) (off - w) n := by
  unfold resZero
  rw [pack, List.drop_append, List.drop_eq_nil_of_le (by simpa using h), List.nil_append, le_length]

theorem allZero_le_zero (n : Nat) : allZero (le n 0) = true := by
  induction n with
  | zero => rfl
  | succ n ih => simpa [allZero, le] using ih

theorem resZero_pack_head (w : Nat) (r : List (Nat × Nat)) : resZero (pack ((w, 0) :: r)) 0 w = true := by
  unfold resZero
  rw [pack, List.drop_zero, List.take_append_of_le_length (by simp), List.take_of_length_le (by simp), allZero_le_zero]

/-! ### Read-only parameters (13 R404) -/

/-- PARAM_READ of a read-only parameter answers its value under either view. -/
theorem paramReadBody_ro {p : Packet} {s : State} {i : ParamInfo} (hlen : p.params.length = 8) (hview : byteAt p.params 4 ≤ 1)
    (hres : resZero p.params 5 3 = true) (hinfo : paramInfo s (leAt p.params 0 4) = .known i) (hro : i.change = .ro)
    (hdraw : leAt p.params 0 4 ≠ 0x0B000085) :
    paramReadBody p s =
      .ok (pack [(4, leAt p.params 0 4), (1, i.width), (1, 0), (2, 0), (8, roValue s (leAt p.params 0 4))]) s := by
  unfold paramReadBody readParam
  simp [hlen, hview, hres, hinfo, hro, hdraw, b2n]

/-- No write of a read-only parameter passes its check. -/
theorem entryRefusal_ro {s : State} {id : Nat} {i : ParamInfo} (hinfo : paramInfo s id = .known i) (hro : i.change = .ro)
    (new : Tab Nat) (raw : Nat) (res : Bool) : entryRefusal s new id raw res = some 0x01A5 := by
  unfold entryRefusal
  simp [hinfo, hro]

/-- The one entry of a PARAM_WRITE that writes `v` to `id`. -/
theorem writeEntries_single {id v : Nat} (hid : id < 2 ^ 32) (hv : v < 2 ^ 64) :
    writeEntries (pack [(2, 1), (2, 0), (4, id), (4, 0), (8, v)]) = [(id, v, true)] := by
  have hid' : id < 256 ^ 4 := hid
  have hv' : v < 256 ^ 8 := hv
  unfold writeEntries
  rw [leAt_pack_head _ _ _ (by decide)]
  simp [List.range_succ, leAt_pack_skip, leAt_pack_head _ _ _ hid', leAt_pack_head _ _ _ hv', resZero_pack_skip, resZero_pack_head]

/-- A PARAM_WRITE of one entry that fails its check is refused with the check's status and index 0. -/
theorem paramWriteBody_single_refused {p : Packet} {s : State} {id v st : Nat}
    (hp : p.params = pack [(2, 1), (2, 0), (4, id), (4, 0), (8, v)]) (hid : id < 2 ^ 32) (hv : v < 2 ^ 64)
    (hentry : entryRefusal s (lastEntries [(id, v, true)]) id v true = some st) :
    paramWriteBody p s = .refuse st (le 2 0) := by
  have hcount : leAt p.params 0 2 = 1 := by rw [hp]; exact leAt_pack_head _ _ _ (by decide)
  have hlen : p.params.length = 20 := by rw [hp]; simp
  have hres : resZero p.params 2 2 = true := by rw [hp, resZero_pack_skip _ _ _ _ _ (by decide)]; exact resZero_pack_head _ _
  have hentries : writeEntries p.params = [(id, v, true)] := by rw [hp]; exact writeEntries_single hid hv
  unfold paramWriteBody
  simp [hcount, hlen, hres, hentries, firstRefusal, hentry]

/-! ### The part identity (00 R3) -/

theorem Variant.code_lt (v : Variant) : v.code < 2 ^ 8 := by cases v <;> decide

theorem Variant.code_inj {v w : Variant} : v.code = w.code ↔ v = w := by cases v <;> cases w <;> decide

theorem partId_lt (v : Variant) : partId v < 2 ^ 32 := by
  have := v.code_lt
  unfold partId
  omega

theorem partId_inj {v w : Variant} : partId v = partId w ↔ v = w := by
  rw [← Variant.code_inj]
  unfold partId
  omega

@[simp] theorem regValue_partId (s : State) : regValue s 0x0A00 = partId s.variant := rfl

@[simp] theorem roValue_partId (s : State) : roValue s 0x0A000001 = partId s.variant := rfl

theorem paramInfo_partId (s : State) : paramInfo s 0x0A000001 = .known ⟨4, .ro, .span 0 0, 0, 0x01A8⟩ := rfl

theorem paramReadBody_partId {p : Packet} {v : Nat} (s : State) (hv : v ≤ 1) (hp : p.params = pack [(4, 0x0A000001), (1, v), (3, 0)]) :
    paramReadBody p s = .ok (pack [(4, 0x0A000001), (1, 4), (1, 0), (2, 0), (8, regValue s 0x0A00)]) s := by
  have hid : leAt p.params 0 4 = 0x0A000001 := by rw [hp]; exact leAt_pack_head _ _ _ (by decide)
  have hview : byteAt p.params 4 = v := by
    rw [hp, byteAt, leAt_pack_skip _ _ _ _ _ (by decide)]; exact leAt_pack_head _ _ _ (by omega)
  have hres : resZero p.params 5 3 = true := by
    rw [hp, resZero_pack_skip _ _ _ _ _ (by decide), resZero_pack_skip _ _ _ _ _ (by decide)]; exact resZero_pack_head _ _
  rw [paramReadBody_ro (by rw [hp]; simp) (hview.symm ▸ hv) hres (by rw [hid]; exact paramInfo_partId s) rfl (by rw [hid]; decide), hid,
    roValue_partId, regValue_partId]

theorem paramWriteBody_partId {p : Packet} {v : Nat} (s : State) (hv : v < 2 ^ 64)
    (hp : p.params = pack [(2, 1), (2, 0), (4, 0x0A000001), (4, 0), (8, v)]) : paramWriteBody p s = .refuse 0x01A5 (le 2 0) :=
  paramWriteBody_single_refused hp (by decide) hv (entryRefusal_ro (paramInfo_partId s) rfl _ _ _)

/-- Settles O60: the parameter and the register hold `partId` of the variant, which is injective and fits 32 bits. -/
theorem partIdentity : Obligations.PartIdentity := by
  refine ⟨?_, ?_, fun v s => rfl, fun s t => partId_inj, fun s => partId_lt s.variant⟩
  · rintro dt v h s _ rfl hv
    exact answers_of rfl fun p hp _ _ => paramReadBody_partId _ hv hp
  · rintro dt v h s _ rfl hv
    exact declinesData_of rfl fun p hp _ _ => paramWriteBody_partId _ hv hp

/-! ### PIN_STATUS and CLOCK_STATUS (17 R557) -/

theorem pinStatusBody_ok {p : Packet} (s : State) (h : p.params = []) :
    pinStatusBody p s = .ok (pack [(2, levelMask ((List.range 16).map (ballLevel s))), (2, levelMask s.pins.driven)] ++
      (List.range 16).flatMap (fun i => pack [(1, pinFunc s i), (1, (pinOwner s i).1), (1, (pinOwner s i).2), (1, 0)])) s :=
  if_neg (not_not_intro h)

theorem pinStatusBody_refuse {p : Packet} (s : State) (h : p.params ≠ []) : pinStatusBody p s = .refuse 0x01E0 [] := if_pos h

theorem clockStatusBody_ok {p : Packet} (s : State) (h : p.params = []) :
    clockStatusBody p s = .ok (pack [(1, b2n s.clk.refOk + 2 * b2n s.clk.aonOk + 4 * b2n s.clk.tbLock), (1, twos 8 s.pwr.tjMax), (2, 0),
      (4, s.clk.aonLosses), (8, s.clk.lastLoss)]) s :=
  if_neg (not_not_intro h)

theorem clockStatusBody_refuse {p : Packet} (s : State) (h : p.params ≠ []) : clockStatusBody p s = .refuse 0x01E0 [] := if_pos h

/-! ### Edges at input pins (17 R540, R542) -/

theorem acceptEdge_awake {s : State} (h : awake s = true) (p : Nat) (lv : Bool) :
    acceptEdge p lv s = { s with pins := { s.pins with
      levels := setNth s.pins.levels p lv, edges := setNth s.pins.edges p (inc32 (nth s.pins.edges p 0) 1) } } := by
  unfold acceptEdge
  rw [if_pos h]

theorem acceptEdge_not_awake {s : State} (h : awake s = false) (p : Nat) (lv : Bool) :
    acceptEdge p lv s = { s with pins := { s.pins with levels := setNth s.pins.levels p lv } } := by
  unfold acceptEdge
  rw [if_neg (Bool.eq_false_iff.mp h)]

theorem pinLow_acceptEdge (p q : Nat) (lv : Bool) (s : State) : pinLow (acceptEdge p lv s) q = pinLow s q := by
  unfold pinLow
  rw [par_of (s := s) (t := acceptEdge p lv s) rfl rfl rfl (fun _ => rfl)]

theorem not_frozen_of_awake {s : State} (h : awake s = true) : s.flt.frozen = false := by
  unfold awake at h
  simpa using (Bool.and_eq_true_iff.mp h).2

theorem awake_of_tb_stopped {s : State} (h : s.clk.tbRun = false) : awake s = false := by
  unfold awake
  rw [h, Bool.false_and]

theorem exec_hostInEdge_taken {dt p : Nat} {lv : Bool} {s : State} (ha : awake (advance dt s) = true) (hp : p < 16)
    (hf : pinFunc (advance dt s) p = 2) :
    exec (.hostInEdge dt p lv) s = .next (pinEvent 1 p (b2n lv) (acceptEdge p lv (advance dt s))) := by
  show execHostInEdge dt p lv s = _
  unfold execHostInEdge
  simp [ha, hp, hf]

theorem exec_hostInEdge_ignored {dt p : Nat} {lv : Bool} {s : State}
    (h : awake (advance dt s) = false ∨ 16 ≤ p ∨ pinFunc (advance dt s) p ≠ 2) : exec (.hostInEdge dt p lv) s = .next (advance dt s) := by
  show execHostInEdge dt p lv s = _
  unfold execHostInEdge
  rcases h with h | h | h
  · simp [h]
  · simp [Nat.not_lt.mpr h]
  · simp [h]

/-- What an accepted edge of a WAKE_IN pin brings about, `u` being the state with the edge recorded. -/
def wakeEdgeEffect (p : Nat) (lv : Bool) (u : State) : State :=
  if lv = pinLow u p then u
  else if u.pwr.mode = .sleep then wakeCauseIn 0x06 u
  else if awake u then wakeDies 0x06 u
  else u

theorem exec_wakeInEdge_taken {dt p : Nat} {lv : Bool} {s : State} (hp : p < 16) (hf : pinFunc (advance dt s) p = 3)
    (hz : (advance dt s).flt.frozen = false) :
    exec (.wakeInEdge dt p lv) s = .next (wakeEdgeEffect p lv (acceptEdge p lv (advance dt s))) := by
  show execWakeInEdge dt p lv s = _
  unfold execWakeInEdge wakeEdgeEffect
  simp [hp, hf, hz]

theorem exec_wakeInEdge_ignored {dt p : Nat} {lv : Bool} {s : State}
    (h : 16 ≤ p ∨ pinFunc (advance dt s) p ≠ 3 ∨ (advance dt s).flt.frozen = true) : exec (.wakeInEdge dt p lv) s = .next (advance dt s) := by
  show execWakeInEdge dt p lv s = _
  unfold execWakeInEdge
  rcases h with h | h | h
  · simp [Nat.not_lt.mpr h]
  · simp [h]
  · simp [h]

section
variable {p : Nat} {lv : Bool} {a : State}

theorem wakeEdgeEffect_inactive (h : lv = pinLow a p) : wakeEdgeEffect p lv (acceptEdge p lv a) = acceptEdge p lv a :=
  if_pos (h.trans (pinLow_acceptEdge p p lv a).symm)

theorem wakeEdgeEffect_asleep (h : lv ≠ pinLow a p) (hm : a.pwr.mode = .sleep) :
    wakeEdgeEffect p lv (acceptEdge p lv a) = wakeCauseIn 0x06 (acceptEdge p lv a) :=
  (if_neg (pinLow_acceptEdge p p lv a ▸ h)).trans (if_pos hm)

theorem wakeEdgeEffect_awake (h : lv ≠ pinLow a p) (hm : a.pwr.mode ≠ .sleep) (ha : awake a = true) :
    wakeEdgeEffect p lv (acceptEdge p lv a) = wakeDies 0x06 (acceptEdge p lv a) :=
  (if_neg (pinLow_acceptEdge p p lv a ▸ h)).trans ((if_neg hm).trans (if_pos ha))

/-- Outside Sleep, a stopped part only records the edge. -/
theorem wakeEdgeEffect_stopped (hm : a.pwr.mode ≠ .sleep ∨ lv = pinLow a p) (ha : awake a = false) :
    wakeEdgeEffect p lv (acceptEdge p lv a) = acceptEdge p lv a := by
  by_cases h : lv = pinLow a p
  · exact wakeEdgeEffect_inactive h
  · exact (if_neg (pinLow_acceptEdge p p lv a ▸ h)).trans ((if_neg (hm.resolve_right h)).trans (if_neg (Bool.eq_false_iff.mp ha)))

end

/-! ### Debug registers (00 R9; 15 R480, R481) -/

theorem exec_intkPortErr_absent {dt p : Nat} (s : State) (h : 6 ≤ p) : exec (.intkPortErr dt p) s = .next (advance dt s) :=
  if_neg (Nat.not_lt.mpr h)

theorem exec_outPortStat_absent {dt p : Nat} (s : State) (h : 2 ≤ p) : exec (.outPortStat dt p) s = .next (advance dt s) :=
  if_neg (Nat.not_lt.mpr h)

theorem regAnswers_iff {s : State} {r : Nat} : regAnswers s r = true ↔ s.pwr.mode ≠ .sleep ∨ r = 0x0B00 := by
  simp [regAnswers]

/-- In a freeze the value is captured, and nothing clears (15 R480). -/
theorem regRead_frozen {s : State} {r : Nat} (h : s.pwr.mode ≠ .sleep ∨ r = 0x0B00) (hz : s.flt.frozen = true) :
    regRead r s = { s with jtag := { s.jtag with dataOut := regValue s r } } := by
  unfold regRead modJtag
  simp [regAnswers_iff.mpr h, hz]

/-- Outside a freeze the RC fields clear with the read (00 R9). -/
theorem regRead_running {s : State} {r : Nat} (h : s.pwr.mode ≠ .sleep ∨ r = 0x0B00) (hz : s.flt.frozen = false) :
    regRead r s = { regClear r s with jtag := { (regClear r s).jtag with dataOut := regValue s r } } := by
  unfold regRead modJtag
  simp [regAnswers_iff.mpr h, hz]

theorem regRead_asleep {s : State} {r : Nat} (hm : s.pwr.mode = .sleep) (hr : r ≠ 0x0B00) :
    regRead r s = { s with freeCtr := s.freeCtr + 1, jtag := { s.jtag with dataOut := Config.freeNat s.freeCtr % 2 ^ 32 } } := by
  have hno : ¬ regAnswers s r = true := fun h => (regAnswers_iff.mp h).elim (fun k => k hm) hr
  unfold regRead modJtag draw
  simp [hno]

theorem regStore_asleep {s : State} (r v : Nat) (hm : s.pwr.mode = .sleep) : regStore r v s = s := if_pos hm

theorem regStore_bad {s : State} {r : Nat} (v : Nat) (hm : s.pwr.mode ≠ .sleep) (hz : s.flt.frozen = true) (hr : isSelector r = false) :
    regStore r v s = { s with jtag := { s.jtag with badAddr := true } } :=
  (if_neg hm).trans (if_pos ⟨hz, by rw [hr]; rfl⟩)

theorem regStore_write {s : State} {r : Nat} (v : Nat) (hm : s.pwr.mode ≠ .sleep) (h : s.flt.frozen = false ∨ isSelector r = true) :
    regStore r v s = regWrite r v s := by
  unfold regStore
  rcases h with h | h <;> simp [hm, h]

theorem regClear_port {s : State} {p : Nat} (hp : p < 6) :
    regClear (0x0200 + p) s = { s with intk := { s.intk with ports := modNth s.intk.ports p (fun _ => ⟨0, 0, 0, 0⟩) } } := by
  unfold regClear
  rw [if_pos (by omega), Nat.add_sub_cancel_left]

/-- A write of a register without RW fields changes nothing (00 R9). -/
theorem regWrite_of_not_selector {r : Nat} (v : Nat) (s : State) (h : isSelector r = false) : regWrite r v s = s := by
  unfold regWrite
  split
  case h_7 => rfl
  all_goals exact absurd h (by decide)

/-- Settles O58, clause by clause from the laws of the status commands, the pin edges, and register reads, clears and writes. -/
theorem pinsAndRegisters : Obligations.PinsAndRegisters := by
  refine ⟨?_, ?_, ?_, fun r s => ⟨fun h => ⟨regRead_frozen h, regRead_running h⟩, regRead_asleep⟩,
    fun s => ⟨fun p hp => regClear_port hp, rfl, rfl, rfl, rfl, rfl, rfl, rfl, rfl, rfl, rfl, rfl, rfl, rfl, rfl, rfl, rfl, rfl⟩,
    fun v s => ⟨rfl, rfl, rfl, rfl, rfl, rfl, fun r hr => regWrite_of_not_selector v s hr⟩⟩
  · rintro dt h q s _ rfl
    refine ⟨answers_of rfl fun p hp _ _ => pinStatusBody_ok _ hp, answers_of rfl fun p hp _ _ => clockStatusBody_ok _ hp, fun hq => ⟨?_, ?_⟩⟩
    · exact declines_of rfl fun p hp _ _ => pinStatusBody_refuse _ (hp ▸ hq)
    · exact declines_of rfl fun p hp _ _ => clockStatusBody_refuse _ (hp ▸ hq)
  · rintro dt p lv s _ _ _ rfl rfl rfl
    refine ⟨?_, exec_hostInEdge_ignored, ?_, ?_, ?_, ?_, exec_wakeInEdge_ignored⟩
    · intro hw hp hf
      rw [exec_hostInEdge_taken hw hp hf, acceptEdge_awake hw]
    · intro hp hf hw hl
      rw [exec_wakeInEdge_taken hp hf (not_frozen_of_awake hw), wakeEdgeEffect_inactive hl, acceptEdge_awake hw]
    · intro hp hf hw hm hl
      rw [exec_wakeInEdge_taken hp hf (not_frozen_of_awake hw), wakeEdgeEffect_awake hl hm hw, acceptEdge_awake hw]
    · intro hp hf ht hz hm hl
      rw [exec_wakeInEdge_taken hp hf hz, wakeEdgeEffect_asleep hl hm, acceptEdge_not_awake (awake_of_tb_stopped ht)]
    · intro hp hf ht hz hm
      have hw := awake_of_tb_stopped ht
      rw [exec_wakeInEdge_taken hp hf hz, wakeEdgeEffect_stopped hm hw, acceptEdge_not_awake hw]
  · rintro dt s _ rfl
    refine ⟨rfl, rfl, fun p hp => if_pos hp, fun p hp => exec_intkPortErr_absent s hp, rfl, rfl, fun p hp => if_pos hp,
      fun p hp => exec_outPortStat_absent s hp, rfl, rfl, rfl, rfl, rfl, fun r v => ⟨?_, ?_, ?_⟩⟩
    · exact fun hm => congrArg _ (regStore_asleep r v.toNat hm)
    · exact fun hm hz hr => congrArg _ (regStore_bad v.toNat hm hz hr)
    · exact fun hm h => congrArg _ (regStore_write v.toNat hm h)

end Sys2Proof.Machine
end

section
/-! SUPPORT. The timebase and the Forecast unit: TB, the TIME commands, pre-dispatch, launches (02). -/
namespace Sys2Proof.Machine

/-! ### TB (R18, R20) -/

theorem exec_pllLock_due {dt : Nat} {s : State} (h : lockDue (advance dt s) = true) :
    exec (.pllLock dt) s = .next (newBoot (advance dt s)) :=
  congrArg Host.Outcome.next (if_pos h)

/-- Settles O6: every command but the three holds TB from the advanced state on, and the lock's new boot starts from 0. -/
theorem tbOnlyCounts : Obligations.TbOnlyCounts := by
  refine ⟨fun c r s t hq hc hstep => ?_, fun dt s hdue => ⟨_, exec_pllLock_due hdue, rfl, rfl, rfl⟩⟩
  obtain ⟨u, hexec, hheld⟩ := exec_held c { s with pending := r } hc
  have hsame : t = u := Host.Outcome.next.inj (hstep.symm.trans ((step_of_pending_cons hq).trans hexec))
  rw [hsame, hheld.tb, advance_tb]

/-! ### TIME commands (R30 to R38, R50, R52) -/

section
variable {p : Packet} {s : State}

theorem timeReadBody_ok (s : State) (h : p.params = []) : timeReadBody p s = .ok (le 8 p.rx) s := if_neg (not_not_intro h)

theorem timeReadBody_refuse (s : State) (h : p.params ≠ []) : timeReadBody p s = .refuse 0x0111 [] := if_pos h

/-- The slot that a SLOT_POST record asks for, before its charge is worked out. -/
def postedSlot (p : Packet) (s : State) : Slot :=
  { newSlot s (if bit (leAt p.params 15 1) 6 then stamp s + leAt p.params 0 8 else leAt p.params 0 8) (leAt p.params 14 1)
      (leAt p.params 16 2) p.sender (leAt p.params 20 4) (leAt p.params 24 4) .host .posted with
    period := leAt p.params 8 4, count := leAt p.params 12 2, notify := bit (leAt p.params 15 1) 7 }

/-- Why R37 refuses the record of a SLOT_POST, were it the host's. -/
def postDenied (p : Packet) (s : State) : Option Nat :=
  slotDenied s (leAt p.params 14 1) (leAt p.params 16 2) (leAt p.params 20 4) (leAt p.params 24 4)

theorem slotPostBody_badFormat (h : slotFormatOk s.variant p.params = false) : slotPostBody p s = .refuse 0x0111 [] := by
  unfold slotPostBody
  simp [h]

theorem slotPostBody_denied {st : Nat} (hform : slotFormatOk s.variant p.params = true) (hhost : p.sender = 0x01)
    (hdenied : postDenied p s = some st) : slotPostBody p s = .refuse st [] := by
  unfold postDenied at hdenied
  unfold slotPostBody
  simp [hform, hhost, hdenied]

theorem slotPostBody_full (hform : slotFormatOk s.variant p.params = true) (hpass : p.sender = 0x01 → postDenied p s = none)
    (hfull : poolSize s .host ≤ poolUsed s .host) : slotPostBody p s = .refuse 0x0310 [] := by
  have hnone := ite_eq_right_iff.mpr hpass
  unfold postDenied at hnone
  unfold slotPostBody
  simp [hform, hnone, hfull]

theorem slotPostBody_ok {n : Nat} (hform : slotFormatOk s.variant p.params = true) (hpass : p.sender = 0x01 → postDenied p s = none)
    (hroom : poolUsed s .host < poolSize s .host) (hfree : Tab.free s.fc.slots 4096 = some n) :
    slotPostBody p s =
      .ok (le 2 n) (refreshPorts { s with fc := { s.fc with slots := Tab.set s.fc.slots n (withCharge s (postedSlot p s)) } }) := by
  have hnone := ite_eq_right_iff.mpr hpass
  unfold postDenied at hnone
  unfold slotPostBody postedSlot
  simp [hform, hnone, Nat.not_le.mpr hroom, hfree]

theorem slotQueryBody_absent (hlen : p.params.length = 2) (habsent : slotAt s (leAt p.params 0 2) = none) :
    slotQueryBody p s = .refuse 0x0112 [] := by
  unfold slotQueryBody
  simp [hlen, habsent]

theorem slotQueryBody_ok {sl : Slot} (hlen : p.params.length = 2) (hslot : slotAt s (leAt p.params 0 2) = some sl) :
    slotQueryBody p s = .ok (slotRecord sl) s := by
  unfold slotQueryBody
  simp [hlen, hslot]

/-- R38: the sender is the slot's owner or a control core. -/
def mayCancel (sender : Nat) (sl : Slot) : Prop := sl.owner = sender ∨ (0x10 ≤ sender ∧ sender ≤ 0x13)

theorem slotCancelBody_absent (hlen : p.params.length = 2) (habsent : slotAt s (leAt p.params 0 2) = none) :
    slotCancelBody p s = .refuse 0x0112 [] := by
  unfold slotCancelBody
  simp [hlen, habsent]

/-- A live slot is cancelled by those of R38, and only before its hand-over. -/
theorem slotCancelBody_live {sl : Slot} (hlen : p.params.length = 2) (hslot : slotAt s (leAt p.params 0 2) = some sl) :
    (¬ mayCancel p.sender sl → slotCancelBody p s = .refuse 0x0503 []) ∧
    (mayCancel p.sender sl → handedOver s sl = false → slotCancelBody p s = .ok [] (refreshPorts (freeSlot (leAt p.params 0 2) s))) ∧
    (mayCancel p.sender sl → handedOver s sl = true →
      slotCancelBody p s = .refuseWith 0x0402 [] (modSlot (leAt p.params 0 2) (fun x => { x with last := true }) s)) := by
  have hbody : slotCancelBody p s = if sl.owner ≠ p.sender ∧ ¬ (0x10 ≤ p.sender ∧ p.sender ≤ 0x13) then .refuse 0x0503 []
      else if handedOver s sl then .refuseWith 0x0402 [] (modSlot (leAt p.params 0 2) (fun x => { x with last := true }) s)
      else .ok [] (refreshPorts (freeSlot (leAt p.params 0 2) s)) := by
    unfold slotCancelBody
    simp [hlen, hslot]
  have hguard : (sl.owner ≠ p.sender ∧ ¬ (0x10 ≤ p.sender ∧ p.sender ≤ 0x13)) ↔ ¬ mayCancel p.sender sl := not_or.symm
  rw [hbody]
  refine ⟨fun h => if_pos (hguard.mpr h), fun h hb => ?_, fun h hb => ?_⟩ <;>
    rw [if_neg (fun k => hguard.mp k h), hb] <;> rfl

end

/-- Settles O15: each answer is the body's, and what it leaves at the slot's number is what freeing and marking leave there. -/
theorem ownerCancels : Obligations.OwnerCancels := by
  rintro dt h ps s _ rfl hlen
  refine ⟨fun habsent => declines_of rfl ?_, fun sl hslot => ⟨fun hown hcore => declines_of rfl ?_, fun hmay => ⟨fun hb => ⟨answers_of rfl ?_, ?_⟩,
    fun hb => ⟨declinesWith_of rfl ?_, ?_⟩⟩⟩⟩
  · rintro p rfl _ _
    exact slotCancelBody_absent hlen habsent
  · rintro p rfl hp _
    exact (slotCancelBody_live hlen hslot).1 (hp ▸ not_or.mpr ⟨hown, hcore⟩)
  · rintro p rfl hp _
    exact (slotCancelBody_live hlen hslot).2.1 (hp ▸ hmay) hb
  · rw [refreshPorts_slotAt, freeSlot_slotAt]
  · rintro p rfl hp _
    exact (slotCancelBody_live hlen hslot).2.2 (hp ▸ hmay) hb
  · rw [modSlot_slotAt, hslot]
    rfl

/-- Settles O14, clause by clause from what the bodies of TIME_READ, SLOT_POST and SLOT_QUERY answer. -/
theorem timeCommandsAnswer : Obligations.TimeCommandsAnswer := by
  refine ⟨?_, ?_, ?_, ?_, ?_, ?_, ?_, ?_⟩
  · rintro dt h s _ rfl
    exact answers_of rfl fun p hp _ hrx => hrx ▸ timeReadBody_ok _ hp
  · rintro dt h ps s _ rfl hps
    exact declines_of rfl fun p hp _ _ => timeReadBody_refuse _ (hp ▸ hps)
  · rintro dt n h ps s _ rfl hform hpass hroom hfree _ rfl
    refine answers_of rfl ?_
    rintro p rfl hp _
    have hok := slotPostBody_ok hform (fun k : _ = 0x01 => hpass (hp.symm.trans k)) hroom hfree
    unfold postedSlot at hok
    rwa [hp] at hok
  · rintro dt h ps s _ rfl hform
    refine declines_of rfl ?_
    rintro p rfl _ _
    exact slotPostBody_badFormat hform
  · rintro dt st h ps s _ rfl hform hhost hdenied
    refine declines_of rfl ?_
    rintro p rfl hp _
    exact slotPostBody_denied hform (hp.trans (congrArg BitVec.toNat hhost)) hdenied
  · rintro dt h ps s _ rfl hform hother hfull
    refine declines_of rfl ?_
    rintro p rfl hp _
    exact slotPostBody_full hform (fun k => absurd (BitVec.eq_of_toNat_eq (y := 0x01) (hp.symm.trans k)) hother) hfull
  · rintro dt h ps s _ sl rfl hlen hslot
    refine answers_of rfl ?_
    rintro p rfl _ _
    exact slotQueryBody_ok hlen hslot
  · rintro dt h ps s _ rfl hlen habsent
    refine declines_of rfl ?_
    rintro p rfl _ _
    exact slotQueryBody_absent hlen habsent

/-! ### Lateness (R40, R42) -/

section
variable {sl : Slot}

theorem Slot.launchAt_short (h : sl.now < sl.admitted + 256) : sl.launchAt = sl.admitted + 256 := if_pos h

theorem Slot.isLate_short (h : sl.now < sl.admitted + 256) (t : Nat) : sl.isLate t = true := by
  unfold Slot.isLate
  simp [h]

end

@[simp] theorem countLate_lateLaunches (s : State) : (countLate s).fc.lateLaunches = inc32 s.fc.lateLaunches 1 := rfl
@[simp] theorem freeSlot_lateLaunches (n : Nat) (s : State) : (freeSlot n s).fc.lateLaunches = s.fc.lateLaunches := rfl
@[simp] theorem modSlot_lateLaunches (n : Nat) (f : Slot → Slot) (s : State) : (modSlot n f s).fc.lateLaunches = s.fc.lateLaunches := rfl

/-- A message counts no launch. -/
@[simp] theorem post_lateLaunches (c d : Nat) (w : Bool) (b : Bytes) (s : State) : (post c d w b s).fc.lateLaunches = s.fc.lateLaunches :=
  have hplain : (plainFc (post c d w b s)).lateLaunches = (plainFc s).lateLaunches := by rw [post_plainFc]
  hplain

/-- The end of a launch counts one late launch where the launch is late, and none else. -/
theorem finishAt_lateLaunches (t e n : Nat) (sl : Slot) (timeout won : Bool) (arrival : Nat) (s : State) :
    (finishAt t e n sl timeout won arrival s).fc.lateLaunches =
      if sl.isLate t then inc32 s.fc.lateLaunches 1 else s.fc.lateLaunches := by
  unfold finishAt
  simp [apply_ite (fun u : State => u.fc.lateLaunches)]

/-! ### Launches (R35, R36, R39) -/

/-- Before its launch time an action only lets time pass. -/
theorem launch_early {a : State} {n : Nat} {sl : Slot} (hslot : slotAt a n = some sl) (hearly : a.clk.tb < sl.launchAt) (cls : Nat)
    (f : Slot → State → State) : launch cls n f a = a := by
  have hnone : launchable a cls n = none := by
    unfold launchable
    simp [hslot, Nat.not_le.mpr hearly]
  unfold launch
  rw [hnone]

section
variable {dt n : Nat} {s a : State} {sl : Slot}

theorem exec_pinSet_due (h : Due (advance dt s) 0x03 n sl) :
    exec (.pinSet dt n) s = .next (finishLaunch n sl false false 0 (drive sl.index (bit sl.arg0 0) (advance dt s))) :=
  congrArg Host.Outcome.next (launch_due h _)

theorem exec_doorbell_due (h : Due (advance dt s) 0x09 n sl) (hallowed : allowed (advance dt s) sl.index sl.owner = true) :
    exec (.doorbell dt n) s = .next (finishLaunch n sl false false 0 (ringAndWake sl.index sl.arg0 (advance dt s))) := by
  show execDoorbell dt n s = _
  unfold execDoorbell
  simp [launch_due h, hallowed]

theorem exec_quietPoint_due {q : Quiet} (h : Due (advance dt s) 0x0A n sl) (hquiet : (advance dt s).cmd.quiet = some q) :
    exec (.quietPoint dt n) s = .next (finishLaunch n sl false false 0 (cmdEvent 2 0xFF 0 sl.arg0 0 0
      { advance dt s with cmd := { (advance dt s).cmd with quiet := some { q with state := 2, openedAt := (advance dt s).clk.tb } } })) := by
  show execQuietPoint dt n s = _
  unfold execQuietPoint
  simp [launch_due h, hquiet]

/-- A posted WAKE of a compute die that is off or dozes starts its wake. -/
theorem exec_wake_due (h : Due (advance dt s) 0x07 n sl) (hdie : sl.index < 0x10) (huse : sl.use = .posted)
    (hdown : stackAt (advance dt s) (sl.index - 1) = .doze ∨ stackAt (advance dt s) (sl.index - 1) = .off) :
    exec (.wake dt n) s =
      .next (finishLaunch n sl false false 0 (setStack (sl.index - 1) .waking (recordWake 3 0x03 sl.index (advance dt s)))) := by
  show execWake dt n s = _
  unfold execWake
  rcases hdown with hdown | hdown <;> simp [launch_due h, huse, Nat.not_le.mpr hdie, hdown]

theorem exec_outRelease_due (h : Due (advance dt s) 0x05 n sl)
    (hack : ∀ r, recordNo (advance dt s) sl.arg0 = some r → ackFree (advance dt s) r = true) :
    exec (.outRelease dt n) s =
      .next (sweepSheets (refreshHigh (pumpReleases (finishLaunch n sl false false 0 (releaseRecord n sl (advance dt s)))))) := by
  show execOutRelease dt n s = _
  unfold execOutRelease
  simp only [h.slot, launch_due h]
  cases hrec : recordNo (advance dt s) sl.arg0 with
  | none => rfl
  | some r => simp [hack r hrec]

theorem exec_stepStart_due (h : Due (advance dt s) 0x04 n sl) (hawake : asleepStacks (advance dt s) sl.index = []) :
    exec (.stepStart dt n) s = .next (finishLaunch n sl false false 0 (startStep sl (advance dt s))) := by
  show execStepStart dt n s = _
  unfold execStepStart
  simp [launchable_due h, hawake, launch_due h]

end

/-- Settles O16: a due slot launches, and where its class looks at more than the slot, that is as the clause supposes. -/
theorem launchesAct : Obligations.LaunchesAct := by
  refine ⟨?_, ?_, ?_, ?_, ?_, ?_, ?_, ?_, ?_, ?_, ?_⟩
  case refine_5 => rintro dt n s _ sl rfl h hallowed; exact exec_doorbell_due h hallowed
  case refine_6 => rintro dt n s _ sl q rfl h hquiet; exact exec_quietPoint_due h hquiet
  case refine_9 => rintro dt n s _ sl rfl h hdie huse hdown; exact exec_wake_due h hdie huse hdown
  case refine_10 => rintro dt n s _ sl rfl h hack; exact exec_outRelease_due h hack
  case refine_11 => rintro dt n s _ sl rfl h hawake; exact exec_stepStart_due h hawake
  all_goals
    rintro dt n s _ sl rfl h
    exact congrArg Host.Outcome.next (launch_due h _)

/-- Settles O19: such an occurrence is due at its admission + 256 ns and late whenever it launches; PIN_SET is one of the launches. -/
theorem shortDueIsLate : Obligations.ShortDueIsLate := by
  refine ⟨fun sl h => ⟨Slot.launchAt_short h, Slot.isLate_short h⟩, ?_, ?_, ?_⟩
  · intro t e n sl timeout won arrival s h
    rw [finishAt_lateLaunches, if_pos (Slot.isLate_short h t)]
  · intro s cls ix owner a0 a1 p u
    refine ⟨fun d hd => ?_, fun d hd => ?_, fun d => rfl⟩ <;> simp only [Slot.now, newSlot] <;> omega
  · rintro dt n sl s _ rfl hslot hvalid hawake hstate hcls hshort
    have hat := Slot.launchAt_short hshort
    exact ⟨fun htb => exec_pinSet_due ⟨hslot, hvalid, hawake, hstate, hcls, hat.trans_le htb⟩,
      fun htb => congrArg Host.Outcome.next (launch_early hslot (htb.trans_eq hat.symm) _ _)⟩

/-! ### Pre-dispatch and waits (R39, R45; 14 R448, R463) -/

/-- A class whose actions carry no ledger charge: not STEP_START, OUT_RELEASE or WAKE. -/
def Slot.Uncharged (sl : Slot) : Prop := sl.cls ≠ 0x04 ∧ sl.cls ≠ 0x05 ∧ sl.cls ≠ 0x07

theorem withCharge_uncharged {sl : Slot} (h : sl.Uncharged) (s : State) : withCharge s sl = { sl with charge := 0, rail := 0 } := by
  obtain ⟨hstep, hrelease, hwake⟩ := h
  unfold withCharge slotCharge
  simp

theorem tryAdmit_uncharged {n : Nat} {s : State} {sl : Slot} (hslot : slotAt s n = some sl) (h : sl.Uncharged) :
    tryAdmit n s = handOver n s := by
  obtain ⟨hstep, hrelease, hwake⟩ := h
  unfold tryAdmit
  simp [hslot]

theorem countWait_of_not_waiting {n : Nat} {s : State} {sl : Slot} (hslot : slotAt s n = some sl) (h : sl.state ≠ 3) :
    countWait n s = s := by
  unfold countWait
  simp [hslot, h]

/-- An offer of an uncharged action notes the offer and hands the action over. -/
theorem offer_uncharged {n : Nat} {s : State} {sl : Slot} (hslot : slotAt s n = some sl) (h : sl.Uncharged) :
    offer n s = handOver n (modSlot n (fun x => { withCharge s x with asked := s.clk.tb, crowded := isCrowded s n x }) s) := by
  have hasked : slotAt (modSlot n (fun x => { withCharge s x with asked := s.clk.tb, crowded := isCrowded s n x }) s) n
      = some { withCharge s sl with asked := s.clk.tb, crowded := isCrowded s n sl } := by rw [modSlot_slotAt, hslot]; rfl
  have hhanded := modSlot_slotAt n (fun x => { x with state := 2, waitRail := 0, handed := s.clk.tb })
    (modSlot n (fun x => { withCharge s x with asked := s.clk.tb, crowded := isCrowded s n x }) s)
  rw [hasked] at hhanded
  unfold offer
  exact (congrArg (countWait n) (tryAdmit_uncharged hasked h)).trans (countWait_of_not_waiting hhanded (by simp))

/-- Apart from a STEP_START, whose batches close first, pre-dispatch is the offer. -/
theorem exec_preDispatch_plain {dt n : Nat} {s : State} {sl : Slot} (hcan : canPreDispatch (advance dt s) n = true)
    (hslot : slotAt (advance dt s) n = some sl) (huse : ∀ j k, sl.use ≠ .stepStart j k) :
    exec (.preDispatch dt n) s = .next (offer n (advance dt s)) := by
  show execPreDispatch dt n s = _
  unfold execPreDispatch
  simp only [hcan, hslot, if_true, Option.map_some]
  split
  · rename_i j k hjk
    exact absurd (Option.some.inj hjk) (huse j k)
  · rfl

section
variable {dt n : Nat} {s : State} {sl : Slot}

/-- A waiting STEP_START past its DOWNSHIFT_WAIT is offered at the slower point that there is. -/
theorem exec_downshift_due (hslot : slotAt (advance dt s) n = some sl) (hawake : awake (advance dt s) = true) (hstate : sl.state = 3)
    (hrail : sl.waitRail = 1) (hcls : sl.cls = 0x04) (hwait : par (advance dt s) 0x0B000008 ≠ 0)
    (hdue : sl.asked + par (advance dt s) 0x0B000008 ≤ (advance dt s).clk.tb) :
    exec (.downshift dt n) s = .next ((downshiftPoint (advance dt s) (uncharged (advance dt s) sl.index)).elim (advance dt s)
      (fun k => takeClusters n sl (fun _ => k) (advance dt s))) := by
  show execDownshift dt n s = _
  unfold execDownshift
  simp only [hslot, hawake, hstate, hrail, hcls, hdue, bne_iff_ne.mpr hwait, beq_self_eq_true, decide_true, Bool.and_self, if_true]
  cases downshiftPoint (advance dt s) (uncharged (advance dt s) sl.index) <;> rfl

theorem exec_ledgerWaitReport_due (hslot : slotAt (advance dt s) n = some sl) (hawake : awake (advance dt s) = true) (hstate : sl.state = 3)
    (hnew : sl.reported = false) (hlong : sl.asked + 1000000 < (advance dt s).clk.tb) :
    exec (.ledgerWaitReport dt n) s =
      .next (pwrEvent 4 sl.waitRail n [] (modSlot n (fun x => { x with reported := true }) (advance dt s))) := by
  show execLedgerWaitReport dt n s = _
  unfold execLedgerWaitReport
  simp [hslot, hawake, hstate, hnew, hlong]

end

/-- Settles O21: the uncharged offer writes one slot twice; the downshift and the report are their rows' one effect. -/
theorem preDispatchAndWaits : Obligations.PreDispatchAndWaits := by
  refine ⟨?_, ?_, ?_⟩
  · rintro dt n s _ sl rfl hcan hslot hcls huse
    have hfree : sl.Uncharged := by
      refine ⟨?_, ?_, ?_⟩ <;> intro h <;> rw [h] at hcls <;> exact absurd hcls (by decide)
    refine ⟨_, (exec_preDispatch_plain hcan hslot huse).trans (congrArg _ (offer_uncharged hslot hfree)), ?_, fun m hm => ?_, rfl⟩
    · unfold handOver
      rw [modSlot_slotAt, modSlot_slotAt, hslot]
      simp only [Option.map_some, withCharge_uncharged hfree]
      rfl
    · unfold handOver
      rw [modSlot_slotAt_other hm, modSlot_slotAt_other hm]
  · rintro dt n s _ sl rfl hslot hawake hstate hrail hcls hwait hdue
    have hexec := exec_downshift_due hslot hawake hstate hrail hcls hwait hdue
    refine ⟨fun k hk => ?_, fun hk => ?_⟩ <;> rw [hexec, hk] <;> rfl
  · rintro dt n s _ sl rfl hslot hawake hstate hnew hlong
    exact exec_ledgerWaitReport_due hslot hawake hstate hnew hlong

end Sys2Proof.Machine
end

section
/-! SUPPORT. Power events: the wake from Sleep, Doze, the ledger's expiries, ageing samples, temperature, brown-out, recovery (02 R26, R51; 14; 15 R473). -/
namespace Sys2Proof.Machine

/-! ### The thaw (02 R26; 14 R446) -/

/-- The standing charges leave whatever a charge leaves. -/
theorem standingCharges_keep {β : Type} (g : State → β) (hg : ∀ r u h s, g (hold r u h s) = g s) (s : State) :
    g (standingCharges s) = g s := by
  unfold standingCharges
  rw [foldl_keep _ g (fun s x => by rw [hg, hg]), hg, hg, foldl_keep _ g (fun s d => hg _ _ _ _), foldl_keep _ g (fun s k => hg _ _ _ _)]

theorem standingCharges_clk (s : State) : (standingCharges s).clk = s.clk := standingCharges_keep State.clk hold_clk s

theorem standingCharges_cmd (s : State) : (standingCharges s).cmd = s.cmd := standingCharges_keep State.cmd hold_cmd s

theorem standingCharges_mode (s : State) : (standingCharges s).pwr.mode = s.pwr.mode :=
  standingCharges_keep (fun t => t.pwr.mode) (fun r u h s => by unfold hold; split <;> rfl) s

theorem standingCharges_wakeCause (s : State) : (standingCharges s).pwr.wakeCause = s.pwr.wakeCause :=
  standingCharges_keep (fun t => t.pwr.wakeCause) (fun r u h s => by unfold hold; split <;> rfl) s

section
variable (c n : Nat) (s : State)

theorem thaw_tb : (thaw c n s).clk.tb = restoredTb s n := by unfold thaw; rw [standingCharges_clk]

theorem thaw_tbRun : (thaw c n s).clk.tbRun = true := by unfold thaw; rw [standingCharges_clk]

theorem thaw_mode : (thaw c n s).pwr.mode = .running := by unfold thaw; rw [standingCharges_mode]

theorem thaw_inForce : (thaw c n s).cmd.inForce = s.cmd.posted := by unfold thaw; rw [standingCharges_cmd]

theorem thaw_wakeCause : (thaw c n s).pwr.wakeCause = c := by unfold thaw; rw [standingCharges_wakeCause]; rfl

end

/-! ### Wakes from Sleep (02 R51; 14 R441) -/

section
variable {dt n c : Nat} {s : State}

theorem exec_wakeComparator_reached (hsleep : (advance dt s).pwr.mode = .sleep) (hcmp : (advance dt s).clk.comparator = some c)
    (hfirst : (advance dt s).pwr.waking = none) (hn : c ≤ n) :
    exec (.wakeComparator dt n) s = .next { advance dt s with pwr := { (advance dt s).pwr with waking := some 0x02 } } := by
  show execWakeComparator dt n s = _
  unfold execWakeComparator wakeCauseIn
  simp [hsleep, hcmp, hfirst, hn]

theorem exec_wakeComparator_before (hcmp : (advance dt s).clk.comparator = some c) (hn : n < c) :
    exec (.wakeComparator dt n) s = .next (advance dt s) := by
  show execWakeComparator dt n s = _
  unfold execWakeComparator
  simp [hcmp, Nat.not_le.mpr hn]

/-- A wake thaws an intact save list of the format that firmware knows, and asks for a boot where it has none. -/
theorem exec_wakeFromSleep_saved {l : SaveList} (hsleep : (advance dt s).pwr.mode = .sleep) (hwaking : (advance dt s).pwr.waking = some c)
    (hsaved : (advance dt s).pwr.saved = some l) :
    exec (.wakeFromSleep dt n) s = .next (if l.format = 1 ∧ l.intact = true then thaw c n (advance dt s)
      else askBoot (recordWake 4 0x0F 0x7F (advance dt s))) := by
  show execWakeFromSleep dt n s = _
  unfold execWakeFromSleep
  simp [hsleep, hwaking, hsaved]

theorem exec_wakeFromSleep_unasked (hwaking : (advance dt s).pwr.waking = none) :
    exec (.wakeFromSleep dt n) s = .next (advance dt s) := by
  show execWakeFromSleep dt n s = _
  unfold execWakeFromSleep
  simp [hwaking]

/-- What a part that is ready after a wake of cause `c` tells: its wake, and its state where the mask has that event. -/
def wakeTold (c : Nat) (s : State) : State :=
  let t := post (par s 0x0B00000C) 0x10 true (pwrBody 2 c 0 0 (s.clk.tbCap + s.clk.lastSleepTb) []) s
  if bit (par t 0x0B00000D) 1 then
    post (par t 0x0B00000C) 0x10 true (pwrBody 1 (deviceState t) 0 0 (s.clk.tbCap + s.clk.lastSleepTb) []) t
  else t

theorem told_wakeTold (c : Nat) (s : State) : Told s (wakeTold c s) := by
  unfold wakeTold
  simp only
  split
  · exact (told_post _ _ _ _ _).trans (told_post _ _ _ _ _)
  · exact told_post _ _ _ _ _

theorem exec_deviceReady_woken (hrun : (advance dt s).pwr.mode = .running) (hwaking : (advance dt s).pwr.waking = some c) :
    exec (.deviceReady dt) s = .next (funcPins (raiseIbi 0x05 0 0 (wakeTold c { advance dt s with
      clk := { (advance dt s).clk with tbValid := true }, pwr := { (advance dt s).pwr with waking := none } }))) := by
  show execDeviceReady dt s = _
  unfold execDeviceReady wakeTold
  simp only [hrun, hwaking]

end

/-! ### Changes of the device state (14 R463) -/

theorem told_withMode (f : State → State) (s : State) : Told (f s) (withMode f s) := by
  unfold withMode
  simp only
  split
  · exact .refl _
  · exact told_pwrEvent _ _ _ _ _

theorem withMode_same {f : State → State} {s : State} (h : deviceState (f s) = deviceState s) : withMode f s = f s := if_pos h

/-! ### Doze (14 R434, R435) -/

section
variable {dt k : Nat} {s : State}

theorem exec_dozeEntry_awake (hawake : awake (advance dt s) = true) (hstack : stackAt (advance dt s) k = .awake) :
    exec (.dozeEntry dt k) s =
      .next (if mayDoze (advance dt s) k then setStack k (.entering (advance dt s).clk.tb) (advance dt s) else advance dt s) := by
  show execDozeEntry dt k s = _
  unfold execDozeEntry
  simp [hawake, hstack]

theorem exec_dozeEntry_entering {t : Nat} (hawake : awake (advance dt s) = true) (hstack : stackAt (advance dt s) k = .entering t) :
    exec (.dozeEntry dt k) s = .next (withMode retryWaiting (withMode (dozeStack k) (advance dt s))) := by
  show execDozeEntry dt k s = _
  unfold execDozeEntry
  simp [hawake, hstack]

theorem exec_domainReady (hawake : awake (advance dt s) = true) : exec (.domainReady dt k) s = .next (runHeld (domainReady k (advance dt s))) :=
  congrArg Host.Outcome.next (if_pos hawake)

/-- Domain 0x11 + k is the base-die SRAM of stack k. -/
theorem domainReady_sram (h : k < s.variant.stackDies) :
    domainReady (0x11 + k) s = { s with pwr := { s.pwr with sramWaking := setNth s.pwr.sramWaking k false } } := by
  unfold domainReady
  rw [if_pos ⟨Nat.le_add_right _ _, Nat.add_lt_add_left h _⟩, Nat.add_sub_cancel_left]

/-- Domain k is the compute die of stack k - 1, ready once the shares of its wake have been granted. -/
theorem domainReady_die (hpos : 1 ≤ k) (hle : k ≤ s.variant.stackDies) (hdie : k < 0x11) (hstack : stackAt s (k - 1) = .waking)
    (hshares : ∀ x ∈ s.pwr.shares, x.holder ≠ .dieWake (k - 1)) :
    domainReady k s = withMode retryWaiting (withMode (dieReady (k - 1)) s) := by
  have hgranted : s.pwr.shares.any (fun x => x.holder == .dieWake (k - 1)) = false := by simpa using hshares
  unfold domainReady
  rw [if_neg (fun h => Nat.not_le.mpr hdie h.1), if_pos ⟨hpos, hle⟩]
  simp [hstack, hgranted]

end

/-! ### Cluster charges and budgets (14 R444, R450, R451) -/

section
variable {dt k : Nat} {s : State}

theorem exec_clusterHoldExpiry_idle (hawake : awake (advance dt s) = true) (hheld : clusterHeld (advance dt s) k = true)
    (hidle : clusterBusy (advance dt s) k = false)
    (hdue : nth (advance dt s).pwr.lastDone k 0 + par (advance dt s) 0x0B000005 ≤ (advance dt s).clk.tb) :
    exec (.clusterHoldExpiry dt k) s = .next (withMode retryWaiting (withMode (returnCluster k) (advance dt s))) :=
  congrArg Host.Outcome.next (if_pos (by simp [hawake, hheld, hidle, hdue]))

theorem exec_clusterHoldExpiry_busy (hbusy : clusterBusy (advance dt s) k = true) :
    exec (.clusterHoldExpiry dt k) s = .next (advance dt s) :=
  congrArg Host.Outcome.next (if_neg (by simp [hbusy]))

theorem exec_reverseBias_idle (hawake : awake (advance dt s) = true) (hk : k < (advance dt s).variant.clusters)
    (hfree : clusterHeld (advance dt s) k = false) (hstack : stackAt (advance dt s) (stackOf k) = .awake)
    (hdue : nth (advance dt s).pwr.lastHeld k 0 + 20000 ≤ (advance dt s).clk.tb) :
    exec (.reverseBias dt k) s = .next { advance dt s with pwr := { (advance dt s).pwr with
      reverseBias := setNth (advance dt s).pwr.reverseBias k true } } :=
  congrArg Host.Outcome.next (if_pos (by simp [hawake, hk, hfree, hstack, hdue]))

theorem exec_reverseBias_held (hheld : clusterHeld (advance dt s) k = true) : exec (.reverseBias dt k) s = .next (advance dt s) :=
  congrArg Host.Outcome.next (if_neg (by simp [hheld]))

theorem exec_budgetChange {t : Nat} (hawake : awake (advance dt s) = true) (hposted : (advance dt s).pwr.budgetDue = some t) :
    exec (.budgetChange dt) s = .next (if t + 10000 ≤ (advance dt s).clk.tb then
      withMode retryWaiting (returnIdle (fun s _ => overBudget s) true descending
        { advance dt s with pwr := { (advance dt s).pwr with budgets := postedBudgets (advance dt s), budgetDue := none } })
      else advance dt s) := by
  show execBudgetChange dt s = _
  unfold execBudgetChange
  simp [hawake, hposted]

end

/-! ### Samples (14 R447, R457) -/

section
variable {dt k x : Nat} {l : List Nat} {s : State}

theorem exec_coreSenseSample (hawake : awake (advance dt s) = true) : exec (.coreSenseSample dt x) s =
    .next { advance dt s with pwr := { (advance dt s).pwr with setPoint := Nat.max 750 (10 * ceilDiv x 10000) } } :=
  congrArg Host.Outcome.next (if_pos hawake)

theorem exec_pathMonitorSample {pt : Nat} (hawake : awake (advance dt s) = true) (hpt : nth (advance dt s).pwr.points k none = some pt) :
    exec (.pathMonitorSample dt k x) s = .next { advance dt s with pwr := { (advance dt s).pwr with
      ages := modNth (advance dt s).pwr.ages k (fun b => { b with slack := modNth b.slack pt (fun y => Nat.min y (sat 0xFFFE x)) }) } } := by
  show execPathMonitorSample dt k x s = _
  unfold execPathMonitorSample
  simp [hawake, hpt]

/-- The eight oscillators' shifts of a cluster, sorted. -/
def sortedDeltas (k : Nat) (l : List Nat) : List Int :=
  sortBy (fun d : Int => (d + 2 ^ 40).toNat) ((List.range 8).map (fun i => Config.oscDelta k i (nth l i 0)))

theorem exec_ringOscillatorCount (hawake : awake (advance dt s) = true) (hpt : nth (advance dt s).pwr.points k none = some 0)
    (hlen : l.length = 8) :
    exec (.ringOscillatorCount dt k l) s = .next { advance dt s with pwr := { (advance dt s).pwr with
      ages := modNth (advance dt s).pwr.ages k (fun b => { b with
        counted := some ((nth (sortedDeltas k l) 3 0 + nth (sortedDeltas k l) 4 0) / 2) }) } } :=
  congrArg Host.Outcome.next (if_pos (by simp [hawake, hpt, hlen]))

end

/-! ### Temperature (14 R454; 17 R554) -/

section
variable {s : State} {t : Int}

theorem capFor_cool (h : t < (par s 0x0B00000A : Nat)) : capFor s t = 0 := if_pos h

theorem capFor_le (s : State) (t : Int) : capFor s t ≤ 6 := by
  unfold capFor
  simp only
  split
  · exact Nat.zero_le _
  · exact Nat.min_le_left _ _

theorem newCap_rise (h : s.pwr.thermalCap < capFor s t) : newCap s t = (capFor s t, t) := if_pos h

/-- A reading below the threshold calls for no cap where there is none. -/
theorem newCap_cool (h : t < (par s 0x0B00000A : Nat)) (hfree : s.pwr.thermalCap = 0) : (newCap s t).1 = 0 := by
  unfold newCap
  simp [capFor_cool h, hfree]

end

/-- The state with the readings of a thermal sample. -/
def sampled (l : List Int) (s : State) : State :=
  { s with pwr := { s.pwr with temps := l, tjMax := hottest ((sensorList s).map (fun i => nth l i 0)) } }

/-- The state with the cap that a hottest reading of `t` leaves. -/
def capped (t : Int) (s : State) : State :=
  { s with pwr := { s.pwr with thermalCap := (newCap s t).1, capTemp := (newCap s t).2 } }

theorem par_capped (t : Int) (s : State) (id : Nat) : par (capped t s) id = par s id :=
  par_of (s := s) (t := capped t s) rfl rfl rfl (fun _ => rfl) id

/-- The cluster runs at a faster point than the thermal cap allows. -/
def aboveCap (s : State) (k : Nat) : Bool :=
  match nth s.pwr.points k none with
  | some p => decide (p < s.pwr.thermalCap)
  | none => false

/-- What follows a sample that trips nothing, noted in `s`, with a hottest cluster of `t`: the cap, its event, and the return of idle
charges above it. -/
def coolDown (t : Int) (s : State) : State :=
  let u := if (newCap s t).1 != s.pwr.thermalCap then pwrEvent 6 (newCap s t).1 (twos 32 t) [] (capped t s) else capped t s
  if par u 0x0B00000A + 10 ≤ t then withMode retryWaiting (returnIdle aboveCap false descending u) else u

/-- Below the threshold + 10 °C a sample that leaves the cap where it is does nothing more. -/
theorem coolDown_steady {t : Int} {s : State} (hcool : t < par s 0x0B00000A + 10) (hkeep : (newCap s t).1 = s.pwr.thermalCap) :
    coolDown t s = capped t s := by
  unfold coolDown
  simp [hkeep, par_capped, Int.not_le.mpr hcool]

/-- The first sensor at 120 °C or more in this sample and in the one before. -/
def tripped (l : List Int) (s : State) : Option Nat :=
  (sensorList s).find? (fun i => decide (120 ≤ nth l i 0) && decide (120 ≤ nth s.pwr.temps i 0))

section
variable {dt : Nat} {l : List Int} {s : State}

theorem exec_thermalSample_trip {i : Nat} (hawake : awake (advance dt s) = true) (htrip : tripped l (advance dt s) = some i) :
    exec (.thermalSample dt l) s = .next (freezeNow true (logFault 0x07E0 5 2 i 0 0 0 (sampled l (advance dt s)))) := by
  unfold tripped at htrip
  show execThermalSample dt l s = _
  unfold execThermalSample sampled
  simp [hawake, htrip]

theorem exec_thermalSample_fine (hawake : awake (advance dt s) = true) (hfine : tripped l (advance dt s) = none) :
    exec (.thermalSample dt l) s = .next (coolDown
      (hottest ((List.range (advance dt s).variant.clusters).map (fun i => nth l i 0))) (sampled l (advance dt s))) := by
  unfold tripped at hfine
  show execThermalSample dt l s = _
  unfold execThermalSample
  simp only [hawake, hfine]
  rfl

end

/-- Settles O52, clause by clause from the laws of the power rows above. -/
theorem powerEvents : Obligations.PowerEvents := by
  refine ⟨?_, ?_, ?_, ?_, ?_, ?_, ?_, ?_, ?_, ?_, ?_, ?_⟩
  · rintro dt n c s _ rfl hsleep
    refine ⟨exec_wakeComparator_reached hsleep, exec_wakeComparator_before, fun l hwaking hsaved hformat hintact => ?_,
      fun l hwaking hsaved hbroken => ?_, exec_wakeFromSleep_unasked⟩
    · rw [exec_wakeFromSleep_saved hsleep hwaking hsaved, if_pos ⟨hformat, hintact⟩]
    · rw [exec_wakeFromSleep_saved hsleep hwaking hsaved, if_neg (by simp [hbroken])]
  · exact fun c n s => ⟨thaw_tb c n s, thaw_tbRun c n s, thaw_mode c n s, thaw_inForce c n s, thaw_wakeCause c n s⟩
  · rintro dt c s _ _ rfl hrun hwaking rfl
    exact ⟨_, told_wakeTold c _, exec_deviceReady_woken hrun hwaking⟩
  · exact fun f s => ⟨told_withMode f s, withMode_same⟩
  · rintro dt k s _ rfl hawake
    refine ⟨fun hstack hmay => ?_, fun hstack hmay => ?_, fun t => exec_dozeEntry_entering hawake,
      fun hpos hle hdie hstack hshares => ?_, fun hk => ?_⟩
    · rw [exec_dozeEntry_awake hawake hstack, hmay, if_pos rfl]
    · rw [exec_dozeEntry_awake hawake hstack, hmay, if_neg Bool.false_ne_true]
    · rw [exec_domainReady hawake, domainReady_die hpos hle hdie hstack hshares]
    · rw [exec_domainReady hawake, domainReady_sram hk]
  · rintro dt k s _ rfl hawake
    exact ⟨exec_clusterHoldExpiry_idle hawake, exec_clusterHoldExpiry_busy, exec_reverseBias_idle hawake, exec_reverseBias_held⟩
  · rintro dt t s _ _ rfl hawake hposted rfl
    refine ⟨fun hdue => ?_, fun hearly => ?_⟩
    · rw [exec_budgetChange hawake hposted, if_pos hdue]
    · rw [exec_budgetChange hawake hposted, if_neg (Nat.not_le.mpr hearly)]
  · rintro dt k x l d f s _ rfl hawake
    refine ⟨exec_coreSenseSample hawake, ?_, ?_⟩
    · rintro pt hpt rfl
      exact exec_pathMonitorSample hawake hpt
    · rintro hpt hlen rfl
      exact exec_ringOscillatorCount hawake hpt hlen
  · rintro dt l s _ _ rfl hawake rfl
    refine ⟨fun i => exec_thermalSample_trip hawake, ?_⟩
    rintro t c hfine rfl rfl hcool hkeep
    exact (exec_thermalSample_fine hawake hfine).trans (congrArg Host.Outcome.next (coolDown_steady hcool hkeep))
  · exact fun s t => ⟨newCap_cool, newCap_rise, capFor_le s t⟩
  · rintro dt rail s _ _ _ rfl hawake hlo hhi rfl rfl
    exact congrArg Host.Outcome.next (if_pos (by simp [hawake, hlo, hhi]))
  · rintro dt r s _ _ _ rfl hawake hrec haction rfl rfl
    show execRecoveryResume dt s = _
    unfold execRecoveryResume
    simp [hawake, hrec, haction]

end Sys2Proof.Machine
end

section
/-! SUPPORT. Events of a stream: a missing line, a tachometer edge, the start, discovery (02 R36; 03 R64, R70, R83; 16 R514). -/
namespace Sys2Proof.Machine

section
variable {dt k : Nat} {s : State}

/-- The row of a missing line acts exactly past 1.5 line periods, on a started stream of mode 0 with a period (02 R36). -/
theorem exec_missingLine_started {l : Nat} (hawake : awake (advance dt s) = true) (hstarted : 2 ≤ (streamAt (advance dt s) k).state)
    (hper : ipar (advance dt s) k 0x10 ≠ 0) (hmode : ipar (advance dt s) k 0x05 = 0) (hlast : (streamAt (advance dt s) k).lastStamp = some l) :
    exec (.missingLine dt k) s = .next (if 3 * ipar (advance dt s) k 0x10 < 2 * ((advance dt s).clk.tb - l)
      then emitLine k none (streamAt (advance dt s) k).asm.isSome (advance dt s) else advance dt s) := by
  show execMissingLine dt k s = _
  unfold execMissingLine
  simp [hawake, hstarted, hper, hmode, hlast]

theorem exec_tachEdge_only {pin : Nat} (hawake : awake (advance dt s) = true) (hopen : openStreams (advance dt s) = [k])
    (hsrc : ipar (advance dt s) k 0x20 = 2) (hpin : ipar (advance dt s) k 0x23 = pin) :
    exec (.tachEdge dt pin) s =
      .next (modStream k (fun t => { t with tach := (stamp (advance dt s) :: t.tach).take 9 }) (advance dt s)) := by
  show execTachEdge dt pin s = _
  unfold execTachEdge
  simp [hawake, hopen, hsrc, hpin]

/-- The row of a start is an attempt to start, whatever the state of the open stream. -/
theorem exec_streamStart_open (hawake : awake (advance dt s) = true) (hopen : (streamAt (advance dt s) k).state ≠ 0) :
    exec (.streamStart dt k) s = .next (tryStart k (advance dt s)) :=
  congrArg Host.Outcome.next (if_pos ⟨hawake, hopen⟩)

theorem tryStart_ready (h : (streamAt (takeStream k s) k).state = 1 ∧ widthOf (takeStream k s) k ≠ 0 ∧ streamCharged (takeStream k s) k = true) :
    tryStart k s = startStream k (takeStream k s) :=
  if_pos h

theorem tryStart_notReady
    (h : ¬ ((streamAt (takeStream k s) k).state = 1 ∧ widthOf (takeStream k s) k ≠ 0 ∧ streamCharged (takeStream k s) k = true)) :
    tryStart k s = takeStream k s :=
  if_neg h

theorem exec_streamDiscovery_seen {x : PairSeen} (hwatched : discovers (advance dt s) k = true) (hlines : 16 ≤ x.lines)
    (hnew : refusedAt (advance dt s) k = none) : exec (.streamDiscovery dt k x) s = .next (discover k x (advance dt s)) :=
  congrArg Host.Outcome.next (if_pos (by simp [hwatched, hlines, hnew]))

/-- A pair refused at `t` is tried again from one second after `t` on (16 R514). -/
theorem exec_discoveryRetry_refused {t : Nat} {x : PairSeen} (hwatched : discovers (advance dt s) k = true) (hlines : 16 ≤ x.lines)
    (hrefused : refusedAt (advance dt s) k = some t) :
    exec (.discoveryRetry dt k x) s =
      .next (if t + 1000000000 ≤ (advance dt s).clk.tb then discover k x (advance dt s) else advance dt s) := by
  show execDiscoveryRetry dt k x s = _
  unfold execDiscoveryRetry
  simp [hwatched, hlines, hrefused]

end

/-- Settles O24: each clause is its row's law, taken on the side of the guard that the clause supposes. -/
theorem streamEventsAct : Obligations.StreamEventsAct := by
  refine ⟨?_, ?_, ?_, ?_, ?_⟩
  · rintro dt k l s _ rfl hawake hstarted hper hmode hlast
    have hexec := exec_missingLine_started hawake hstarted hper hmode hlast
    refine ⟨fun hlate => ?_, fun hearly => ?_⟩
    · rw [hexec, if_pos hlate]
    · rw [hexec, if_neg (Nat.not_lt.mpr hearly)]
  · rintro dt k pin s _ rfl hawake hopen hsrc hpin
    exact exec_tachEdge_only hawake hopen hsrc hpin
  · rintro dt k s _ _ rfl hawake hopen rfl
    refine ⟨fun hready => ?_, fun hnot => ?_⟩
    · rw [exec_streamStart_open hawake hopen, tryStart_ready hready]
    · rw [exec_streamStart_open hawake hopen, tryStart_notReady hnot]
  · rintro dt k x s _ rfl hwatched hlines hnew
    exact exec_streamDiscovery_seen hwatched hlines hnew
  · rintro dt k t x s _ rfl hwatched hlines hrefused
    have hexec := exec_discoveryRetry_refused hwatched hlines hrefused
    refine ⟨fun hdue => ?_, fun hearly => ?_⟩
    · rw [hexec, if_pos hdue]
    · rw [hexec, if_neg (Nat.not_le.mpr hearly)]

end Sys2Proof.Machine
end

section
/-! SUPPORT. Scalar operations of a core (05 R157). -/
namespace Sys2Proof.Machine

section
variable {op dt c v : Nat} {w : DWord} {s : State} {i : Instr}

theorem opDefined_scalar (h : op ≤ 0x0A) : opDefined 0 op = true := by
  unfold opDefined
  simp [h]

/-- A scalar operation that the spec gives a result writes it to XD. -/
theorem exec_alu_result (hi : exec i s = coreRow 0 op 7 (alu op) dt c w s) (hop : op ≤ 0x0A)
    (hv : aluOf op (xr (advance dt s) c (field w.toNat 45 41)) (operand2 (advance dt s) c w.toNat) = some v)
    (hr : Runs (advance dt s) c w 0 op 7) :
    exec i s = .next (andNext c (advance dt s) (setX c (field w.toNat 50 46) v (advance dt s))) := by
  refine core_step hi hr (opDefined_scalar hop) ?_
  unfold alu
  simp only [hv]

/-- One that the spec gives none writes a free value. -/
theorem exec_alu_free (hi : exec i s = coreRow 0 op 7 (alu op) dt c w s) (hop : op ≤ 0x0A)
    (hv : aluOf op (xr (advance dt s) c (field w.toNat 45 41)) (operand2 (advance dt s) c w.toNat) = none)
    (hr : Runs (advance dt s) c w 0 op 7) :
    ∃ v, exec i s = .next (andNext c (advance dt s)
      (setX c (field w.toNat 50 46) v { advance dt s with freeCtr := (advance dt s).freeCtr + 1 })) := by
  refine ⟨(Config.freeWord (advance dt s).freeCtr).toNat, core_step hi hr (opDefined_scalar hop) ?_⟩
  unfold alu
  simp only [hv]
  rfl

end

theorem aluOf_shl {a b : Nat} (h : b < 32) : aluOf 0x06 a b = some (a * 2 ^ b) := by
  rw [← Nat.shiftLeft_eq]
  exact if_pos h

theorem aluOf_shr {a b : Nat} (h : b < 32) : aluOf 0x07 a b = some (a / 2 ^ b) := by
  rw [← Nat.shiftRight_eq_div_pow]
  exact if_pos h

theorem aluOf_sra {a b : Nat} (h : b < 32) : aluOf 0x08 a b = some (twos 32 (sext 32 a / (2 ^ b : Int))) := if_pos h

/-! ### CMP (05 R157) -/

section
variable {dt c : Nat} {w : DWord} {s : State}

theorem exec_cmp_cond {b : Bool} (hr : Runs (advance dt s) c w 0 0x10 0) (hclean : field w.toNat 50 49 = 0)
    (hb : condOf (field w.toNat 2 0) (xr (advance dt s) c (field w.toNat 45 41)) (operand2 (advance dt s) c w.toNat) = some b) :
    exec (.cmp dt c w) s = .next (andNext c (advance dt s) (setP c (field w.toNat 48 46) b (advance dt s))) := by
  refine core_step rfl hr rfl ?_
  unfold cmpEff
  simp [hclean, hb]

theorem exec_cmp_illegal (hr : Runs (advance dt s) c w 0 0x10 0) (hclean : field w.toNat 50 49 = 0)
    (hb : condOf (field w.toNat 2 0) (xr (advance dt s) c (field w.toNat 45 41)) (operand2 (advance dt s) c w.toNat) = none) :
    exec (.cmp dt c w) s = .next (coreFault 0x0740 c (advance dt s)) := by
  refine core_fault rfl hr rfl ?_
  unfold cmpEff
  simp [hclean, hb, illegal]

end

theorem condOf_undefined {k a b : Nat} (h : k = 0 ∨ k = 7) : condOf k a b = none := by rcases h with rfl | rfl <;> rfl

/-- Settles O29: each operation is `aluOf` at its OP, and CMP is `condOf` at its COND. -/
theorem scalarInstructions : Obligations.ScalarInstructions := by
  rintro dt c n x y d w s a rfl rfl rfl rfl rfl
  refine ⟨exec_alu_result rfl (by decide) rfl, exec_alu_result rfl (by decide) rfl, exec_alu_result rfl (by decide) rfl,
    exec_alu_result rfl (by decide) rfl, exec_alu_result rfl (by decide) rfl, exec_alu_result rfl (by decide) rfl,
    fun hr => ⟨fun h => ?_, fun h => ?_⟩, fun hr => ⟨fun h => ?_, fun h => ?_⟩, fun hr => ⟨fun h => ?_, fun h => ?_⟩,
    exec_alu_result rfl (by decide) rfl, exec_alu_result rfl (by decide) rfl, fun hr hclean => ?_⟩
  · exact exec_alu_result rfl (by decide) (aluOf_shl h) hr
  · exact exec_alu_free rfl (by decide) (if_neg (Nat.not_lt.mpr h)) hr
  · exact exec_alu_result rfl (by decide) (aluOf_shr h) hr
  · exact exec_alu_free rfl (by decide) (if_neg (Nat.not_lt.mpr h)) hr
  · exact exec_alu_result rfl (by decide) (aluOf_sra h) hr
  · exact exec_alu_free rfl (by decide) (if_neg (Nat.not_lt.mpr h)) hr
  · have hcond {k : Nat} {b : Bool} (hb : condOf k _ _ = some b) (hk : field w.toNat 2 0 = k) :=
      exec_cmp_cond hr hclean (hk ▸ hb)
    exact ⟨hcond rfl, hcond rfl, hcond rfl, hcond rfl, hcond rfl, hcond rfl,
      fun hk => exec_cmp_illegal hr hclean (condOf_undefined hk)⟩

end Sys2Proof.Machine
end

section
/-! SUPPORT. The control instructions of a core: BR, LOOP, TBRD, GSET, HALT, FENCE, WAITU (05 R145, R157, R169; 02 R22; 06 R191). -/
namespace Sys2Proof.Machine

section
variable {dt c : Nat} {w : DWord} {s : State}

/-! ### BR -/

/-- What a branch adds to its own index besides its offset. -/
def branchBase : Nat := if Config.brFromNext then 1 else 0

theorem branchBase_le : branchBase ≤ 1 := by
  unfold branchBase
  split <;> decide

theorem exec_br_taken (hr : Runs (advance dt s) c w 0 0x18 (bits 37 36 + bits 15 0))
    (h : field w.toNat 40 38 = 0 ∨ condOf (field w.toNat 40 38) (xr (advance dt s) c (field w.toNat 50 46))
      (xr (advance dt s) c (field w.toNat 45 41)) = some true) :
    exec (.br dt c w) s = .next (goto c (twos 32 (((coreAt (advance dt s) c).r.pc : Int) + sext 20 (field w.toNat 35 16) + branchBase))
      (advance dt s)) := by
  refine core_jump rfl hr rfl ?_
  have hcast : (branchBase : Int) = if Config.brFromNext then 1 else 0 := by unfold branchBase; split <;> rfl
  have htaken : (if field w.toNat 40 38 = 0 then some true else condOf (field w.toNat 40 38) (xr (advance dt s) c (field w.toNat 50 46))
      (xr (advance dt s) c (field w.toNat 45 41))) = some true := by
    rcases h with h | h <;> simp [h]
  unfold brEff
  simp only [htaken, hcast]

theorem exec_br_untaken (hr : Runs (advance dt s) c w 0 0x18 (bits 37 36 + bits 15 0)) (hcond : field w.toNat 40 38 ≠ 0)
    (h : condOf (field w.toNat 40 38) (xr (advance dt s) c (field w.toNat 50 46)) (xr (advance dt s) c (field w.toNat 45 41)) = some false) :
    exec (.br dt c w) s = .next (andNext c (advance dt s) (advance dt s)) := by
  refine core_step rfl hr rfl ?_
  unfold brEff
  simp only [if_neg hcond, h]

/-! ### LOOP -/

theorem exec_loop_skip (hr : Runs (advance dt s) c w 0 0x1A (bits 48 46 + bits 20 0)) (hbody : field w.toNat 40 21 ≠ 0)
    (hcount : xr (advance dt s) c (field w.toNat 45 41) = 0) :
    exec (.loop dt c w) s = .next (goto c ((coreAt (advance dt s) c).r.pc + 1 + field w.toNat 40 21) (advance dt s)) := by
  refine core_jump rfl hr rfl ?_
  unfold loopEff
  simp only [if_neg hbody, if_pos hcount]

theorem exec_loop_open (hr : Runs (advance dt s) c w 0 0x1A (bits 48 46 + bits 20 0)) (hbody : field w.toNat 40 21 ≠ 0)
    (hcount : xr (advance dt s) c (field w.toNat 45 41) ≠ 0) :
    exec (.loop dt c w) s = .next (andNext c (advance dt s) (modRegs c (fun r => { r with
      loops := setNth r.loops (field w.toNat 50 49) (some ⟨xr (advance dt s) c (field w.toNat 45 41), (coreAt (advance dt s) c).r.pc + 1,
        (coreAt (advance dt s) c).r.pc + 1 + field w.toNat 40 21⟩) }) (advance dt s))) := by
  refine core_step rfl hr rfl ?_
  unfold loopEff
  simp only [if_neg hbody, if_neg hcount]

/-! ### TBRD (02 R22) -/

/-- The reading of TB that a core draws: within its lag, and not below its last one. -/
def tbReading (s : State) (c : Nat) : Nat :=
  Nat.max (coreAt s c).lastTb (s.clk.tb - tbLag s c + Config.freeNat s.freeCtr % (tbLag s c + 3))

theorem lastTb_le_tbReading (s : State) (c : Nat) : (coreAt s c).lastTb ≤ tbReading s c := Nat.le_max_left _ _

theorem lag_le_tbReading (s : State) (c : Nat) : s.clk.tb - tbLag s c ≤ tbReading s c :=
  Nat.le_trans (Nat.le_add_right _ _) (Nat.le_max_right _ _)

theorem tbReading_le {s : State} {c : Nat} (h : tbLag s c ≤ s.clk.tb) : tbReading s c ≤ Nat.max (coreAt s c).lastTb (s.clk.tb + 2) := by
  have hdraw : Config.freeNat s.freeCtr % (tbLag s c + 3) < tbLag s c + 3 := Nat.mod_lt _ (Nat.succ_pos _)
  exact max_le_max_left _ (by omega)

theorem exec_tbrd (hr : Runs (advance dt s) c w 0 0x1B (bits 45 0)) (hx : field w.toNat 50 46 ≤ 30) :
    exec (.tbrd dt c w) s = .next (andNext c (advance dt s) (setX c (field w.toNat 50 46 + 1) (tbReading (advance dt s) c / 2 ^ 32)
      (setX c (field w.toNat 50 46) (tbReading (advance dt s) c)
        (modCore c (fun x => { x with lastTb := tbReading (advance dt s) c })
          { advance dt s with freeCtr := (advance dt s).freeCtr + 1 })))) := by
  refine core_step rfl hr rfl ?_
  unfold tbrdEff
  simp only [if_neg (Nat.not_lt.mpr hx)]
  rfl

/-! ### HALT (05 R169) -/

/-- The core is idle and its cluster has run one tile more. -/
def tileEnded (c : Nat) (s : State) : State :=
  modCluster (c / 8) (fun x => { x with tilesRun := inc32 x.tilesRun 1 })
    (modCore c (fun x => { x with state := 1, tile := none, stalled := none, heldRequest := false }) s)

/-- The signal of DONE_TALLY, where the tile has one. -/
def signalDone (t : Option TileDesc) (s : State) : State :=
  match t with
  | some d => if d.doneTally = 0xFFFF then s else signalAndTake d.doneTally d.doneCount s
  | none => s

theorem exec_halt (hr : Runs (advance dt s) c w 0 0x1F 0) (hclean : w.toNat % 2 ^ 51 = 0)
    (hloops : (coreAt (advance dt s) c).r.loops.any Option.isSome = false) (hdma : (coreAt (advance dt s) c).r.dmaq = [])
    (hwalks : asking (advance dt s) c = 0) (hstate : (coreAt (advance dt s) c).state = 2) :
    exec (.halt dt c w) s =
      .next (dispatchAll (signalDone (coreAt (advance dt s) c).tile (tileEnded c (advance dt s)))) := by
  refine core_stay rfl hr rfl ?_
  unfold haltEff
  rw [hclean]
  simp [hloops, hdma, hwalks, hstate]
  rfl

/-! ### WAITU -/

theorem exec_waitu_done (hr : Runs (advance dt s) c w 7 9 (bits 45 0)) (hdma : bit w.toNat 47 = true → dmaUsed (advance dt s) c = 0)
    (hload : bit w.toNat 46 = true → translating (advance dt s) c = false) :
    exec (.waitu dt c w) s = .next (andNext c (advance dt s) (advance dt s)) := by
  refine core_step rfl hr rfl (if_neg ?_)
  simpa using ⟨hdma, hload⟩

theorem exec_waitu_waits (hr : Runs (advance dt s) c w 7 9 (bits 45 0))
    (h : (bit w.toNat 47 = true ∧ dmaUsed (advance dt s) c ≠ 0) ∨ (bit w.toNat 46 = true ∧ translating (advance dt s) c = true)) :
    exec (.waitu dt c w) s = .next (advance dt s) := by
  refine core_stay rfl hr rfl (if_pos ?_)
  simpa using h

end

/-- Settles O30, clause by clause from the laws above. -/
theorem controlInstructions : Obligations.ControlInstructions := by
  rintro dt c n w s a rfl rfl
  refine ⟨fun hr => ⟨⟨branchBase, branchBase_le, exec_br_taken hr⟩, exec_br_untaken hr⟩,
    fun hr hbody => ⟨exec_loop_skip hr hbody, exec_loop_open hr hbody⟩,
    fun hr hx hlag => ⟨_, lastTb_le_tbReading _ c, lag_le_tbReading _ c, tbReading_le hlag, exec_tbrd hr hx⟩,
    fun hr => core_step (eff := gsetEff) rfl hr rfl rfl, fun hr hclean hloops hdma hwalks hstate htile => ?_,
    fun d hr hclean hloops hdma hwalks hstate htile hdone => ?_, fun hr => core_step (eff := fenceEff) rfl hr rfl rfl,
    exec_waitu_done, exec_waitu_waits⟩
  · rw [exec_halt hr hclean hloops hdma hwalks hstate, htile]
    rfl
  · rw [exec_halt hr hclean hloops hdma hwalks hstate, htile, signalDone, if_neg hdone]
    rfl

end Sys2Proof.Machine
end

section
/-! SUPPORT. The checks that a core's instruction makes in turn, and its accesses to memory (05 R142, R143, R158). -/
namespace Sys2Proof.Machine

/-! ### Checks in turn -/

section
variable {α β : Type} {st : Nat} {b : Bool}

theorem ok_bind (x : α) (f : α → Except Bad β) : (Except.ok x >>= f) = f x := rfl

theorem error_bind (e : Bad) (f : α → Except Bad β) : ((Except.error e : Except Bad α) >>= f) = .error e := rfl

theorem need_fault (h : b = false) : need b st = .error (.fault st) := by
  unfold need
  simp [h]

/-- A check that holds lets the next one be made. -/
theorem need_bind (h : b = true) (f : Unit → Except Bad β) : (need b st >>= f) = f () := by rw [need_ok h, ok_bind]

/-- A check that fails ends the instruction. -/
theorem need_bind_fault (h : b = false) (f : Unit → Except Bad β) : (need b st >>= f) = .error (.fault st) := by
  rw [need_fault h, error_bind]

end

section
variable {s : State} {c a len al : Nat} {l : Loc}

theorem access_ok (ha : a % al = 0) (hl : reach s c a len = .ok l) : access s c a len al = .ok l :=
  (need_bind (by simpa using ha) _).trans hl

theorem access_misaligned (ha : a % al ≠ 0) : access s c a len al = .error (.fault 0x0741) := need_bind_fault (by simpa using ha) _

theorem ownOk_ok (ha : a % al = 0) (hend : a + len ≤ s.variant.scratchBytes) : ownOk s a len al = .ok () :=
  need_ok (by simp [ha, hend])

theorem ownOk_fault (h : a % al ≠ 0 ∨ s.variant.scratchBytes < a + len) : ownOk s a len al = .error (.fault 0x0741) :=
  need_fault (by simpa [or_iff_not_imp_left] using h)

end

/-! ### Spaces (05 R142, R143) -/

section
variable {s : State} {c a len : Nat}

theorem reach_own (hspace : field a 31 30 = 0) (hend : a + len ≤ s.variant.scratchBytes) : reach s c a len = .ok (.scratch c a) := by
  unfold reach locate
  simp only [hspace, if_neg (Nat.not_lt.mpr hend), ok_bind, BEq.rfl, Bool.true_or, if_true]

theorem reach_own_past (hspace : field a 31 30 = 0) (hend : s.variant.scratchBytes < a + len) :
    reach s c a len = .error (.fault 0x0741) := by
  unfold reach locate
  simp only [hspace, if_pos hend, badAddress, error_bind]

theorem reach_commons (hspace : field a 31 30 = 2) (hcluster : field a 29 26 < s.variant.clusters) (hzero : field a 25 22 = 0)
    (hend : a % 2 ^ 22 + len ≤ 4194304) (hready : sramReady s (stackOf (field a 29 26)) = true) :
    reach s c a len = .ok (.commons (field a 29 26) (a % 2 ^ 22)) := by
  have hin : ¬ (s.variant.clusters ≤ field a 29 26 ∨ field a 25 22 ≠ 0 ∨ 4194304 < a % 2 ^ 22 + len) := by omega
  unfold reach locate
  simp only [hspace, if_neg hin, ok_bind, Loc.cluster, hready, Bool.or_true, if_true]

theorem reach_undefined (hspace : field a 31 30 = 3) : reach s c a len = .error (.fault 0x0741) := by
  unfold reach locate
  simp only [hspace, badAddress, error_bind]

end

/-! ### Loads and stores (05 R158) -/

/-- The effect checks its fields, then the address of `len` bytes aligned to `al`, and then does `f` at the place that it reaches. -/
def Accesses (eff : Eff) (legal : Nat → Bool) (len al : Nat → Nat) (f : Nat → Nat → Loc → State → State) : Prop :=
  ∀ c n s, eff c n s = (need (legal n) 0x0740 >>= fun _ => access s c (memAddr s c n) (len n) (al n) >>= fun l => .ok (.step (f c n l s)))

section
variable {dt c o nz : Nat} {w : DWord} {s : State} {i : Instr} {eff : Eff} {legal : Nat → Bool} {len al : Nat → Nat}
  {f : Nat → Nat → Loc → State → State}

theorem opDefined_memory (h : o ≤ 5) : opDefined 1 o = true := by
  unfold opDefined
  simp [h]

theorem exec_access_reached {l : Loc} {t : State} (he : Accesses eff legal len al f) (hi : exec i s = coreRow 1 o nz eff dt c w s) (ho : o ≤ 5)
    (hlegal : legal w.toNat = true) (halign : memAddr (advance dt s) c w.toNat % al w.toNat = 0)
    (hl : reach (advance dt s) c (memAddr (advance dt s) c w.toNat) (len w.toNat) = .ok l)
    (ht : f c w.toNat l (advance dt s) = t) (hr : Runs (advance dt s) c w 1 o nz) : exec i s = .next (andNext c (advance dt s) t) :=
  core_step hi hr (opDefined_memory ho) (by rw [he, need_bind hlegal, access_ok halign hl, ok_bind, ht])

theorem exec_access_illegal (he : Accesses eff legal len al f) (hi : exec i s = coreRow 1 o nz eff dt c w s) (ho : o ≤ 5)
    (hlegal : legal w.toNat = false) (hr : Runs (advance dt s) c w 1 o nz) : exec i s = .next (coreFault 0x0740 c (advance dt s)) :=
  core_fault hi hr (opDefined_memory ho) (by rw [he, need_bind_fault hlegal])

theorem exec_access_misaligned (he : Accesses eff legal len al f) (hi : exec i s = coreRow 1 o nz eff dt c w s) (ho : o ≤ 5)
    (hlegal : legal w.toNat = true) (halign : memAddr (advance dt s) c w.toNat % al w.toNat ≠ 0)
    (hr : Runs (advance dt s) c w 1 o nz) : exec i s = .next (coreFault 0x0741 c (advance dt s)) :=
  core_fault hi hr (opDefined_memory ho) (by rw [he, need_bind hlegal, access_misaligned halign, error_bind])

end

/-- SIZE is 0 to 2. -/
def sizeLegal (n : Nat) : Bool := decide (field n 45 43 ≤ 2)

/-- The register is a V register. -/
def vLegal (n : Nat) : Bool := decide (field n 50 46 < 8)

/-- So it is, and FMT is 0 to 5. -/
def vFmtLegal (n : Nat) : Bool := vLegal n && decide (field n 45 43 ≤ 5)

theorem vField_bind {β : Type} (n : Nat) (f : Nat → Except Bad β) :
    (vField n >>= f) = (need (vLegal n) 0x0740 >>= fun _ => f (field n 50 46)) := by
  unfold vField vLegal need illegal
  by_cases h : field n 50 46 < 8 <;> simp [h] <;> rfl

/-- Two checks with one fault are one check. -/
theorem need_need {β : Type} (p q : Bool) (st : Nat) (f : Unit → Except Bad β) :
    (need p st >>= fun _ => need q st >>= f) = (need (p && q) st >>= f) := by cases p <;> rfl

theorem ld_accesses : Accesses ldEff sizeLegal (fun n => 2 ^ field n 45 43) (fun n => 2 ^ field n 45 43)
    (fun c n l s => setX c (field n 50 46) (leNat (readLoc s l (2 ^ field n 45 43))) s) := fun _ _ _ => rfl

theorem st_accesses : Accesses stEff sizeLegal (fun n => 2 ^ field n 45 43) (fun n => 2 ^ field n 45 43)
    (fun c n l s => writeLoc l (le (2 ^ field n 45 43) (xr s c (field n 50 46))) s) := fun _ _ _ => rfl

theorem ldv_accesses : Accesses ldvEff vLegal (fun _ => 256) (fun _ => 64)
    (fun c n l s => setV c (field n 50 46) ((List.range 64).map (fun i => BitVec.ofNat 32 (leAt (readLoc s l 256) (4 * i) 4))) s) :=
  fun _ n _ => vField_bind n _

theorem stv_accesses : Accesses stvEff vLegal (fun _ => 256) (fun _ => 64)
    (fun c n l s => writeLoc l ((vr s c (field n 50 46)).flatMap (fun w => le 4 w.toNat)) s) := fun _ n _ => vField_bind n _

theorem ldvc_accesses : Accesses ldvcEff vFmtLegal (fun n => 64 * fmtBytes (field n 45 43)) (fun _ => 64)
    (fun c n l s => setV c (field n 50 46) ((List.range 64).map (fun i => widen (field n 45 43)
      (leAt (readLoc s l (64 * fmtBytes (field n 45 43))) (fmtBytes (field n 45 43) * i) (fmtBytes (field n 45 43))))) s) :=
  fun _ n _ => (vField_bind n _).trans (need_need _ _ _ _)

/-- The elements that STVC stores, as it converts them. -/
def storedElements (s : State) (c n : Nat) : List Converted :=
  (vr s c (field n 50 46)).map (fun w =>
    if fmtInt (field n 45 43) && Config.laneInt (field n 45 43) then narrowInt (field n 45 43) w else convertTo (field n 45 43) (fp w))

theorem stvc_accesses : Accesses stvcEff vFmtLegal (fun n => 64 * fmtBytes (field n 45 43)) (fun _ => 64)
    (fun c n l s => countEvents c (clipsIn (storedElements s c n)) (nansIn (storedElements s c n)) 0
      (writeLoc l ((storedElements s c n).flatMap (fun x => le (fmtBytes (field n 45 43)) x.code)) s)) :=
  fun _ n _ => (vField_bind n _).trans (need_need _ _ _ _)

theorem vFmtLegal_true {n : Nat} (hv : field n 50 46 < 8) (hf : field n 45 43 ≤ 5) : vFmtLegal n = true := by
  simp [vFmtLegal, vLegal, hv, hf]

theorem vFmtLegal_false {n : Nat} (h : 8 ≤ field n 50 46 ∨ 5 < field n 45 43) : vFmtLegal n = false := by
  simpa [vFmtLegal, vLegal, or_iff_not_imp_left] using h

/-- Settles O31: each instruction is an `Accesses`, so its three outcomes are those of an access. -/
theorem loadsAndStores : Obligations.LoadsAndStores := by
  refine ⟨?_, fun c ad k a => ⟨reach_own, reach_own_past, reach_commons, reach_undefined⟩⟩
  rintro dt c n v ad w s a rfl rfl rfl rfl
  refine ⟨?_, ?_, ?_, ?_, ?_, ?_, ?_, ?_, ?_, ?_, ?_⟩
  · rintro l k rfl hsize halign hl
    exact ⟨exec_access_reached ld_accesses rfl (by decide) (decide_eq_true hsize) halign hl rfl,
      exec_access_reached st_accesses rfl (by decide) (decide_eq_true hsize) halign hl rfl⟩
  · intro l hv halign hl
    exact ⟨exec_access_reached ldv_accesses rfl (by decide) (decide_eq_true hv) halign hl rfl,
      exec_access_reached stv_accesses rfl (by decide) (decide_eq_true hv) halign hl rfl⟩
  · rintro l f k e rfl rfl hv hf halign hl rfl
    exact ⟨exec_access_reached ldvc_accesses rfl (by decide) (vFmtLegal_true hv hf) halign hl rfl,
      exec_access_reached stvc_accesses rfl (by decide) (vFmtLegal_true hv hf) halign hl rfl⟩
  · exact fun hr hsize => exec_access_illegal ld_accesses rfl (by decide) (decide_eq_false (Nat.not_le.mpr hsize)) hr
  · exact fun hr hsize => exec_access_illegal st_accesses rfl (by decide) (decide_eq_false (Nat.not_le.mpr hsize)) hr
  · exact fun hr hsize halign => exec_access_misaligned ld_accesses rfl (by decide) (decide_eq_true hsize) halign hr
  · exact fun hr hsize halign => exec_access_misaligned st_accesses rfl (by decide) (decide_eq_true hsize) halign hr
  · exact fun hr => ⟨fun hv => exec_access_illegal ldv_accesses rfl (by decide) (decide_eq_false (Nat.not_lt.mpr hv)) hr,
      fun hv halign => exec_access_misaligned ldv_accesses rfl (by decide) (decide_eq_true hv) halign hr⟩
  · exact fun hr => ⟨fun hv => exec_access_illegal stv_accesses rfl (by decide) (decide_eq_false (Nat.not_lt.mpr hv)) hr,
      fun hv halign => exec_access_misaligned stv_accesses rfl (by decide) (decide_eq_true hv) halign hr⟩
  · exact fun hr => ⟨fun h => exec_access_illegal ldvc_accesses rfl (by decide) (vFmtLegal_false h) hr,
      fun hv hf halign => exec_access_misaligned ldvc_accesses rfl (by decide) (vFmtLegal_true hv hf) halign hr⟩
  · exact fun hr => ⟨fun h => exec_access_illegal stvc_accesses rfl (by decide) (vFmtLegal_false h) hr,
      fun hv hf halign => exec_access_misaligned stvc_accesses rfl (by decide) (vFmtLegal_true hv hf) halign hr⟩

end Sys2Proof.Machine
end

section
/-! SUPPORT. DMA transfers: the checks at issue, and the end of a transfer (05 R164 to R166). -/
namespace Sys2Proof.Machine

/-- The transfer of the descriptor that a word of DMA points to. -/
def dmaXfer (s : State) (c n : Nat) : DmaXfer := xferOf (ownRead s c (xr s c (field n 50 46)) 32)

/-- Row length and row count are in their ranges. -/
def DmaXfer.inRange (x : DmaXfer) : Bool := decide (1 ≤ x.rowBytes) && decide (x.rowBytes ≤ 16777216) && decide (1 ≤ x.rows)

/-- The tile may signal the transfer's tally, or it has none. -/
def dmaTallyOk (s : State) (c : Nat) (x : DmaXfer) : Bool := x.tally == 0xFFFF || tallyAllowed s c x.tally

section
variable {dt c : Nat} {w : DWord} {s : State}

theorem exec_dma_past (hr : Runs (advance dt s) c w 2 0 (bits 45 0))
    (hd : (advance dt s).variant.scratchBytes < xr (advance dt s) c (field w.toNat 50 46) + 32) :
    exec (.dma dt c w) s = .next (coreFault 0x0741 c (advance dt s)) := by
  refine core_fault (eff := dmaEff) rfl hr rfl ?_
  unfold dmaEff
  simp only [ownOk_fault (.inr hd), error_bind]

/-- What follows the checks of a descriptor in the own scratchpad, its ranges and its tally. -/
def dmaSides (s : State) (c : Nat) (x : DmaXfer) : Except Bad Done := do
  let p ← dmaSideOk s (coreAt s c).job c x.src x.srcStride x.rowBytes x.rows
  let q ← dmaSideOk s (coreAt s c).job c x.dst x.dstStride x.rowBytes x.rows
  if p || q then .error .parked
  else if 8 ≤ dmaUsed s c then return .stay s
  else return .step (modRegs c (fun r => { r with dmaq := r.dmaq ++ [x] }) s)

theorem dmaEff_own {n : Nat} (hd : xr s c (field n 50 46) + 32 ≤ s.variant.scratchBytes) :
    dmaEff c n s = (need (dmaXfer s c n).inRange 0x0740 >>= fun _ => need (dmaTallyOk s c (dmaXfer s c n)) 0x0742 >>= fun _ =>
      dmaSides s c (dmaXfer s c n)) := by
  show (ownOk s (xr s c (field n 50 46)) 32 1 >>= _) = _
  rw [ownOk_ok (Nat.mod_one _) hd, ok_bind]
  rfl

theorem dmaSides_inPlace {x : DmaXfer} (hsrc : dmaSideOk s (coreAt s c).job c x.src x.srcStride x.rowBytes x.rows = .ok false)
    (hdst : dmaSideOk s (coreAt s c).job c x.dst x.dstStride x.rowBytes x.rows = .ok false) :
    dmaSides s c x = if 8 ≤ dmaUsed s c then .ok (.stay s)
      else .ok (.step (modRegs c (fun r => { r with dmaq := r.dmaq ++ [x] }) s)) := by
  unfold dmaSides
  rw [hsrc, ok_bind, hdst, ok_bind]
  rfl

/-! ### The end of a transfer -/

theorem exec_dmaComplete_moved {e : Nat} {x : DmaXfer} {t : State} (hx : (coreAt (advance dt s) c).r.dmaq[e]? = some x)
    (hawake : awake (advance dt s) = true)
    (hstate : (coreAt (advance dt s) c).state = 2 ∨ (coreAt (advance dt s) c).state = 3 ∨ (coreAt (advance dt s) c).state = 4)
    (hmove : dmaMove (coreAt (advance dt s) c).job c x (x.rows * x.rowBytes) (advance dt s) = .ok t) :
    exec (.dmaComplete dt c e) s = .next (if x.tally = 0xFFFF then modRegs c (fun r => { r with dmaq := r.dmaq.eraseIdx e }) t
      else signalAndTake x.tally 1 (modRegs c (fun r => { r with dmaq := r.dmaq.eraseIdx e }) t)) := by
  have hmoves : ((coreAt (advance dt s) c).state == 2 || (coreAt (advance dt s) c).state == 3 || (coreAt (advance dt s) c).state == 4) = true := by
    rcases hstate with h | h | h <;> rw [h] <;> rfl
  show execDmaComplete dt c e s = _
  unfold execDmaComplete
  simp only [hx, hawake, hmoves, hmove]
  rfl

/-- A row of DDR4 moves whole. -/
theorem dmaMove_ddr_row {j src dst len : Nat} (hsrc : src < 2 ^ 63) (hdst : dst < 2 ^ 63) (hlen : 1 ≤ len) :
    dmaMove j c ⟨src, dst, len, 1, 0xFFFF, 0, 0, 0⟩ len s =
      .ok { s with ddr := Memory.writeN s.ddr dst (Memory.readN s.ddr src len) } := by
  have hplace {word : Nat} (h : word < 2 ^ 63) : dmaPlace s j c word 0 len 0 = .ok none := if_neg (by simp [bit, Nat.testBit_lt_two_pow h])
  have hrow {word : Nat} (h : word < 2 ^ 63) : dmaRow word 0 0 = word := Nat.mod_eq_of_lt h
  have hrows : (List.range 1).filter (fun i => decide (0 < (i + 1) * len) && decide (i * len < len)) = [0] := by
    simp [List.range_succ, Nat.lt_of_succ_le hlen]
  unfold dmaMove
  simp only [hrows, List.foldlM_cons, List.foldlM_nil, hplace hsrc, hplace hdst, ok_bind, hrow hsrc, hrow hdst]
  simp [dmaPut, dmaGet]
  rfl

end

/-- Settles O32: the checks of a descriptor in their order, then the two ends of a transfer. -/
theorem transfers : Obligations.Transfers := by
  refine ⟨?_, ?_, fun c j src dst len a => dmaMove_ddr_row⟩
  · rintro dt c d x w s a rfl hr rfl hx
    obtain rfl : x = dmaXfer (advance dt s) c w.toNat := hx
    refine ⟨exec_dma_past hr, fun hd hbad => ?_, fun hd hlo hhi hrows => ⟨fun hnone htally => ?_, fun htally hsrc hdst => ?_⟩⟩
    · have hrange : (dmaXfer (advance dt s) c w.toNat).inRange = false := by
        unfold DmaXfer.inRange
        rcases hbad with h | h | h
        · simp [h]
        · simp [Nat.not_le.mpr h]
        · simp [h]
      exact core_fault (eff := dmaEff) rfl hr rfl (by rw [dmaEff_own hd, need_bind_fault hrange])
    · have hrange : (dmaXfer (advance dt s) c w.toNat).inRange = true := by simp [DmaXfer.inRange, hlo, hhi, hrows]
      have hbad : dmaTallyOk (advance dt s) c (dmaXfer (advance dt s) c w.toNat) = false := by simp [dmaTallyOk, hnone, htally]
      exact core_fault (eff := dmaEff) rfl hr rfl (by rw [dmaEff_own hd, need_bind hrange, need_bind_fault hbad])
    · have hrange : (dmaXfer (advance dt s) c w.toNat).inRange = true := by simp [DmaXfer.inRange, hlo, hhi, hrows]
      have hok : dmaTallyOk (advance dt s) c (dmaXfer (advance dt s) c w.toNat) = true := by simpa [dmaTallyOk] using htally
      have heff := (dmaEff_own hd).trans ((need_bind hrange _).trans ((need_bind hok _).trans (dmaSides_inPlace hsrc hdst)))
      exact ⟨fun hfree => core_step (eff := dmaEff) rfl hr rfl (heff.trans (if_neg (Nat.not_le.mpr hfree))),
        fun hfull => core_stay (eff := dmaEff) rfl hr rfl (heff.trans (if_pos hfull))⟩
  · rintro dt c e x s a t rfl hx hawake hstate hmove
    have hexec := exec_dmaComplete_moved hx hawake hstate hmove
    refine ⟨fun hnone => ?_, fun hsome => ?_⟩
    · rw [hexec, if_pos hnone]
    · rw [hexec, if_neg hsome]

end Sys2Proof.Machine
end

section
/-! SUPPORT. Frames of a core's writes, and what reads back (05 R142, R155, R157, R158). -/
namespace Sys2Proof.Machine

section
variable {c i j : Nat} {s : State}

theorem nth_setNth_other {α : Type} (l : List α) (h : j ≠ i) (a d : α) : nth (setNth l i a) j d = nth l j d := nth_modNth_other l h _ d

theorem nth_setNth_same {α : Type} {l : List α} (h : i < l.length) (a d : α) : nth (setNth l i a) i d = a := nth_modNth_same l h _ d

/-! ### A change of the registers -/

theorem onlyCore_refl (c : Nat) (s : State) : OnlyCore c s s := ⟨rfl, fun _ _ => rfl⟩

theorem onlyCore_modRegs (c : Nat) (f : CoreRegs → CoreRegs) (s : State) : OnlyCore c s (modRegs c f s) := onlyCore_modCore c _ s

theorem modRegs_r (f : CoreRegs → CoreRegs) (h : c < s.cores.length) : (coreAt (modRegs c f s) c).r = f (coreAt s c).r := by
  unfold modRegs
  rw [coreAt_modCore _ s h]

/-- A change that puts another value in one field of the registers: past the last core the old value stays. -/
theorem coreAt_modRegs_field {α : Type} {f : CoreRegs → CoreRegs} {put : α → CoreRegs} {Q : α → Prop} {old new : α}
    (hold : put old = (coreAt s c).r) (hold' : Q old) (hnew : f (coreAt s c).r = put new) (hnew' : Q new) :
    ∃ x, coreAt (modRegs c f s) c = { coreAt s c with r := put x } ∧ Q x :=
  coreAt_modCore_any (P := fun k => ∃ x, k = { coreAt s c with r := put x } ∧ Q x) ⟨old, by rw [hold], hold'⟩ ⟨new, by rw [hnew], hnew'⟩

/-! ### The registers written -/

theorem onlyCore_setX (c i v : Nat) (s : State) : OnlyCore c s (setX c i v s) := by
  unfold setX
  split
  · exact onlyCore_refl c s
  · exact onlyCore_modRegs c _ s

theorem onlyCore_setP (c i : Nat) (b : Bool) (s : State) : OnlyCore c s (setP c i b s) := by
  unfold setP
  split
  · exact onlyCore_refl c s
  · exact onlyCore_modRegs c _ s

theorem coreAt_setX (c i v : Nat) (s : State) :
    ∃ x, coreAt (setX c i v s) c = { coreAt s c with r := { (coreAt s c).r with x := x } } ∧
      ∀ j, j ≠ i → nth x j 0 = nth (coreAt s c).r.x j 0 := by
  unfold setX
  split
  · exact ⟨_, rfl, fun _ _ => rfl⟩
  · exact coreAt_modRegs_field rfl (fun _ _ => rfl) rfl (fun _ hj => nth_setNth_other _ hj _ _)

theorem coreAt_setV (c i : Nat) (l : List Word) (s : State) :
    ∃ x, coreAt (setV c i l s) c = { coreAt s c with r := { (coreAt s c).r with v := x } } ∧
      ∀ j, j ≠ i → nth x j [] = nth (coreAt s c).r.v j [] :=
  coreAt_modRegs_field rfl (fun _ _ => rfl) rfl (fun _ hj => nth_setNth_other _ hj _ _)

theorem coreAt_setP (c i : Nat) (b : Bool) (s : State) :
    ∃ x, coreAt (setP c i b s) c = { coreAt s c with r := { (coreAt s c).r with p := x } } ∧
      ∀ j, j ≠ i → nth x j false = nth (coreAt s c).r.p j false := by
  unfold setP
  split
  · exact ⟨_, rfl, fun _ _ => rfl⟩
  · exact coreAt_modRegs_field rfl (fun _ _ => rfl) rfl (fun _ hj => nth_setNth_other _ hj _ _)

theorem coreAt_setTile (c i : Nat) (t : AccTile) (s : State) :
    ∃ x, coreAt (setTile c i t s) c = { coreAt s c with r := { (coreAt s c).r with acc := x } } ∧
      ∀ j, j ≠ i → Tab.find x j = Tab.find (coreAt s c).r.acc j :=
  coreAt_modRegs_field rfl (fun _ _ => rfl) rfl (fun _ hj => Tab.find_set_other _ hj _)

theorem xr_setX (v : Nat) (hc : c < s.cores.length) (h0 : i ≠ 0) (hi : i < (coreAt s c).r.x.length) :
    xr (setX c i v s) c i = v % 2 ^ 32 := by
  unfold xr setX xOf
  simp only [h0, if_false, modRegs_r _ hc, nth_setNth_same hi, BitVec.toNat_ofNat]

theorem vr_setV (l : List Word) (hc : c < s.cores.length) (hi : i < (coreAt s c).r.v.length) : vr (setV c i l s) c i = l := by
  unfold vr setV
  simp only [modRegs_r _ hc, nth_setNth_same hi]

theorem pr_setP (b : Bool) (hc : c < s.cores.length) (h0 : i ≠ 0) (hi : i < (coreAt s c).r.p.length) : pr (setP c i b s) c i = b := by
  unfold pr setP
  simp only [h0, if_false, modRegs_r _ hc, nth_setNth_same hi, beq_eq_false_iff_ne.mpr h0, Bool.false_or]

theorem tileAt_setTile (t : AccTile) (hc : c < s.cores.length) : tileAt (setTile c i t s) c i = t := by
  unfold tileAt setTile Tab.get
  simp only [modRegs_r _ hc, Tab.find_set, Option.getD_some]

/-! ### Counters and the next instruction -/

theorem coreAt_countEvents (c x y z : Nat) (s : State) :
    ∃ p q r, coreAt (countEvents c x y z s) c = { coreAt s c with clipped := p, nanOut := q, accSat := r } :=
  coreAt_modCore_any (P := fun k => ∃ p q r, k = { coreAt s c with clipped := p, nanOut := q, accSat := r }) ⟨_, _, _, rfl⟩ ⟨_, _, _, rfl⟩

/-- Landing changes the index and the loop levels only. -/
theorem landAt_only {n pc : Nat} {r t : CoreRegs} (h : landAt n pc r = some t) : ∃ l m, t = { r with pc := m, loops := l } := by
  induction n generalizing r with
  | zero => exact ⟨_, _, (Option.some.inj h).symm⟩
  | succ n ih =>
    unfold landAt at h
    split at h
    · split at h
      · split at h
        · cases h
        · split at h
          · exact ⟨_, _, (Option.some.inj h).symm⟩
          · obtain ⟨l, m, rfl⟩ := ih h
            exact ⟨l, m, rfl⟩
      · exact ⟨_, _, (Option.some.inj h).symm⟩
    · exact ⟨_, _, (Option.some.inj h).symm⟩

theorem goto_landed {pc : Nat} {r : CoreRegs} (h : landAt 5 (pc % 2 ^ 32) (coreAt s c).r = some r) :
    goto c pc s = modCore c (fun k => { k with r := r, stalled := none }) s := by
  unfold goto
  rw [h]

theorem coreAt_goto {pc : Nat} {r : CoreRegs} (h : landAt 5 (pc % 2 ^ 32) (coreAt s c).r = some r) :
    ∃ l n, coreAt (goto c pc s) c =
      { coreAt s c with r := { (coreAt s c).r with pc := n, loops := l }, stalled := (coreAt (goto c pc s) c).stalled } := by
  obtain ⟨l, n, rfl⟩ := landAt_only h
  rw [goto_landed h]
  exact coreAt_modCore_any (P := fun k => ∃ l n, k = { coreAt s c with r := { (coreAt s c).r with pc := n, loops := l }, stalled := k.stalled })
    ⟨_, _, rfl⟩ ⟨_, _, rfl⟩

end

/-! ### Stores -/

/-- The bytes of a write in `m`, and the rest of it as it was, in the canonical form. -/
theorem Memory.writeN_frame {m : Memory} (off : Nat) (p : Bytes) (w : Memory.wf m = true) :
    (∀ q, q < off ∨ off + p.length ≤ q → Memory.read (Memory.writeN m off p) q = Memory.read m q) ∧
    (∀ j, j < p.length → Memory.read (Memory.writeN m off p) (off + j) = nth p j 0) ∧ Memory.wf (Memory.writeN m off p) = true :=
  ⟨fun q hq => Memory.read_writeN_outside off q p w hq, fun j hj => Memory.read_writeN_inside off j p w hj, Memory.writeN_wf off p w⟩

section
variable {k off : Nat} {p : Bytes} {s : State}

theorem onlyCore_writeLoc (k off : Nat) (p : Bytes) (s : State) : OnlyCore k s (writeLoc (.scratch k off) p s) := onlyCore_modCore k _ s

theorem onlyCluster_writeLoc (k off : Nat) (p : Bytes) (s : State) : OnlyCluster k s (writeLoc (.commons k off) p s) :=
  onlyCluster_modCluster k _ s

theorem coreAt_writeLoc (h : k < s.cores.length) :
    coreAt (writeLoc (.scratch k off) p s) k = { coreAt s k with scratch := Memory.writeN (coreAt s k).scratch off p } := coreAt_modCore _ s h

theorem clusterAt_writeLoc (h : k < s.clusters.length) :
    clusterAt (writeLoc (.commons k off) p s) k = { clusterAt s k with commons := Memory.writeN (clusterAt s k).commons off p } :=
  clusterAt_modCluster _ s h

theorem coreAt_writeLoc_scratch (k off : Nat) (p : Bytes) (s : State) :
    ∃ m, coreAt (writeLoc (.scratch k off) p s) k = { coreAt s k with scratch := m } :=
  coreAt_modCore_any (P := fun x => ∃ m, x = { coreAt s k with scratch := m }) ⟨_, rfl⟩ ⟨_, rfl⟩

end

/-- Settles O33: the frame of each write, and what the register or the bytes written read as. -/
theorem coreFrames : Obligations.CoreFrames := by
  refine ⟨?_, fun c x y z s => ⟨onlyCore_modCore c _ s, coreAt_countEvents c x y z s⟩, ?_, ?_⟩
  · intro c i v l b t s
    exact ⟨onlyCore_setX c i v s, onlyCore_modRegs c _ s, onlyCore_setP c i b s, onlyCore_modRegs c _ s, coreAt_setX c i v s,
      coreAt_setV c i l s, coreAt_setP c i b s, coreAt_setTile c i t s, xr_setX v, vr_setV l, pr_setP b, tileAt_setTile t⟩
  · intro c pc r s h
    exact ⟨goto_landed h ▸ onlyCore_modCore c _ s, coreAt_goto h⟩
  · intro k off p s
    refine ⟨⟨onlyCore_writeLoc k off p s, coreAt_writeLoc_scratch k off p s, fun hk hwf => ?_⟩,
      onlyCluster_writeLoc k off p s, fun hk hwf => ?_⟩
    · rw [coreAt_writeLoc hk]
      exact Memory.writeN_frame off p hwf
    · rw [clusterAt_writeLoc hk]
      exact ⟨⟨_, rfl⟩, Memory.writeN_frame off p hwf⟩

end Sys2Proof.Machine
end

section
/-! SUPPORT. Commands on tallies, cores and quantisation points (05 R147 to R149, R154, R179, R181; 06 R204, R205). -/
namespace Sys2Proof.Machine

/-! ### The tally commands: their ordered checks, and then an answer -/

/-- The answer, unless a check has refused with a status. -/
def Reply.unlessRefused (answer : Reply) : Option Nat → Reply
  | some st => .refuse st []
  | none => answer

section
variable {p : Packet} (s : State)

theorem tallyQueryBody_eq (hlen : p.params.length = 4) (hres : resZero p.params 2 2 = true) : tallyQueryBody p s =
    (Reply.ok (tallyRecord (tallyAt s (leAt p.params 0 2))) (touchHome s (leAt p.params 0 2))).unlessRefused
      (tallyRefusal s (leAt p.params 0 2) true false) := by
  unfold tallyQueryBody Reply.unlessRefused
  rw [hlen, hres]
  rfl

theorem tallySignalBody_eq (hlen : p.params.length = 4) (hcount : leAt p.params 2 2 ≠ 0) : tallySignalBody p s =
    (Reply.ok [] (signalAndTake (leAt p.params 0 2) (leAt p.params 2 2) (touchHome s (leAt p.params 0 2)))).unlessRefused
      (tallyRefusal s (leAt p.params 0 2) true true) := by
  unfold tallySignalBody Reply.unlessRefused
  rw [hlen, bne_iff_ne.mpr hcount]
  rfl

theorem tallyArmBody_eq (hlen : p.params.length = 8) (hres : resZero p.params 2 2 = true) : tallyArmBody p s =
    (Reply.ok [] (armTally (leAt p.params 0 2) (leAt p.params 4 4) (touchHome s (leAt p.params 0 2)))).unlessRefused
      (tallyRefusal s (leAt p.params 0 2) true true) := by
  unfold tallyArmBody Reply.unlessRefused
  rw [hlen, hres]
  rfl

theorem tallySetBody_eq (hlen : p.params.length = 8) (hres : resZero p.params 2 2 = true) : tallySetBody p s =
    (Reply.ok (le 4 (tallyAt s (leAt p.params 0 2)).count)
      (setCount (leAt p.params 0 2) (leAt p.params 4 4) (touchHome s (leAt p.params 0 2)))).unlessRefused
      (tallyRefusal s (leAt p.params 0 2) true true) := by
  unfold tallySetBody Reply.unlessRefused
  rw [hlen, hres]
  rfl

end

/-! ### TALLY_ARM (05 R149) -/

theorem armTally_same (t v : Nat) (s : State) : tallyAt (armTally t v s) t =
    { tallyAt s t with arm := v, reached := if v ≠ 0 ∧ v ≤ (tallyAt s t).count then stamp s else 0 } := setTally_same t _ s

theorem armTally_other {t u : Nat} (h : u ≠ t) (v : Nat) (s : State) : tallyAt (armTally t v s) u = tallyAt s u := setTally_other h _ s

/-! ### CORE_STATUS, QP_QUERY and QP_SET -/

section
variable {p : Packet} {s : State}

theorem coreStatusBody_ok (hlen : p.params.length = 4) (hres : resZero p.params 1 3 = true) (hc : byteAt p.params 0 < s.variant.clusters) :
    coreStatusBody p s = .ok ((List.range 8).map (fun i => BitVec.ofNat 8 (coreAt s (8 * byteAt p.params 0 + i)).state) ++
      (List.range 8).map (fun i => BitVec.ofNat 8 (if (coreAt s (8 * byteAt p.params 0 + i)).tile.isSome
        then (coreAt s (8 * byteAt p.params 0 + i)).job else 0xFF))) s := by
  have hgood : ¬ (p.params.length ≠ 4 ∨ !resZero p.params 1 3 ∨ s.variant.clusters ≤ byteAt p.params 0) := by
    simp [hlen, hres, hc]
  unfold coreStatusBody
  simp only [if_neg hgood, List.map_map]
  rfl

theorem qpQueryBody_known {q : Qp} (hlen : p.params.length = 4) (hres : leAt p.params 2 2 = 0) (hq : qpAt s (leAt p.params 0 2) = some q) :
    qpQueryBody p s = .ok (qpRecord (leAt p.params 0 2) q) s := by
  unfold qpQueryBody
  simp [hlen, hres, hq]

theorem qpQueryBody_unknown (hlen : p.params.length = 4) (hres : leAt p.params 2 2 = 0) (hq : qpAt s (leAt p.params 0 2) = none) :
    qpQueryBody p s = .refuse 0x0142 [] := by
  unfold qpQueryBody
  simp [hlen, hres, hq]

/-- The ranges of QP_SET's parameters. -/
structure QpRanges (b : Bytes) : Prop where
  len : b.length = 8
  mode : byteAt b 2 ≤ 2
  low : -16 ≤ sext 8 (byteAt b 3)
  order : sext 8 (byteAt b 3) ≤ sext 8 (byteAt b 4)
  high : sext 8 (byteAt b 4) ≤ 16
  relax : byteAt b 5 ≠ 0
  thresh : leAt b 6 2 ≠ 0

theorem QpRanges.kept {b : Bytes} (h : QpRanges b) : ¬ (b.length ≠ 8 ∨ 2 < byteAt b 2 ∨ sext 8 (byteAt b 4) < sext 8 (byteAt b 3) ∨
    sext 8 (byteAt b 3) < -16 ∨ 16 < sext 8 (byteAt b 4) ∨ byteAt b 5 = 0 ∨ leAt b 6 2 = 0) := by
  obtain ⟨hlen, hmode, hlow, horder, hhigh, hrelax, hthresh⟩ := h
  omega

theorem qpSetBody_known {q : Qp} (h : QpRanges p.params) (hq : qpAt s (leAt p.params 0 2) = some q) :
    qpSetBody p s = .ok [] (modQp (leAt p.params 0 2) (fun q => { q with next := some (byteAt p.params 2, sext 8 (byteAt p.params 3),
      sext 8 (byteAt p.params 4), byteAt p.params 5, leAt p.params 6 2) }) s) := by
  unfold qpSetBody
  simp only [if_neg h.kept, hq]

theorem qpSetBody_unknown (h : QpRanges p.params) (hq : qpAt s (leAt p.params 0 2) = none) : qpSetBody p s = .refuse 0x0142 [] := by
  unfold qpSetBody
  simp only [if_neg h.kept, hq]

end

/-- Settles O27: the tally commands answer unless `tallyRefusal` refuses; the others are their bodies' laws. -/
theorem tallyCommandsAnswer : Obligations.TallyCommandsAnswer := by
  refine ⟨?_, fun t v a => ⟨armTally_same t v a, fun u hu => armTally_other hu v a, rfl⟩, ?_, ?_, ?_⟩
  · rintro dt t h ps s a rfl rfl
    refine ⟨fun hlen hres hok => answers_of rfl ?_, fun hlen hcount hok => answers_of rfl ?_,
      fun hlen hres hok => ⟨answers_of rfl ?_, answers_of rfl ?_⟩, fun st hlen hres hbad => ⟨declines_of rfl ?_, declines_of rfl ?_⟩⟩
    all_goals rintro p rfl _ _
    · rw [tallyQueryBody_eq _ hlen hres, hok, Reply.unlessRefused]
    · rw [tallySignalBody_eq _ hlen hcount, hok, Reply.unlessRefused]
    · rw [tallyArmBody_eq _ hlen hres, hok, Reply.unlessRefused]
    · rw [tallySetBody_eq _ hlen hres, hok, Reply.unlessRefused]
    · rw [tallyArmBody_eq _ hlen hres, hbad, Reply.unlessRefused]
    · rw [tallySetBody_eq _ hlen hres, hbad, Reply.unlessRefused]
  · rintro dt c h ps s a rfl rfl hlen hres hc
    refine answers_of rfl ?_
    rintro p rfl _ _
    exact coreStatusBody_ok hlen hres hc
  · rintro dt n h ps s a rfl rfl hlen hres
    refine ⟨fun q hq => answers_of rfl ?_, fun hq => declines_of rfl ?_⟩ <;> rintro p rfl _ _
    · exact qpQueryBody_known hlen hres hq
    · exact qpQueryBody_unknown hlen hres hq
  · rintro dt n h ps s a rfl rfl hlen hmode hlow horder hhigh hrelax hthresh
    have hranges : QpRanges ps := ⟨hlen, hmode, hlow, horder, hhigh, hrelax, hthresh⟩
    refine ⟨fun q hq => answers_of rfl ?_, fun hq => declines_of rfl ?_⟩ <;> rintro p rfl _ _
    · exact qpSetBody_known hranges hq
    · exact qpSetBody_unknown hranges hq

end Sys2Proof.Machine
end

section
/-! SUPPORT. The sync group of a core: its checks, and each operation on the tally that passes them (05 R147 to R149, R160, R178; 13 R419). -/
namespace Sys2Proof.Machine

/-- The tally that a word of the sync group names. -/
def namedTally (s : State) (c n : Nat) : Nat := if bit n 45 then xr s c (field n 50 46) else field n 44 31

section
variable {s : State} {c n t k : Nat}

theorem syncTally_ok (hallowed : tallyAllowed s c (namedTally s c n) = true) (hrange : namedTally s c n < 16384) :
    syncTally s c n = .ok (namedTally s c n) := if_pos (by simpa using ⟨hallowed, hrange⟩)

theorem syncTally_denied (h : tallyAllowed s c (namedTally s c n) = false ∨ 16384 ≤ namedTally s c n) :
    syncTally s c n = .error (.fault 0x0742) := by
  have hbad : ¬ (tallyAllowed s c (namedTally s c n) && decide (namedTally s c n < 16384)) = true := by
    rcases h with h | h
    · simp [h]
    · simp [Nat.not_lt.mpr h]
  exact if_neg hbad

theorem homeReady_ok (h : sramReady s (stackOf (tallyHome s t)) = true) : homeReady s t = .ok () := if_pos h

/-! ### What a TRY does (05 R149) -/

theorem tryTally_granted (hfirst : (tallyAt s t).waiters = []) (hcount : k ≤ (tallyAt s t).count) :
    tryTally t k s = (true, setTally t { tallyAt s t with count := (tallyAt s t).count - k } s) := by
  unfold tryTally
  exact if_pos ⟨by rw [hfirst]; rfl, hcount⟩

theorem tryTally_refused (h : (tallyAt s t).waiters ≠ [] ∨ (tallyAt s t).count < k) : tryTally t k s = (false, s) := by
  unfold tryTally
  refine if_neg fun ⟨hfirst, hcount⟩ => ?_
  rcases h with h | h
  · exact h (List.isEmpty_iff.mp hfirst)
  · exact Nat.not_le.mpr h hcount

end

/-! ### The operations on a tally -/

/-- COUNT is other than 0, as TSIG, TWAIT, TTRY and TWAITGE ask. -/
def counted (n : Nat) : Bool := field n 30 15 != 0

/-- COUNT is 0, as TSET, TARM and TREAD ask. -/
def uncounted (n : Nat) : Bool := field n 30 15 == 0

/-- The effect checks its COUNT, its tally, and the tally's home, and then does `f` with that tally. -/
def OnTally (eff : Eff) (legal : Nat → Bool) (f : Nat → Nat → Nat → State → State) : Prop :=
  ∀ c n s, eff c n s = (need (legal n) 0x0740 >>= fun _ => syncTally s c n >>= fun t => homeReady s t >>= fun _ => .ok (.step (f c n t s)))

section
variable {dt c o nz : Nat} {w : DWord} {s : State} {i : Instr} {eff : Eff} {legal : Nat → Bool} {f : Nat → Nat → Nat → State → State}

theorem opDefined_sync (h : o ≤ 6) : opDefined 7 o = true := by
  unfold opDefined
  simp [h]

theorem exec_tally_allowed {t : Nat} {u : State} (he : OnTally eff legal f) (hi : exec i s = coreRow 7 o nz eff dt c w s) (ho : o ≤ 6)
    (hlegal : legal w.toNat = true) (ht : t = namedTally (advance dt s) c w.toNat) (hallowed : tallyAllowed (advance dt s) c t = true)
    (hrange : t < 16384) (hready : sramReady (advance dt s) (stackOf (tallyHome (advance dt s) t)) = true)
    (hu : f c w.toNat t (advance dt s) = u) (hr : Runs (advance dt s) c w 7 o nz) :
    exec i s = .next (andNext c (advance dt s) u) := by
  subst ht
  refine core_step hi hr (opDefined_sync ho) ?_
  rw [he, need_bind hlegal, syncTally_ok hallowed hrange, ok_bind, homeReady_ok hready, ok_bind, hu]

theorem exec_tally_illegal (he : OnTally eff legal f) (hi : exec i s = coreRow 7 o nz eff dt c w s) (ho : o ≤ 6)
    (hlegal : legal w.toNat = false) (hr : Runs (advance dt s) c w 7 o nz) : exec i s = .next (coreFault 0x0740 c (advance dt s)) :=
  core_fault hi hr (opDefined_sync ho) (by rw [he, need_bind_fault hlegal])

theorem exec_tally_denied (he : OnTally eff legal f) (hi : exec i s = coreRow 7 o nz eff dt c w s) (ho : o ≤ 6)
    (hlegal : legal w.toNat = true)
    (h : tallyAllowed (advance dt s) c (namedTally (advance dt s) c w.toNat) = false ∨ 16384 ≤ namedTally (advance dt s) c w.toNat)
    (hr : Runs (advance dt s) c w 7 o nz) : exec i s = .next (coreFault 0x0742 c (advance dt s)) :=
  core_fault hi hr (opDefined_sync ho) (by rw [he, need_bind hlegal, syncTally_denied h, error_bind])

/-- The refusals of an operation that asks for a COUNT. -/
theorem exec_counted_refused (he : OnTally eff counted f) (hi : exec i s = coreRow 7 o nz eff dt c w s) (ho : o ≤ 6)
    (hr : Runs (advance dt s) c w 7 o nz) :
    (field w.toNat 30 15 = 0 → exec i s = .next (coreFault 0x0740 c (advance dt s))) ∧
    (field w.toNat 30 15 ≠ 0 →
      tallyAllowed (advance dt s) c (namedTally (advance dt s) c w.toNat) = false ∨ 16384 ≤ namedTally (advance dt s) c w.toNat →
      exec i s = .next (coreFault 0x0742 c (advance dt s))) :=
  ⟨fun hk => exec_tally_illegal he hi ho (bne_eq_false_iff_eq.mpr hk) hr,
    fun hk h => exec_tally_denied he hi ho (bne_iff_ne.mpr hk) h hr⟩

/-- The refusals of an operation that asks for none. -/
theorem exec_uncounted_refused (he : OnTally eff uncounted f) (hi : exec i s = coreRow 7 o nz eff dt c w s) (ho : o ≤ 6)
    (hr : Runs (advance dt s) c w 7 o nz) :
    (field w.toNat 30 15 ≠ 0 → exec i s = .next (coreFault 0x0740 c (advance dt s))) ∧
    (field w.toNat 30 15 = 0 →
      tallyAllowed (advance dt s) c (namedTally (advance dt s) c w.toNat) = false ∨ 16384 ≤ namedTally (advance dt s) c w.toNat →
      exec i s = .next (coreFault 0x0742 c (advance dt s))) :=
  ⟨fun hk => exec_tally_illegal he hi ho (beq_eq_false_iff_ne.mpr hk) hr,
    fun hk h => exec_tally_denied he hi ho (beq_iff_eq.mpr hk) h hr⟩

end

theorem syncCount_bind {β : Type} (n : Nat) (f : Nat → Except Bad β) :
    (syncCount n >>= f) = (need (counted n) 0x0740 >>= fun _ => f (field n 30 15)) := by
  unfold syncCount counted need illegal
  by_cases h : field n 30 15 = 0 <;> simp [h] <;> rfl

theorem tsig_onTally : OnTally tsigEff counted (fun _ n t s => signalAndTake t (field n 30 15) s) := fun _ n _ => syncCount_bind n _

theorem twait_onTally : OnTally twaitEff counted (fun c n t s =>
    if (tryTally t (field n 30 15) s).1 then (tryTally t (field n 30 15) s).2 else waitFor c t false (field n 30 15) s) :=
  fun _ n _ => syncCount_bind n _

theorem ttry_onTally : OnTally ttryEff counted (fun c n t s =>
    setX c (field n 14 10) (b2n (tryTally t (field n 30 15) s).1) (tryTally t (field n 30 15) s).2) := fun _ n _ => syncCount_bind n _

theorem twaitge_onTally : OnTally twaitgeEff counted (fun c n t s =>
    if field n 30 15 ≤ (tallyAt s t).count then s else waitFor c t true (field n 30 15) s) := fun _ n _ => syncCount_bind n _

theorem tset_onTally : OnTally tsetEff uncounted (fun c n t s =>
    setX c (field n 14 10) (tallyAt s t).count (setCount t (xr s c (field n 14 10)) s)) := fun _ _ _ => rfl

theorem tarm_onTally : OnTally tarmEff uncounted (fun c n t s => armTally t (xr s c (field n 14 10)) s) := fun _ _ _ => rfl

theorem tread_onTally : OnTally treadEff uncounted (fun c n t s => setX c (field n 14 10) (tallyAt s t).count s) := fun _ _ _ => rfl

/-! ### SEND (13 R419 to R422) -/

/-- The channel is full, and eight messages of the cluster wait already. -/
def sendStalls (s : State) (c ch : Nat) : Bool :=
  allowed s ch (0x20 + c / 8) && decide ((chanAt s ch).depth ≤ (chanAt s ch).queue.length) &&
    decide (8 ≤ (s.cmd.waiting.filter (fun m => m.sender == 0x20 + c / 8)).length)

section
variable {dt c : Nat} {w : DWord} {s : State}

theorem sendEff_own {n : Nat} (ha : xr s c (field n 50 46) + 64 ≤ s.variant.scratchBytes) :
    sendEff c n s = if sendStalls s c (field n 45 41) then .ok (.stay s)
      else .ok (.step (post (field n 45 41) (0x20 + c / 8) true (ownRead s c (xr s c (field n 50 46)) 64) s)) := by
  show (ownOk s (xr s c (field n 50 46)) 64 1 >>= _) = _
  rw [ownOk_ok (Nat.mod_one _) ha, ok_bind]
  rfl

theorem exec_send_past (hr : Runs (advance dt s) c w 7 0x0A (bits 40 0))
    (ha : (advance dt s).variant.scratchBytes < xr (advance dt s) c (field w.toNat 50 46) + 64) :
    exec (.send dt c w) s = .next (coreFault 0x0741 c (advance dt s)) := by
  refine core_fault (eff := sendEff) rfl hr rfl ?_
  show (ownOk _ _ 64 1 >>= _) = _
  rw [ownOk_fault (.inr ha), error_bind]

theorem sendStalls_false {ch : Nat} (h : allowed s ch (0x20 + c / 8) = false ∨ (chanAt s ch).queue.length < (chanAt s ch).depth ∨
    (s.cmd.waiting.filter (fun m => m.sender == 0x20 + c / 8)).length < 8) : sendStalls s c ch = false := by
  unfold sendStalls
  rcases h with h | h | h
  · simp [h]
  · simp [Nat.not_le.mpr h]
  · simp only [decide_eq_false (Nat.not_le.mpr h), Bool.and_false]

theorem sendStalls_true {ch : Nat} (hallowed : allowed s ch (0x20 + c / 8) = true) (hfull : (chanAt s ch).depth ≤ (chanAt s ch).queue.length)
    (hwait : 8 ≤ (s.cmd.waiting.filter (fun m => m.sender == 0x20 + c / 8)).length) : sendStalls s c ch = true := by
  unfold sendStalls
  rw [hallowed, decide_eq_true hfull, decide_eq_true hwait]
  rfl

end

/-- Settles O39: each operation is an `OnTally`, so its outcomes follow from its COUNT, its tally and its home. -/
theorem syncInstructions : Obligations.SyncInstructions := by
  refine ⟨?_, ?_, ?_⟩
  · rintro dt c n t k w s z rfl rfl ht rfl hallowed hrange hready
    have hrun {eff legal f i o nz u} (he : OnTally eff legal f) (hi : exec i s = coreRow 7 o nz eff dt c w s) (ho : o ≤ 6)
        (hlegal : legal w.toNat = true) (hu : f c w.toNat t (advance dt s) = u) (hr : Runs (advance dt s) c w 7 o nz) :=
      exec_tally_allowed he hi ho hlegal ht hallowed hrange hready hu hr
    refine ⟨fun hr hk => hrun tsig_onTally rfl (by decide) (bne_iff_ne.mpr hk) rfl hr,
      fun hr hk => ⟨fun hfirst hcount => ?_, fun h => ?_⟩, fun hr hk => ⟨fun hfirst hcount => ?_, fun h => ?_⟩,
      fun hr hk => ⟨fun hcount => ?_, fun hcount => ?_⟩, fun hk => ⟨?_, ?_, ?_⟩⟩
    · exact hrun twait_onTally rfl (by decide) (bne_iff_ne.mpr hk) (by rw [tryTally_granted hfirst hcount]; rfl) hr
    · exact hrun twait_onTally rfl (by decide) (bne_iff_ne.mpr hk) (by rw [tryTally_refused h]; rfl) hr
    · exact hrun ttry_onTally rfl (by decide) (bne_iff_ne.mpr hk) (by rw [tryTally_granted hfirst hcount]; rfl) hr
    · exact hrun ttry_onTally rfl (by decide) (bne_iff_ne.mpr hk) (by rw [tryTally_refused h]; rfl) hr
    · exact hrun twaitge_onTally rfl (by decide) (bne_iff_ne.mpr hk) (if_pos hcount) hr
    · exact hrun twaitge_onTally rfl (by decide) (bne_iff_ne.mpr hk) (if_neg (Nat.not_le.mpr hcount)) hr
    · exact hrun tset_onTally rfl (by decide) (beq_iff_eq.mpr hk) rfl
    · exact hrun tarm_onTally rfl (by decide) (beq_iff_eq.mpr hk) rfl
    · exact hrun tread_onTally rfl (by decide) (beq_iff_eq.mpr hk) rfl
  · rintro dt c n t w s z rfl rfl rfl
    simp only [List.forall_mem_cons, List.not_mem_nil, IsEmpty.forall_iff, implies_true, and_true]
    exact ⟨⟨exec_counted_refused tsig_onTally rfl (by decide), exec_counted_refused twait_onTally rfl (by decide),
      exec_counted_refused ttry_onTally rfl (by decide), exec_counted_refused twaitge_onTally rfl (by decide)⟩,
      exec_uncounted_refused tset_onTally rfl (by decide), exec_uncounted_refused tarm_onTally rfl (by decide),
      exec_uncounted_refused tread_onTally rfl (by decide)⟩
  · rintro dt c n a ch w s z rfl rfl rfl rfl hr
    refine ⟨fun ha => ⟨fun h => ?_, fun hallowed hfull hwait => ?_⟩, exec_send_past hr⟩
    · exact core_step (eff := sendEff) rfl hr rfl (by rw [sendEff_own ha, sendStalls_false h]; rfl)
    · exact core_stay (eff := sendEff) rfl hr rfl (by rw [sendEff_own ha, sendStalls_true hallowed hfull hwait]; rfl)

end Sys2Proof.Machine
end

section
/-! SUPPORT. The matrix group: its checks, its operands, and the INT8 accumulation (05 R135, R137, R159; 06 R188, R190, R194). -/
namespace Sys2Proof.Machine

/-! ### The arithmetic of an operation -/

section
variable {op : Nat}

theorem macOf_tables (h : op ≤ 5) : (macOf op).tables = decide (4 ≤ op) := by interval_cases op <;> rfl

theorem macOf_es (h : op ≤ 5) : (macOf op).es = if op = 3 then 2 else 1 := by interval_cases op <;> rfl

theorem macOf_intA (h : op ≤ 5) : (macOf op).intA = true ↔ op = 0 ∨ op = 4 := by interval_cases op <;> decide

theorem macOf_tileFp (h : op ≤ 5) : (macOf op).tileFp = decide (op ≠ 0) := by interval_cases op <;> rfl

end

/-! ### The checks at issue -/

section
variable {s : State} {op c n : Nat}

/-- The checks of a word's fields: its tile, its group-scale register, and UA. -/
def matrixFieldsOk (op n : Nat) : Bool :=
  decide (field n 50 45 < 48) && ((macOf op).tables || field n 20 17 == 0) && ((macOf op).intA || !bit n 43)

theorem matrixFieldsOk_of (hop : op ≤ 5) (ht : field n 50 45 < 48) (hg : 4 ≤ op ∨ field n 20 17 = 0)
    (hua : op = 0 ∨ op = 4 ∨ bit n 43 = false) : matrixFieldsOk op n = true := by
  have hscale : ((macOf op).tables || field n 20 17 == 0) = true := by simpa [macOf_tables hop] using hg
  have hsign : ((macOf op).intA || !bit n 43) = true := by simpa [macOf_intA hop, or_assoc] using hua
  rw [matrixFieldsOk, decide_eq_true ht, hscale, hsign]
  rfl

theorem formatOk_ok {t : Nat} {zeroed isFp : Bool} (h : zeroed = true ∨ (tileAt s c t).fp = isFp) : formatOk s c t zeroed isFp = .ok () :=
  need_ok (by simpa using h)

theorem formatOk_disagrees {t : Nat} {isFp : Bool} (h : (tileAt s c t).fp ≠ isFp) : formatOk s c t false isFp = .error (.fault 0x0740) :=
  need_fault (by simpa using h)

theorem matrixOk_ok (hfields : matrixFieldsOk op n = true) (hformat : formatOk s c (field n 50 45) (bit n 44) (macOf op).tileFp = .ok ())
    (hscales : (macOf op).tables = true → scalesOk s (gOf s c n) (field n 32 21 + 1) = .ok ())
    (ha : ownOk s (xr s c (field n 42 38)) (16 * (macOf op).es * (field n 32 21 + 1)) 64 = .ok ())
    (hb : ownOk s (xr s c (field n 37 33)) (bBytes (macOf op) (field n 32 21 + 1)) 64 = .ok ()) : matrixOk op s c n = .ok () := by
  unfold matrixFieldsOk at hfields
  unfold matrixOk
  simp only [need_bind hfields, hformat, ok_bind, ha, hb]
  split
  · rw [hscales ‹_›, ok_bind]
  · rfl

/-- A disagreeing format is illegal, and so are the fields checked before it. -/
theorem matrixOk_disagrees (hzero : bit n 44 = false) (hfp : (tileAt s c (field n 50 45)).fp ≠ (macOf op).tileFp) :
    matrixOk op s c n = .error (.fault 0x0740) := by
  unfold matrixOk
  simp only [hzero, formatOk_disagrees hfp, error_bind]
  cases hfields : decide (field n 50 45 < 48) && ((macOf op).tables || field n 20 17 == 0) && ((macOf op).intA || !bit n 43)
  · exact need_bind_fault rfl _
  · exact need_bind rfl _

end

/-! ### The instructions -/

section
variable {dt c op : Nat} {w : DWord} {s : State} {i : Instr}

theorem opDefined_matrix (h : op ≤ 5) : opDefined 3 op = true := by
  unfold opDefined
  simp [h]

theorem exec_matrix_run {u : State} (hi : exec i s = coreRow 3 op (bits 16 0) (matrixEff op) dt c w s) (hop : op ≤ 5)
    (hu : (matrixLong op c w.toNat (coreAt (advance dt s) c).r.x (gOf (advance dt s) c w.toNat)).run 0 (field w.toNat 32 21 + 1)
      (advance dt s) = u)
    (hr : Runs (advance dt s) c w 3 op (bits 16 0)) (hok : matrixOk op (advance dt s) c w.toNat = .ok ()) :
    exec i s = .next (andNext c (advance dt s) u) := by
  refine core_step hi hr (opDefined_matrix hop) ?_
  unfold matrixEff
  rw [hok, ok_bind, ← hu]
  rfl

theorem exec_matrix_fault {st : Nat} (hi : exec i s = coreRow 3 op (bits 16 0) (matrixEff op) dt c w s) (hop : op ≤ 5)
    (hr : Runs (advance dt s) c w 3 op (bits 16 0)) (hbad : matrixOk op (advance dt s) c w.toNat = .error (.fault st)) :
    exec i s = .next (coreFault st c (advance dt s)) := by
  refine core_fault hi hr (opDefined_matrix hop) ?_
  unfold matrixEff
  rw [hbad, error_bind]

/-- All rows of TLOAD at once. -/
theorem tloadLong_run (c n : Nat) (x : List Word) (s : State) : (tloadLong c n x).run 0 16 s =
    setTile c (field n 50 45) (tileOf (bit n 43) (fun i j =>
      if i < 16 then BitVec.ofNat 32 (ownLe s c (xOf x (field n 42 38) + 256 * i + 4 * j) 4)
      else cell (tileAt s c (field n 50 45)) i j)) s := by
  unfold tloadLong
  simp only [Nat.zero_le, true_and]

theorem exec_tload (hr : Runs (advance dt s) c w 3 0x10 (bits 37 0)) (ht : field w.toNat 50 45 < 48) (hzero : bit w.toNat 44 = true)
    (ha : xr (advance dt s) c (field w.toNat 42 38) + 4096 ≤ (advance dt s).variant.scratchBytes) :
    exec (.tload dt c w) s = .next (andNext c (advance dt s)
      ((tloadLong c w.toNat (coreAt (advance dt s) c).r.x).run 0 16 (advance dt s))) := by
  refine core_step (eff := tloadEff) rfl hr rfl ?_
  unfold tloadEff
  rw [need_bind (by simp [ht, hzero]), ownOk_ok (Nat.mod_one _) ha, ok_bind]
  rfl

end

/-! ### INT8: an exact sum, saturated to INT32 (06 R188) -/

theorem ofNat_twos (i : Int) : BitVec.ofNat 32 (twos 32 i) = BitVec.ofInt 32 i := by
  apply BitVec.eq_of_toNat_eq
  rw [BitVec.toNat_ofNat, BitVec.toNat_ofInt, twos]
  omega

theorem hold_int32 (i : Int) : (BitVec.ofNat 32 (rInt32.hold i).code, (rInt32.hold i).clip) =
    if i < -2147483648 then ((0x80000000 : Word), true) else if 2147483647 < i then (0x7FFFFFFF, true) else (BitVec.ofInt 32 i, false) := by
  unfold IntRange.hold rInt32 clampI
  split
  · simp [*]
    rfl
  · split
    · simp [*]
      rfl
    · simp [*, ofNat_twos]

/-- Settles O34: the checks of a word, the run of each operation, and the saturation of an INT8 cell. -/
theorem matrixInstructions : Obligations.MatrixInstructions := by
  refine ⟨?_, ?_, ?_⟩
  · rintro op c n k t xa xb a hop rfl rfl rfl rfl
    refine ⟨fun ht hg hua hfp hscales halign hend balign bend => ?_, fun hzero hfp => matrixOk_disagrees hzero (macOf_tileFp hop ▸ hfp)⟩
    refine matrixOk_ok (matrixFieldsOk_of hop ht hg hua) (formatOk_ok (macOf_tileFp hop ▸ hfp))
      (fun h => hscales (by simpa [macOf_tables hop] using h)) (ownOk_ok halign ?_) (ownOk_ok balign ?_)
    · rwa [macOf_es hop]
    · simpa only [bBytes, macOf_tables hop, macOf_es hop, decide_eq_true_eq] using bend
  · rintro dt c n k t xa xb w s a rfl rfl rfl rfl rfl rfl
    simp only [List.forall_mem_cons, List.not_mem_nil, IsEmpty.forall_iff, implies_true, and_true, forall_eq]
    refine ⟨⟨exec_matrix_run rfl (by decide) rfl, exec_matrix_run rfl (by decide) rfl, exec_matrix_run rfl (by decide) rfl,
      exec_matrix_run rfl (by decide) rfl⟩, ⟨exec_matrix_run rfl (by decide) rfl, exec_matrix_run rfl (by decide) rfl⟩,
      ⟨exec_matrix_fault rfl (by decide), exec_matrix_fault rfl (by decide), exec_matrix_fault rfl (by decide),
        exec_matrix_fault rfl (by decide), exec_matrix_fault rfl (by decide), exec_matrix_fault rfl (by decide)⟩,
      fun hr ht hzero ha => ?_⟩
    rw [exec_tload hr ht hzero ha, tloadLong_run]
    rfl
  · rintro c g i j lo hi o base v a rfl
    exact hold_int32 _

end Sys2Proof.Machine
end

section
/-! SUPPORT. The vector group and DRAIN (05 R161; 06 R196 to R198). -/
namespace Sys2Proof.Machine

/-! ### The tree of RSUM and RMAX (06 R196) -/

/-- Neighbours in pairs, by position. -/
def pairLevel (f : Word → Word → Word) (l : List Word) : List Word :=
  (List.range (l.length / 2)).map (fun i => f (nth l (2 * i) 0) (nth l (2 * i + 1) 0))

@[simp] theorem pairLevel_length (f : Word → Word → Word) (l : List Word) : (pairLevel f l).length = l.length / 2 := by simp [pairLevel]

theorem pairUp_eq_pairLevel (f : Word → Word → Word) {n : Nat} {l : List Word} (h : l.length = 2 * n) : pairUp f l = pairLevel f l := by
  induction n generalizing l with
  | zero =>
    obtain rfl : l = [] := List.length_eq_zero_iff.mp h
    rfl
  | succ n ih =>
    obtain ⟨a, b, l, rfl⟩ : ∃ a b r, l = a :: b :: r := by
      match l, h with
      | a :: b :: r, _ => exact ⟨a, b, r, rfl⟩
    have hl : l.length = 2 * n := by simp only [List.length_cons] at h; omega
    rw [pairUp, ih hl]
    unfold pairLevel
    rw [show (a :: b :: l).length / 2 = l.length / 2 + 1 by simp only [List.length_cons]; omega, List.range_succ_eq_map, List.map_cons,
      List.map_map]
    rfl

theorem iterate_pairUp (f : Word → Word → Word) {k : Nat} {l : List Word} (h : l.length = 2 ^ k) :
    (pairUp f)^[k] l = (pairLevel f)^[k] l := by
  induction k generalizing l with
  | zero => rfl
  | succ k ih =>
    have hhalf : (pairLevel f l).length = 2 ^ k := by simp [h, pow_succ]
    rw [Function.iterate_succ_apply, Function.iterate_succ_apply, pairUp_eq_pairLevel f (h.trans (pow_succ' 2 k)), ih hhalf]

/-- Over 64 lanes the tree is six levels of neighbours. -/
theorem tree_eq_levels (f : Word → Word → Word) {l : List Word} (h : l.length = 64) :
    tree f l = nth ((List.range 6).foldl (fun t _ => pairLevel f t) l) 0 0 :=
  congrArg (fun t => nth t 0 0) (iterate_pairUp f (k := 6) h)

/-! ### Lanes -/

section
variable {dt c op : Nat} {w : DWord} {s : State} {i : Instr}

/-- An operation of the vector group on lanes, as `f` on integers and as `g` on FP32. -/
theorem exec_vector_lanes {f g : Word → Word → Word → Word} (hi : exec i s = coreRow 4 op (bits 31 0) (vectorEff op) dt c w s)
    (hop : op ≤ 4) (hf : laneOp op true = f) (hg : laneOp op false = g) (hr : Runs (advance dt s) c w 4 op (bits 31 0)) :
    exec i s = .next (andNext c (advance dt s) (setV c (field w.toNat 50 48)
      (lanes3 (if bit w.toNat 35 then f else g) (vr (advance dt s) c (field w.toNat 50 48)) (vr (advance dt s) c (field w.toNat 47 45))
        (vs2 (advance dt s) c w.toNat)) (advance dt s))) := by
  have hlane : laneOp op (bit w.toNat 35) = if bit w.toNat 35 then f else g := by cases bit w.toNat 35 <;> simp [hf, hg]
  refine core_step hi hr (by simp [opDefined, hop]) ?_
  unfold vectorEff
  simp only [show ¬ 0x08 ≤ op by omega, decide_false, Bool.and_false, Bool.false_eq_true, if_false, hlane]

/-- A function of one operand has no integer form: the spec gives it no result. -/
theorem exec_vector_unary {f : Fp → Fp} (hi : exec i s = coreRow 4 op (bits 31 0) (vectorEff op) dt c w s) (hd : opDefined 4 op = true)
    (hop : 0x08 ≤ op) (hf : ∀ d x y, laneOp op false d x y = r32 (f (fp x))) (hr : Runs (advance dt s) c w 4 op (bits 31 0)) :
    (bit w.toNat 35 = false → exec i s = .next (andNext c (advance dt s) (setV c (field w.toNat 50 48)
      ((List.range 64).map (fun i => r32 (f (fp (nth (vr (advance dt s) c (field w.toNat 47 45)) i 0))))) (advance dt s)))) ∧
    (bit w.toNat 35 = true → ∃ l : List Word, l.length = 64 ∧ exec i s = .next (andNext c (advance dt s)
      (setV c (field w.toNat 50 48) l { advance dt s with freeCtr := (advance dt s).freeCtr + 64 }))) := by
  refine ⟨fun hfp => core_step hi hr hd ?_, fun hint => ⟨(freeLanes (advance dt s)).1, by simp [freeLanes], core_step hi hr hd ?_⟩⟩
  · unfold vectorEff lanes3
    simp only [hfp, Bool.false_and, Bool.false_eq_true, if_false, hf]
  · unfold vectorEff
    simp only [hint, hop, decide_true, Bool.and_true, if_true]
    rfl

/-! ### CVT -/

/-- The lanes that CVT reads, converted. -/
def cvtElements (s : State) (c n : Nat) : List Converted :=
  (vr s c (field n 47 45)).map (fun x => if bit n 35 then narrowInt (field n 34 32) x else convertTo (field n 34 32) (fp x))

theorem cvtEff_ok {n : Nat} (h : field n 34 32 ≤ 5) : cvtEff c n s = .ok (.step (countEvents c (clipsIn (cvtElements s c n))
    (nansIn (cvtElements s c n)) 0 (setV c (field n 50 48) ((cvtElements s c n).map (fun x => BitVec.ofNat 32 x.code)) s))) :=
  need_bind (decide_eq_true h) _

theorem cvtEff_illegal {n : Nat} (h : 5 < field n 34 32) : cvtEff c n s = .error (.fault 0x0740) :=
  need_bind_fault (decide_eq_false (Nat.not_le.mpr h)) _

/-! ### DRAIN (05 R161; 06 R197, R198) -/

/-- The tile and OUTFMT of DRAIN are in their ranges. -/
def drainFieldsOk (n : Nat) : Bool := decide (field n 50 45 < 48) && decide (field n 34 32 ≤ 6)

theorem drainFieldsOk_true {n : Nat} (ht : field n 50 45 < 48) (hf : field n 34 32 ≤ 6) : drainFieldsOk n = true := by
  simp [drainFieldsOk, ht, hf]

theorem drainFieldsOk_false {n : Nat} (h : 48 ≤ field n 50 45 ∨ 6 < field n 34 32) : drainFieldsOk n = false := by
  simpa [drainFieldsOk, or_iff_not_imp_left] using h

theorem drainEff_eq (c n : Nat) (s : State) : drainEff c n s = (need (drainFieldsOk n) 0x0740 >>= fun _ =>
    ownOk s (xr s c (field n 39 35)) 576 64 >>= fun _ =>
    need (scaleBlockOk s c (field n 31 29) (scaleBlock s c (xr s c (field n 39 35)))) 0x0740 >>= fun _ =>
    ownOk s (xr s c (field n 44 40)) (1024 * outBytes (field n 34 32)) 1 >>= fun _ =>
    .ok (.step ((drainLong c n (coreAt s c).r.x).run 0 16 s))) := rfl

end

/-- Settles O35: lanes, reductions and conversions by their effects' laws, DRAIN by its checks in their order, the tree by its levels. -/
theorem vectorInstructions : Obligations.VectorInstructions := by
  refine ⟨?_, fun f l h => tree_eq_levels f h⟩
  rintro dt c n d a b o w s z rfl rfl rfl rfl rfl rfl
  simp only [List.forall_mem_cons, List.not_mem_nil, IsEmpty.forall_iff, implies_true, and_true]
  refine ⟨⟨exec_vector_lanes rfl (by decide) rfl rfl, exec_vector_lanes rfl (by decide) rfl rfl, exec_vector_lanes rfl (by decide) rfl rfl,
      exec_vector_lanes rfl (by decide) rfl rfl, exec_vector_lanes rfl (by decide) rfl rfl⟩,
    ⟨exec_vector_unary rfl rfl (by decide) (fun _ _ _ => rfl), exec_vector_unary rfl rfl (by decide) (fun _ _ _ => rfl),
      exec_vector_unary rfl rfl (by decide) (fun _ _ _ => rfl)⟩,
    fun hr => core_step (eff := reduceEff false) rfl hr rfl rfl, fun hr => core_step (eff := reduceEff true) rfl hr rfl rfl,
    fun hr => ⟨?_, fun hf => core_fault (eff := cvtEff) rfl hr rfl (cvtEff_illegal hf)⟩, ?_⟩
  · rintro e hf rfl
    exact core_step (eff := cvtEff) rfl hr rfl (cvtEff_ok hf)
  · rintro xs xo rfl rfl hr
    refine ⟨fun ht hf halign hend hblock hout => ?_, fun hbad => ?_, fun ht hf hplace => ?_⟩
    · refine core_step (eff := drainEff) rfl hr rfl ?_
      rw [drainEff_eq, need_bind (drainFieldsOk_true ht hf), ownOk_ok halign hend, ok_bind, need_bind hblock, ownOk_ok (Nat.mod_one _) hout,
        ok_bind]
    · exact core_fault (eff := drainEff) rfl hr rfl (by rw [drainEff_eq, need_bind_fault (drainFieldsOk_false hbad)])
    · exact core_fault (eff := drainEff) rfl hr rfl (by
        rw [drainEff_eq, need_bind (drainFieldsOk_true ht hf), ownOk_fault hplace, error_bind])

end Sys2Proof.Machine
end

section
/-! SUPPORT. Requests to stop, context saves and restores, and the mask units (05 R170 to R176; 10 R303, R305; 11 R341, R342). -/
namespace Sys2Proof.Machine

/-! ### Requests to stop (05 R170; 10 R303) -/

section
variable {dt c : Nat} {s : State}

theorem exec_preemptionRequest_cluster {k mask : Nat} {stops : List StopPoint} (hawake : awake (advance dt s) = true)
    (hk : k < (advance dt s).variant.clusters) : exec (.preemptionRequest dt k mask stops) s =
      .next (dispatchAll (((bitsOf 8 mask).map (8 * k + ·)).foldl (fun s c => askCore stops c s)
        (if ((bitsOf 8 mask).map (8 * k + ·)).any (fun c => ((coreAt (advance dt s) c).state == 2 || (coreAt (advance dt s) c).state == 3)
          && mayPreempt (advance dt s) c) then servCount 0 1 (advance dt s) else advance dt s))) :=
  congrArg Host.Outcome.next (if_pos (by simp [hawake, hk]))

/-- A request that finds no stop point only asks. -/
theorem askCore_nil (c : Nat) (s : State) : askCore [] c s =
    if ((coreAt s c).state = 2 ∨ (coreAt s c).state = 3) ∧ mayPreempt s c then modCore c (fun k => { k with state := 4, askedAt := stamp s }) s
    else if (coreAt s c).state = 6 then modCore c (fun k => { k with heldRequest := true }) s
    else s := rfl

theorem askCore_taken (hstate : (coreAt s c).state = 2 ∨ (coreAt s c).state = 3) (hmay : mayPreempt s c = true) :
    askCore [] c s = modCore c (fun k => { k with state := 4, askedAt := stamp s }) s := (askCore_nil c s).trans (if_pos ⟨hstate, hmay⟩)

theorem askCore_restoring (hstate : (coreAt s c).state = 6) : askCore [] c s = modCore c (fun k => { k with heldRequest := true }) s := by
  rw [askCore_nil, if_neg (by simp [hstate]), if_pos hstate]

theorem askCore_other (h2 : (coreAt s c).state ≠ 2) (h3 : (coreAt s c).state ≠ 3) (h6 : (coreAt s c).state ≠ 6) : askCore [] c s = s := by
  rw [askCore_nil, if_neg (by simp [h2, h3]), if_neg h6]

/-! ### The save (05 R171 to R174) -/

/-- The state in which the context of a tile, `x`, has been written to its block. -/
def contextStored (c : Nat) (d : TileDesc) (x : Context) (s : State) : State :=
  let b := contextSpan s.variant x
  let t := servEvent 5 (contextNote s c b x) (servCount 1 1 s)
  { t with
    ddr := Memory.writeN t.ddr d.ctxBase (contextBytes t.variant x), ctxs := Tab.set t.ctxs d.ctxBase x
    ctxCounts := { t.ctxCounts with saves := inc32 t.ctxCounts.saves 1, bytes := sat (2 ^ 64 - 1) (t.ctxCounts.bytes + b) } }

/-- The core is idle, and its context transfer's charge returns. -/
def coreSaved (c : Nat) (s : State) : State :=
  dispatchAll (retryWaiting (giveBack (.context c) (modCore c (fun k =>
    { k with state := 1, tile := none, waitGranted := false, stalled := none, r := { k.r with dmaq := [], part := [], wait := none } }) s)))

theorem exec_contextValid_charged {d : TileDesc} (hawake : awake (advance dt s) = true) (hstate : (coreAt (advance dt s) c).state = 5)
    (hawake' : awake (contextCharge c (advance dt s)) = true) (hstate' : (coreAt (contextCharge c (advance dt s)) c).state = 5)
    (htile : (coreAt (contextCharge c (advance dt s)) c).tile = some d)
    (hholds : holds (contextCharge c (advance dt s)) (.context c) = true) :
    exec (.contextValid dt c) s = .next (match (if d.liveSave then liveExtents (contextCharge c (advance dt s)) d else some []) with
      | none => coreFault 0x0744 c (contextCharge c (advance dt s))
      | some l => coreSaved c (contextStored c d (contextOf (contextCharge c (advance dt s)) c d l) (contextCharge c (advance dt s)))) := by
  show execContextValid dt c s = _
  unfold execContextValid
  simp only [hawake, hstate, BEq.rfl, Bool.and_self, if_true, htile, hawake', hstate', hholds, Bool.not_true, bne_self_eq_false, Bool.or_self,
    Bool.false_eq_true, if_false]
  rfl

/-! ### The restore (05 R174 to R176; 10 R305) -/

/-- What a restore does once the core's die is awake: a refusal, or the start of the restore where the loop restores this context now. -/
def restoreOnto (c ctx : Nat) (s : State) : State :=
  match restoreRefusal s c (Tab.find s.ctxs ctx), Tab.find s.ctxs ctx with
  | some st, _ => { s with cmd := { s.cmd with fwReply := le 2 st } }
  | none, some x =>
    if restoresNow s c x then contextCharge c (modCore c (fun k => { k with state := 6, restoring := some ctx, askedAt := stamp s }) s) else s
  | none, none => s

theorem exec_restore_awake {ctx : Nat} (hawake : awake (advance dt s) = true) (hc : c < (advance dt s).variant.cores)
    (hstack : stackAt (advance dt s) (stackOf (c / 8)) = .awake) :
    exec (.restore dt c ctx) s = .next (restoreOnto c ctx (advance dt s)) := by
  show execRestore dt c ctx s = _
  unfold execRestore
  simp only [hawake, decide_eq_false (Nat.not_le.mpr hc), Bool.not_true, Bool.or_self, Bool.false_eq_true, if_false, hstack,
    bne_self_eq_false]
  rfl

theorem restoreOnto_refused {ctx st : Nat} {x : Option Context} (hx : Tab.find s.ctxs ctx = x) (hst : restoreRefusal s c x = some st) :
    restoreOnto c ctx s = { s with cmd := { s.cmd with fwReply := le 2 st } } := by
  unfold restoreOnto
  rw [hx, hst]

theorem restoreOnto_starts {ctx : Nat} {x : Context} (hx : Tab.find s.ctxs ctx = some x) (hok : restoreRefusal s c (some x) = none)
    (hnow : restoresNow s c x = true) : restoreOnto c ctx s =
      contextCharge c (modCore c (fun k => { k with state := 6, restoring := some ctx, askedAt := stamp s }) s) := by
  unfold restoreOnto
  rw [hx, hok]
  exact if_pos hnow

theorem restoreRefusal_busy (x : Option Context) (h : (coreAt s c).state ≠ 1) : restoreRefusal s c x = some 0x0440 := if_pos h

theorem restoreRefusal_idle_none (h : (coreAt s c).state = 1) : restoreRefusal s c none = some 0x0442 := if_neg (not_not_intro h)

theorem restoreRefusal_idle_some (x : Context) (h : (coreAt s c).state = 1) : restoreRefusal s c (some x) =
    if x.kind = 1 ∧ x.tag ≠ (coreAt s c).tag then some 0x0441
    else if ctxFormat s x ≠ 1 ∨ x.variant ≠ s.variant.code then some 0x0442 else none := if_neg (not_not_intro h)

theorem restoreRefusal_tag {x : Context} (h : (coreAt s c).state = 1) (hkind : x.kind = 1) (htag : x.tag ≠ (coreAt s c).tag) :
    restoreRefusal s c (some x) = some 0x0441 := by rw [restoreRefusal_idle_some x h, if_pos ⟨hkind, htag⟩]

theorem restoreRefusal_format {x : Context} (h : (coreAt s c).state = 1) (htag : x.kind = 1 → x.tag = (coreAt s c).tag)
    (hbad : ctxFormat s x ≠ 1 ∨ x.variant ≠ s.variant.code) : restoreRefusal s c (some x) = some 0x0442 := by
  rw [restoreRefusal_idle_some x h, if_neg (fun k => k.2 (htag k.1)), if_pos hbad]

theorem restoreRefusal_fits {x : Context} (h : (coreAt s c).state = 1) (htag : x.kind = 1 → x.tag = (coreAt s c).tag)
    (hformat : ctxFormat s x = 1) (hvariant : x.variant = s.variant.code) : restoreRefusal s c (some x) = none := by
  rw [restoreRefusal_idle_some x h, if_neg (fun k => k.2 (htag k.1)), if_neg (by simp [hformat, hvariant])]

/-- The state in which the context `x` has gone from DDR4. -/
def contextTaken (c : Nat) (x : Context) (s : State) : State :=
  let b := contextSpan s.variant x
  let t := servEvent 6 (contextNote s c b x) (servCount 2 1 s)
  { t with
    ctxs := Tab.erase t.ctxs x.tile.ctxBase
    ctxCounts := { t.ctxCounts with restores := inc32 t.ctxCounts.restores 1, bytes := sat (2 ^ 64 - 1) (t.ctxCounts.bytes + b) } }

/-- The core has its registers, its wait and its recorded instructions again, and its context transfer's charge returns. -/
def coreRestored (c : Nat) (x : Context) (s : State) : State :=
  retryWaiting (giveBack (.context c) (x.regs.part.foldl (fun s p => finishPart c p s)
    (rewait c (setMap x.job x.lcore (some c) (putContext c x s)))))

theorem exec_restoreComplete_charged {ctx : Nat} {x : Context} (hawake : awake (advance dt s) = true)
    (hstate : (coreAt (advance dt s) c).state = 6) (hawake' : awake (contextCharge c (advance dt s)) = true)
    (hstate' : (coreAt (contextCharge c (advance dt s)) c).state = 6)
    (hctx : (coreAt (contextCharge c (advance dt s)) c).restoring = some ctx)
    (hx : Tab.find (contextCharge c (advance dt s)).ctxs ctx = some x) (hholds : holds (contextCharge c (advance dt s)) (.context c) = true) :
    exec (.restoreComplete dt c) s = .next (dispatchAll (modCore c (fun k => { k with
      heldRequest := false
      state := if (coreAt (coreRestored c x (contextTaken c x (contextCharge c (advance dt s)))) c).heldRequest && (k.state == 2 || k.state == 3)
        then 4 else k.state }) (coreRestored c x (contextTaken c x (contextCharge c (advance dt s)))))) := by
  show execRestoreComplete dt c s = _
  unfold execRestoreComplete
  simp only [hawake, hstate, BEq.rfl, Bool.and_self, if_true, hctx, Option.bind_some, hx, hawake', hstate', hholds, Bool.not_true,
    bne_self_eq_false, Bool.or_self, Bool.false_eq_true, if_false]
  rfl

end

/-! ### The mask units (11 R341, R342) -/

section
variable {dt k : Nat} {l : MaskList} {r : List MaskList} {s : State}

/-- The header of the list, and the request that comes next. -/
def maskHeader (s : State) (k : Nat) (l : MaskList) : Bytes := Memory.readN (clusterAt s k).commons l.offset 16
def maskNext (s : State) (k : Nat) (l : MaskList) : Bytes := Memory.readN (clusterAt s k).commons (l.offset + 16 + 32 * l.done) 32

theorem exec_maskRequest_bad (hawake : awake (advance dt s) = true) (hl : (maskUnit (advance dt s) k).lists = l :: r)
    (hbad : maskHeaderOk (advance dt s) (maskHeader (advance dt s) k l) = false ∨
      maskRequestOk (advance dt s) (maskNext (advance dt s) k l) = false) :
    exec (.maskRequest dt k) s = .next (raiseFault 0x0780 2 k 0 (advance dt s)) := by
  unfold maskHeader maskNext at hbad
  show execMaskRequest dt k s = _
  unfold execMaskRequest
  simp only [hl, hawake]
  rcases hbad with h | h <;> simp [h]

/-- Where every place can be reached, a search for one that cannot finds none. -/
theorem find?_of_ready {pl : List (Option Loc)} (hready : ∀ o ∈ pl, ∃ a, o = some a ∧ sramReady s (stackOf a.cluster) = true)
    (p : Option Loc → Bool) (hp : ∀ a : Loc, sramReady s (stackOf a.cluster) = true → p (some a) = false) : pl.find? p = none := by
  refine List.find?_eq_none.mpr fun o ho => ?_
  obtain ⟨a, rfl, ha⟩ := hready o ho
  simp [hp a ha]

/-- The masks of the rows at their places. -/
def writeMasks (q : Bytes) (pl : List (Option Loc)) (s : State) : State :=
  (pl.zip (maskStates s q)).foldl (fun s e => match e.1 with
    | some a => writeLoc a (maskOfState s (byteAt q 0) e.2) s
    | none => s) s

/-- The unit counts the masks, and goes on to the next request or the next list. -/
def maskCounted (k : Nat) (l : MaskList) (h q : Bytes) (s : State) : State :=
  let u := modMask k (fun x => { x with
    masksRc := sat 0xFFFF (x.masksRc + byteAt q 1), grammar := byteAt q 0 % 64
    lists := if l.done + 1 = leAt h 0 2 then x.lists.drop 1 else modNth x.lists 0 (fun y => { y with done := y.done + 1 }) }) s
  { u with text := { u.text with counts := modNth u.text.counts 1 (fun x => inc32 x (byteAt q 1)) } }

theorem exec_maskRequest_done {pl : List (Option Loc)} (hawake : awake (advance dt s) = true)
    (hl : (maskUnit (advance dt s) k).lists = l :: r) (hheader : maskHeaderOk (advance dt s) (maskHeader (advance dt s) k l) = true)
    (hrequest : maskRequestOk (advance dt s) (maskNext (advance dt s) k l) = true)
    (hpl : maskPlaces (advance dt s) l (maskNext (advance dt s) k l) = .ok pl)
    (hready : ∀ o ∈ pl, ∃ a, o = some a ∧ sramReady (advance dt s) (stackOf a.cluster) = true) :
    exec (.maskRequest dt k) s = .next ((List.range (byteAt (maskNext (advance dt s) k l) 1)).foldl
      (fun t _ => signalTally (leAt (maskHeader (advance dt s) k l) 2 2) 1 t)
      (maskCounted k l (maskHeader (advance dt s) k l) (maskNext (advance dt s) k l)
        (writeCommons k (l.offset + 16 + 32 * l.done + 24) ((maskStates (advance dt s) (maskNext (advance dt s) k l)).flatMap (le 2))
          (writeMasks (maskNext (advance dt s) k l) pl (advance dt s))))) := by
  unfold maskHeader at hheader
  unfold maskNext at hrequest hpl
  show execMaskRequest dt k s = _
  unfold execMaskRequest
  simp only [hl, hawake, hheader, hrequest, hpl, Bool.not_true, Bool.or_self, Bool.false_eq_true, if_false]
  rw [find?_of_ready hready _ (fun a ha => by simp [ha])]
  rfl

end

/-- Settles O41, clause by clause from the laws of the rows above. -/
theorem preemptionAndMasks : Obligations.PreemptionAndMasks := by
  refine ⟨?_, fun c z => ⟨askCore_taken, askCore_restoring, askCore_other⟩, ?_, ?_, ?_, ?_⟩
  · rintro dt k mask stops s z rfl hawake hk
    exact exec_preemptionRequest_cluster hawake hk
  · rintro dt c d s z rfl hawake hstate hawake' hstate' htile hholds
    have hexec := exec_contextValid_charged hawake hstate hawake' hstate' htile hholds
    refine ⟨?_, fun hlive hbad => ?_⟩
    · rintro l x b t u hl rfl rfl rfl rfl
      rw [hexec, hl]
      rfl
    · rw [hexec, if_pos hlive, hbad]
  · rintro dt c ctx s z rfl hawake hc hstack
    simp only [exec_restore_awake hawake hc hstack]
    refine ⟨fun x hx hidle htag hformat hvariant hnow => ?_, fun hbusy => ?_, fun x hx hidle hkind htag => ?_,
      fun x hx hidle htag hbad => ?_, fun hx hidle => ?_⟩
    · rw [restoreOnto_starts hx (restoreRefusal_fits hidle htag hformat hvariant) hnow]
    · rw [restoreOnto_refused rfl (restoreRefusal_busy _ hbusy)]
    · rw [restoreOnto_refused hx (restoreRefusal_tag hidle hkind htag)]
    · rw [restoreOnto_refused hx (restoreRefusal_format hidle htag hbad)]
    · rw [restoreOnto_refused hx (restoreRefusal_idle_none hidle)]
  · rintro dt c ctx x s z t u v rfl hawake hstate hawake' hstate' hctx hx hholds rfl rfl rfl
    exact exec_restoreComplete_charged hawake hstate hawake' hstate' hctx hx hholds
  · rintro dt k n l r m h q s z rfl hawake hl rfl rfl rfl rfl
    refine ⟨?_, exec_maskRequest_bad hawake hl⟩
    rintro pl t u v hheader hrequest hpl hready rfl rfl rfl
    exact exec_maskRequest_done hawake hl hheader hrequest hpl hready

end Sys2Proof.Machine
end

section
/-! SUPPORT. Zero-run coding and its expansion (07 R221, R222). -/
namespace Sys2Proof.Machine

/-! ### Runs of zeros and of literals (07 R221) -/

theorem zeroRun_le (n : Nat) (l : Bytes) : zeroRun n l ≤ n := by
  induction n generalizing l with
  | zero => exact Nat.le_refl 0
  | succ n ih =>
    cases l with
    | nil => exact Nat.zero_le _
    | cons b l =>
      have := ih l
      rw [zeroRun]
      split <;> omega

theorem take_zeroRun (n : Nat) (l : Bytes) : l.take (zeroRun n l) = zeros (zeroRun n l) := by
  induction n generalizing l with
  | zero => rfl
  | succ n ih =>
    cases l with
    | nil => rfl
    | cons b l =>
      rw [zeroRun]
      split
      · next hb => rw [List.take_succ_cons, ih, hb]; rfl
      · rfl

theorem zeroRun_le_length (n : Nat) (l : Bytes) : zeroRun n l ≤ l.length := by
  have h := congrArg List.length (take_zeroRun n l)
  rw [List.length_take, zeros, List.length_replicate] at h
  omega

theorem zeroRun_pos {b : Byte} {l : Bytes} (n : Nat) (h : twoZeros (b :: l) = true) : 1 ≤ zeroRun (n + 1) (b :: l) := by
  have hb : b = 0 := by
    cases l with
    | nil => exact absurd h Bool.false_ne_true
    | cons a l => exact eq_of_beq (Bool.and_eq_true_iff.mp h).1
  rw [zeroRun, if_pos hb]
  exact Nat.le_add_left 1 _

theorem literalRun_le (n : Nat) (l : Bytes) : literalRun n l ≤ n ∧ literalRun n l ≤ l.length := by
  induction n generalizing l with
  | zero => exact ⟨Nat.le_refl 0, Nat.zero_le _⟩
  | succ n ih =>
    cases l with
    | nil => exact ⟨Nat.zero_le _, Nat.le_refl 0⟩
    | cons b l =>
      have := ih l
      rw [literalRun, List.length_cons]
      split <;> omega

/-! ### Zero-run coding expands to what it was made from (07 R221, R222) -/

theorem zrcDecode_zeros {n k left : Nat} (l : Bytes) (hpos : 1 ≤ k) (hk : k ≤ 128) (hleft : k ≤ left) :
    zrcDecode (n + 1) (BitVec.ofNat 8 (0x80 + (k - 1)) :: l) left = (zrcDecode n l (left - k)).map (zeros k ++ ·) := by
  have hcontrol : (BitVec.ofNat 8 (0x80 + (k - 1))).toNat = 128 + (k - 1) := by rw [BitVec.toNat_ofNat]; omega
  have hlen : (128 + (k - 1)) % 128 + 1 = k := by omega
  simp only [zrcDecode, hcontrol, hlen, Nat.not_lt.mpr hleft, if_false]
  rw [if_neg (by omega)]

theorem zrcDecode_literal {n k left : Nat} {p : Bytes} (l : Bytes) (hp : p.length = k) (hpos : 1 ≤ k) (hk : k ≤ 128) (hleft : k ≤ left) :
    zrcDecode (n + 1) (BitVec.ofNat 8 (k - 1) :: (p ++ l)) left = (zrcDecode n l (left - k)).map (p ++ ·) := by
  subst hp
  have hcontrol : (BitVec.ofNat 8 (p.length - 1)).toNat = p.length - 1 := by rw [BitVec.toNat_ofNat]; omega
  have hlen : (p.length - 1) % 128 + 1 = p.length := by omega
  have hwhole : ¬ (p ++ l).length < p.length := by rw [List.length_append]; omega
  simp only [zrcDecode, hcontrol, hlen, Nat.not_lt.mpr hleft, hwhole, if_false, List.drop_left, List.take_left]
  rw [if_pos (by omega)]

/-- Each control byte takes at least one element, so the elements bound the control bytes on both sides. -/
theorem zrcDecode_zrcEncode {n m : Nat} {e : Bytes} (hn : e.length ≤ n) (hm : e.length < m) :
    zrcDecode m (zrcEncode n e) e.length = some e := by
  induction n generalizing m e with
  | zero =>
    obtain rfl : e = [] := List.length_eq_zero_iff.mp (Nat.le_zero.mp hn)
    obtain ⟨m, rfl⟩ := Nat.exists_eq_succ_of_ne_zero (Nat.ne_of_gt hm)
    rfl
  | succ n ih =>
    obtain ⟨m, rfl⟩ := Nat.exists_eq_succ_of_ne_zero (Nat.ne_of_gt (Nat.zero_lt_of_lt hm))
    cases e with
    | nil => rfl
    | cons b l =>
      rw [List.length_cons] at hn hm
      have hrest {k : Nat} (hk : 1 ≤ k) : zrcDecode m (zrcEncode n ((b :: l).drop k)) ((b :: l).length - k) = some ((b :: l).drop k) := by
        rw [← List.length_drop]
        apply ih <;> rw [List.length_drop, List.length_cons] <;> omega
      rw [zrcEncode]
      split
      case isTrue h =>
        have hpos := zeroRun_pos 127 h
        rw [zrcDecode_zeros _ hpos (zeroRun_le _ _) (zeroRun_le_length _ _), hrest hpos, Option.map_some, ← take_zeroRun,
          List.take_append_drop]
      case isFalse =>
        obtain ⟨hk, hl⟩ := literalRun_le 127 l
        have hlen : ((b :: l).take (1 + literalRun 127 l)).length = 1 + literalRun 127 l := by
          rw [List.length_take, List.length_cons]; omega
        rw [zrcDecode_literal _ hlen (by omega) (by omega) (by rw [List.length_cons]; omega), hrest (Nat.le_add_right 1 _),
          Option.map_some, List.take_append_drop]

/-- Settles O37: with one control byte more than elements to decode by, the coding is never cut short. -/
theorem zeroRunsExpand : Obligations.ZeroRunsExpand := fun _ => zrcDecode_zrcEncode (Nat.le_refl _) (Nat.lt_succ_self _)

end Sys2Proof.Machine
end

section
/-! SUPPORT. The window group: its checks in their order, and its effects (07 R211 to R219, R222 to R224). -/
namespace Sys2Proof.Machine

/-! ### WMM and WMMT (07 R213, R215, R217) -/

section
variable {s : State} {op c n : Nat}

/-- The checks of a word's fields: those of the matrix group, and X[XP] and X[XP+1] in the file. -/
def windowFieldsOk (op n : Nat) : Bool := matrixFieldsOk op n && decide (field n 16 12 ≤ 30)

theorem windowFieldsOk_illegalTile (h : 48 ≤ field n 50 45) : windowFieldsOk op n = false := by
  simp [windowFieldsOk, matrixFieldsOk, Nat.not_lt.mpr h]

theorem winMatrixOk_ok {d : Wind} (hd : d = windAt s c (xr s c (field n 42 38))) (hfields : windowFieldsOk op n = true)
    (hformat : formatOk s c (field n 50 45) (bit n 44) (macOf op).tileFp = .ok ())
    (hwind : windOk s (xr s c (field n 42 38)) d true = .ok ()) (hes : d.t.es = (macOf op).es)
    (hk : xr s c (field n 16 12 + 1) + (field n 32 21 + 1) ≤ d.kTotal)
    (hscales : (macOf op).tables = true → scalesOk s (gOf s c n) (field n 32 21 + 1) = .ok ())
    (hb : ownOk s (xr s c (field n 37 33)) (bBytes (macOf op) (field n 32 21 + 1)) 64 = .ok ()) : winMatrixOk op s c n = .ok () := by
  subst hd
  unfold windowFieldsOk matrixFieldsOk at hfields
  unfold winMatrixOk
  simp only [need_bind hfields, hformat, ok_bind, hwind, need_bind (Bool.and_eq_true_iff.mpr ⟨beq_iff_eq.mpr hes, decide_eq_true hk⟩), hb]
  split
  · rw [hscales ‹_›, ok_bind]
  · rfl

theorem winMatrixOk_illegal (h : windowFieldsOk op n = false) : winMatrixOk op s c n = .error (.fault 0x0740) :=
  need_bind_fault h _

theorem opDefined_window (h : op ≤ 5) : opDefined 8 op = true := by
  unfold opDefined
  simp [h]

variable {dt : Nat} {w : DWord} {i : Instr}

/-- The rows of WMM and WMMT, each under its OP. -/
theorem window_row : ∀ p ∈ [(0, Instr.wmmI8 dt c w), (1, .wmmE4 dt c w), (2, .wmmE5 dt c w), (3, .wmmBf dt c w), (4, .wmmtI8 dt c w),
    (5, .wmmtE4 dt c w)], p.1 ≤ 5 ∧ exec p.2 s = coreRow 8 p.1 (bits 11 0) (windowEff p.1) dt c w s := by
  simp only [List.forall_mem_cons, List.not_mem_nil, IsEmpty.forall_iff, implies_true, and_true]
  exact ⟨⟨by decide, rfl⟩, ⟨by decide, rfl⟩, ⟨by decide, rfl⟩, ⟨by decide, rfl⟩, ⟨by decide, rfl⟩, ⟨by decide, rfl⟩⟩

theorem exec_window_run {u : State} (hi : exec i s = coreRow 8 op (bits 11 0) (windowEff op) dt c w s) (hop : op ≤ 5)
    (hu : (windowLong op c w.toNat (coreAt (advance dt s) c).r.x (gOf (advance dt s) c w.toNat)).run 0 (field w.toNat 32 21 + 1)
      (advance dt s) = u)
    (hr : Runs (advance dt s) c w 8 op (bits 11 0)) (hok : winMatrixOk op (advance dt s) c w.toNat = .ok ()) :
    exec i s = .next (andNext c (advance dt s) u) := by
  refine core_step hi hr (opDefined_window hop) ?_
  unfold windowEff
  rw [hok, ok_bind, ← hu]
  rfl

theorem exec_window_illegalTile (hi : exec i s = coreRow 8 op (bits 11 0) (windowEff op) dt c w s) (hop : op ≤ 5)
    (hr : Runs (advance dt s) c w 8 op (bits 11 0)) (ht : 48 ≤ field w.toNat 50 45) :
    exec i s = .next (coreFault 0x0740 c (advance dt s)) := by
  refine core_fault hi hr (opDefined_window hop) ?_
  unfold windowEff
  rw [winMatrixOk_illegal (windowFieldsOk_illegalTile ht), error_bind]

end

/-! ### Blocks of elements in a map -/

/-- A check of each element of a block. -/
def eachOf (rows cols : Nat) (p : Nat → Nat → Bool) : Bool := (List.range rows).all (fun i => (List.range cols).all (p i))

theorem eachOf_true {rows cols : Nat} {p : Nat → Nat → Bool} (h : ∀ i j, i < rows → j < cols → p i j = true) : eachOf rows cols p = true :=
  List.all_eq_true.mpr fun _ hi => List.all_eq_true.mpr fun _ hj => h _ _ (List.mem_range.mp hi) (List.mem_range.mp hj)

/-! ### WDRAIN (07 R219) -/

section
variable {s : State} {c n : Nat}

/-- The tile, OUTFMT and XP of WDRAIN are in their ranges. -/
def wdrainFieldsOk (n : Nat) : Bool := drainFieldsOk n && decide (field n 26 22 ≤ 30)

/-- WDRAIN into a zero-run coded segment. -/
def wdrainSegment (c n : Nat) (s : State) : Except Bad Done := do
  let xo := xr s c (field n 44 40)
  let t := (wdrainLong c n (coreAt s c).r.x).run 0 16 s
  need (decide (field n 34 32 ≤ 3) && decide (xo < 2 ^ 30) && decide (xo % 16 = 0)) 0x0740
  ownOk s xo (xr t c (field n 44 40) - xo) 1
  return .step t

/-- WDRAIN into a map. -/
def wdrainMap (c n : Nat) (s : State) : Except Bad Done := do
  let b := scaleBlock s c (xr s c (field n 39 35))
  let d := tensorAt s c (xr s c (field n 44 40))
  let p0 := xr s c (field n 26 22)
  let c0 := xr s c (field n 26 22 + 1)
  ownOk s (xr s c (field n 44 40)) 16 1
  tensorOk s d
  need (d.es == outBytes (field n 34 32) && decide (c0 + b.cols ≤ d.stored)) 0x0740
  need (eachOf b.rows b.cols (fun i j => decide (d.drainAddr p0 c0 i j + d.es ≤ s.variant.scratchBytes))) 0x0741
  return .step ((wdrainLong c n (coreAt s c).r.x).run 0 16 s)

theorem wdrainEff_eq (c n : Nat) (s : State) : wdrainEff c n s = (need (wdrainFieldsOk n) 0x0740 >>= fun _ =>
    ownOk s (xr s c (field n 39 35)) 576 64 >>= fun _ =>
    need (scaleBlockOk s c (field n 31 29) (scaleBlock s c (xr s c (field n 39 35)))) 0x0740 >>= fun _ =>
    if bit n 27 then wdrainSegment c n s else wdrainMap c n s) := rfl

theorem wdrainEff_checked (ht : field n 50 45 < 48) (hf : field n 34 32 ≤ 6) (hx : field n 26 22 ≤ 30)
    (hs : ownOk s (xr s c (field n 39 35)) 576 64 = .ok ())
    (hblock : scaleBlockOk s c (field n 31 29) (scaleBlock s c (xr s c (field n 39 35))) = true) :
    wdrainEff c n s = if bit n 27 then wdrainSegment c n s else wdrainMap c n s := by
  have hfields : wdrainFieldsOk n = true := by rw [wdrainFieldsOk, drainFieldsOk_true ht hf, decide_eq_true hx]; rfl
  rw [wdrainEff_eq, need_bind hfields, hs, ok_bind, need_bind hblock]

theorem wdrainSegment_ok {t : State} (ht : t = (wdrainLong c n (coreAt s c).r.x).run 0 16 s) (hf : field n 34 32 ≤ 3)
    (hspace : xr s c (field n 44 40) < 2 ^ 30) (halign : xr s c (field n 44 40) % 16 = 0)
    (hend : xr s c (field n 44 40) + (xr t c (field n 44 40) - xr s c (field n 44 40)) ≤ s.variant.scratchBytes) :
    wdrainSegment c n s = .ok (.step t) := by
  subst ht
  unfold wdrainSegment
  rw [need_bind (by rw [decide_eq_true hf, decide_eq_true hspace, decide_eq_true halign]; rfl), ownOk_ok (Nat.mod_one _) hend, ok_bind]
  rfl

theorem wdrainMap_ok {d : Tensor} {b : ScaleBlock} (hd : d = tensorAt s c (xr s c (field n 44 40)))
    (hb : b = scaleBlock s c (xr s c (field n 39 35))) (hown : xr s c (field n 44 40) + 16 ≤ s.variant.scratchBytes)
    (htensor : tensorOk s d = .ok ()) (hes : d.es = outBytes (field n 34 32)) (hcols : xr s c (field n 26 22 + 1) + b.cols ≤ d.stored)
    (hplace : ∀ i j, i < b.rows → j < b.cols →
      d.drainAddr (xr s c (field n 26 22)) (xr s c (field n 26 22 + 1)) i j + d.es ≤ s.variant.scratchBytes) :
    wdrainMap c n s = .ok (.step ((wdrainLong c n (coreAt s c).r.x).run 0 16 s)) := by
  subst hd hb
  unfold wdrainMap
  simp only [ownOk_ok (Nat.mod_one _) hown, ok_bind, htensor, need_bind (Bool.and_eq_true_iff.mpr ⟨beq_iff_eq.mpr hes, decide_eq_true hcols⟩),
    need_bind (eachOf_true fun i j hi hj => decide_eq_true (hplace i j hi hj))]
  rfl

end

/-! ### WPOOL and WRES (07 R223, R224) -/

section
variable {s : State} {c n : Nat} {d : Wind}

theorem poolOk_ok (ht : field n 50 45 < 48) (hx : field n 37 33 ≤ 30) (hcols : field n 32 26 + 1 ≤ 64)
    (hfmt : infmtOk (field n 25 23) d.t.es = true) (hend : xr s c (field n 37 33 + 1) + (field n 32 26 + 1) ≤ d.t.stored) :
    poolOk s c n d = .ok () := by
  unfold poolOk
  rw [need_ok (by rw [decide_eq_true ht, decide_eq_true hx, decide_eq_true hcols, hfmt, decide_eq_true hend]; rfl)]

theorem wpoolEff_ok (hd : d = windAt s c (xr s c (field n 42 38))) (hwind : windOk s (xr s c (field n 42 38)) d true = .ok ())
    (hpool : poolOk s c n d = .ok ()) :
    wpoolEff c n s = .ok (.step (setTile c (field n 50 45) (windowTile (field n 32 26 + 1) (fun i j =>
      poolValue s c d (field n 25 23) (bit n 44) (bit n 43) (xr s c (field n 37 33) + i) (xr s c (field n 37 33 + 1) + j))) s)) := by
  subst hd
  unfold wpoolEff
  simp only [hwind, ok_bind, hpool]
  exact congrArg (fun t => Except.ok (Done.step t)) (if_pos rfl)

theorem wresEff_ok (hd : d = windAt s c (xr s c (field n 42 38))) (hwind : windOk s (xr s c (field n 42 38)) d false = .ok ())
    (hunit : [d.kh, d.kw, d.sy, d.sx, d.dy, d.dx] = [1, 1, 1, 1, 1, 1]) (hpad : [d.pt, d.pb, d.pl, d.pr] = [0, 0, 0, 0])
    (hpool : poolOk s c n d = .ok ()) :
    wresEff c n s = .ok (.step (setTile c (field n 50 45) (windowTile (field n 32 26 + 1) (fun i j =>
      resValue s c d (field n 25 23) (bit n 44) (xr s c (field n 37 33) + i) (xr s c (field n 37 33 + 1) + j))) s)) := by
  have hplain : ([d.kh, d.kw, d.sy, d.sx, d.dy, d.dx].all (· == 1) && [d.pt, d.pb, d.pl, d.pr].all (· == 0)) = true := by
    rw [hunit, hpad]
    rfl
  subst hd
  unfold wresEff
  simp only [hwind, ok_bind, need_bind hplain, hpool]
  exact congrArg (fun t => Except.ok (Done.step t)) (if_pos rfl)

end

/-! ### WUNZ (07 R222) -/

section
variable {s : State} {c n : Nat} {d : Tensor} {h : Bytes} {l m : Loc}

/-- WUNZ has expanded elements `e` of the segment of header `h` into map `d`, and XD holds where the segment ends. -/
def expanded (c n : Nat) (d : Tensor) (h e : Bytes) (s : State) : State :=
  setX c (field n 40 36) (xr s c (field n 50 46) + (16 + ceilDiv (leAt h 8 2) 16 * 16))
    (e.zipIdx.foldl (fun t b => ownWrite c (d.drainAddr (leAt h 0 4) (leAt h 4 2) (b.2 / byteAt h 6) (b.2 % byteAt h 6)) [b.1] t) s)

/-- What WUNZ does with the elements of the segment of header `h`, where it has any. -/
def expandInto (c n : Nat) (d : Tensor) (h : Bytes) (s : State) : Option Bytes → Except Bad Done
  | none => illegal
  | some e => do
    need (d.es == 1 && decide (leAt h 4 2 + byteAt h 6 ≤ d.stored)) 0x0740
    need (eachOf (byteAt h 7) (byteAt h 6) (fun i j => decide (d.drainAddr (leAt h 0 4) (leAt h 4 2) i j < s.variant.scratchBytes))) 0x0741
    return .step (expanded c n d h e s)

theorem wunzEff_read (hd : d = tensorAt s c (xr s c (field n 45 41))) (hown : xr s c (field n 45 41) + 16 ≤ s.variant.scratchBytes)
    (htensor : tensorOk s d = .ok ()) (hl : reach s c (xr s c (field n 50 46)) 16 = .ok l) (hh : h = readLoc s l 16)
    (hm : reach s c (xr s c (field n 50 46)) (16 + leAt h 8 2) = .ok m) :
    wunzEff c n s = expandInto c n d h s (segmentElems h ((readLoc s m (16 + leAt h 8 2)).drop 16)) := by
  subst hd hh
  unfold wunzEff
  simp only [ownOk_ok (Nat.mod_one _) hown, ok_bind, htensor, hl, hm]
  cases segmentElems (readLoc s l 16) ((readLoc s m (16 + leAt (readLoc s l 16) 8 2)).drop 16) <;> rfl

theorem expandInto_some (e : Bytes) (hes : d.es = 1) (hcols : leAt h 4 2 + byteAt h 6 ≤ d.stored)
    (hplace : ∀ i j, i < byteAt h 7 → j < byteAt h 6 → d.drainAddr (leAt h 0 4) (leAt h 4 2) i j < s.variant.scratchBytes) :
    expandInto c n d h s (some e) = .ok (.step (expanded c n d h e s)) := by
  rw [expandInto, need_bind (Bool.and_eq_true_iff.mpr ⟨beq_iff_eq.mpr hes, decide_eq_true hcols⟩),
    need_bind (eachOf_true fun i j hi hj => decide_eq_true (hplace i j hi hj))]
  rfl

end

/-- Settles O36: each instruction's checks pass in their order, and then its effect is the run named. -/
theorem windowInstructions : Obligations.WindowInstructions := by
  rintro dt c n w s z rfl rfl
  refine ⟨fun p hp hr => ?_, fun hr ht hf hx hs hblock => ?_, ?_, ?_, ?_⟩
  · obtain ⟨hop, hi⟩ := window_row p hp
    refine ⟨?_, exec_window_illegalTile hi hop hr⟩
    rintro d x hd rfl ht hg hua hx hfp hwind hes hk hscales hb
    have hfields : windowFieldsOk p.1 w.toNat = true := Bool.and_eq_true_iff.mpr ⟨matrixFieldsOk_of hop ht hg hua, decide_eq_true hx⟩
    exact exec_window_run hi hop rfl hr (winMatrixOk_ok hd hfields (formatOk_ok (macOf_tileFp hop ▸ hfp)) hwind (macOf_es hop ▸ hes) hk
      (fun h => hscales (by simpa [macOf_tables hop] using h)) hb)
  · have hchecked := wdrainEff_checked ht hf hx hs hblock
    refine ⟨fun d b hd hb hmap hown htensor hes hcols hplace => ?_, fun t hseg hf hspace halign htrun hend => ?_⟩
    · refine core_step (eff := wdrainEff) rfl hr rfl ?_
      rw [hchecked, hmap, if_neg Bool.false_ne_true, wdrainMap_ok hd hb hown htensor hes hcols hplace]
    · refine core_step (eff := wdrainEff) rfl hr rfl ?_
      rw [hchecked, if_pos hseg, wdrainSegment_ok htrun hf hspace halign hend]
  · intro d hd ht hx hcols hfmt hend
    have hpool := poolOk_ok ht hx hcols hfmt hend
    exact ⟨fun hr hwind => core_step (eff := wpoolEff) rfl hr rfl (wpoolEff_ok hd hwind hpool),
      fun hr hwind hunit hpad => core_step (eff := wresEff) rfl hr rfl (wresEff_ok hd hwind hunit hpad hpool)⟩
  · intro d l m h e hr hd hown htensor hl hh hm he hes hcols hplace
    refine core_step (eff := wunzEff) rfl hr rfl ?_
    rw [wunzEff_read hd hown htensor hl hh hm, he, expandInto_some e hes hcols hplace]
    rfl
  · intro d l m h hr hd hown htensor hl hh hm he
    refine core_fault (eff := wunzEff) rfl hr rfl ?_
    rw [wunzEff_read hd hown htensor hl hh hm, he]
    rfl

end Sys2Proof.Machine
end

section
/-! SUPPORT. The sequence group: what each instruction does once its checks have passed in turn, GMASK and SARGM (08 R229 to R247; 11 R341 to R344). -/
namespace Sys2Proof.Machine

section
variable {s : State} {c n : Nat}

/-! ### SSOFT and SPV (08 R232, R233) -/

/-- The score tile, the output tiles and XP of SSOFT are in their ranges. -/
def ssoftFieldsOk (n : Nat) : Bool := decide (field n 50 45 < 48) && tilesOk (field n 40 35) (field n 34 33 + 1) && decide (field n 27 23 ≤ 30)

theorem ssoftFieldsOk_true (ht : field n 50 45 < 48) (ho : field n 40 35 + (field n 34 33 + 1) ≤ 48) (hx : field n 27 23 ≤ 30) :
    ssoftFieldsOk n = true := by
  rw [ssoftFieldsOk, tilesOk, decide_eq_true ht, decide_eq_true ho, decide_eq_true hx]
  rfl

theorem tilesOk_past {t k : Nat} (h : 48 < t + k) : tilesOk t k = false := decide_eq_false (Nat.not_le.mpr h)

theorem ssoftEff_ok (hfields : ssoftFieldsOk n = true) (hd : attnOk s c (xr s c (field n 32 28)) = .ok ())
    (hp : ownOk s (xr s c (field n 27 23)) (1024 * pBytes (bit n 41)) 64 = .ok ()) :
    ssoftEff c n s = .ok (.step ((ssoftLong c n (coreAt s c).r.x).run 0 16 s)) := by
  unfold ssoftFieldsOk at hfields
  unfold ssoftEff
  simp only [need_bind hfields, hd, hp, ok_bind]
  rfl

theorem ssoftEff_past (h : 48 < field n 40 35 + (field n 34 33 + 1)) : ssoftEff c n s = .error (.fault 0x0740) :=
  need_bind_fault (by rw [tilesOk_past h, Bool.and_false, Bool.false_and]) _

theorem spvEff_ok {e4 : Bool} (ht : field n 50 45 < 48) (hfp : (tileAt s c (field n 50 45)).fp = true)
    (hp : ownOk s (xr s c (field n 42 38)) (1024 * pBytes e4) 64 = .ok ()) (hv : ownOk s (xr s c (field n 37 33)) (4096 * pBytes e4) 64 = .ok ()) :
    spvEff e4 c n s = .ok (.step ((spvLong e4 c n (coreAt s c).r.x).run 0 64 s)) := by
  have htile : (decide (field n 50 45 < 48) && (tileAt s c (field n 50 45)).fp) = true := Bool.and_eq_true_iff.mpr ⟨decide_eq_true ht, hfp⟩
  unfold spvEff
  simp only [need_bind htile, hp, hv, ok_bind]
  rfl

/-! ### SNORM, SSTAT, SLDST and SMERGE (08 R231, R234, R238, R239) -/

/-- The output tiles, LAYOUT, OUTFMT and QHL of SNORM are in their ranges. -/
def snormFieldsOk (n : Nat) : Bool :=
  tilesOk (field n 50 45) (field n 42 41 + 1) && decide (field n 35 34 ≤ 2) && decide (field n 33 31 ≤ 6) && decide (field n 30 28 ≤ 4)

theorem snormFieldsOk_true (ht : field n 50 45 + (field n 42 41 + 1) ≤ 48) (hl : field n 35 34 ≤ 2) (hf : field n 33 31 ≤ 6)
    (hq : field n 30 28 ≤ 4) : snormFieldsOk n = true := by
  rw [snormFieldsOk, tilesOk, decide_eq_true ht, decide_eq_true hl, decide_eq_true hf, decide_eq_true hq]
  rfl

theorem snormEff_ok (hfields : snormFieldsOk n = true)
    (hrows : ownOk s (xr s c (field n 40 36)) (outBytes (field n 33 31) * normSpan (field n 35 34) (field n 42 41 + 1) (field n 30 28)) 64 = .ok ())
    (hlse : bit n 22 = true → ownOk s (xr s c (field n 27 23)) 64 64 = .ok ()) :
    snormEff c n s = .ok (.step ((snormLong c n (coreAt s c).r.x).run 0 16 s)) := by
  unfold snormFieldsOk at hfields
  unfold snormEff
  simp only [need_bind hfields, hrows, ok_bind]
  split
  · rw [hlse ‹_›, ok_bind]
    rfl
  · rfl

theorem snormEff_past (h : 48 < field n 50 45 + (field n 42 41 + 1)) : snormEff c n s = .error (.fault 0x0740) :=
  need_bind_fault (by rw [tilesOk_past h, Bool.false_and, Bool.false_and, Bool.false_and]) _

theorem sstatEff_ok (ha : ownOk s (xr s c (field n 48 44)) 128 64 = .ok ()) : sstatEff c n s = .ok (.step (ownWrite c (xr s c (field n 48 44))
    (((yAt s c (field n 50 49)).m ++ (yAt s c (field n 50 49)).l).flatMap (fun v => le 4 v.toNat)) s)) := by
  unfold sstatEff
  simp only [ha, ok_bind]
  rfl

theorem sldstEff_ok (ha : ownOk s (xr s c (field n 48 44)) 128 64 = .ok ()) : sldstEff c n s = .ok (.step (setY c (field n 50 49)
    ⟨words16 s c (xr s c (field n 48 44)), words16 s c (xr s c (field n 48 44) + 64), List.replicate 1024 false⟩ s)) := by
  unfold sldstEff
  simp only [ha, ok_bind]
  rfl

theorem smergeEff_ok (ht : field n 50 45 + (field n 42 41 + 1) ≤ 48) (hfp : ∀ k, k ≤ field n 42 41 → (tileAt s c (field n 50 45 + k)).fp = true)
    (hr : ownOk s (xr s c (field n 40 36)) (128 + 4096 * (field n 42 41 + 1)) 64 = .ok ()) :
    smergeEff c n s = .ok (.step ((smergeLong c n (coreAt s c).r.x).run 0 16 s)) := by
  have hall : ((List.range (field n 42 41 + 1)).all fun k => (tileAt s c (field n 50 45 + k)).fp) = true :=
    List.all_eq_true.mpr fun k hk => hfp k (Nat.le_of_lt_succ (List.mem_range.mp hk))
  have htiles : (tilesOk (field n 50 45) (field n 42 41 + 1) &&
      (List.range (field n 42 41 + 1)).all fun k => (tileAt s c (field n 50 45 + k)).fp) = true :=
    Bool.and_eq_true_iff.mpr ⟨decide_eq_true ht, hall⟩
  unfold smergeEff
  simp only [need_bind htiles, hr, ok_bind]
  rfl

/-! ### SBWD and STRN (08 R245 to R247) -/

/-- The two tiles, XP and TRANS of SBWD are in their ranges. -/
def sbwdFieldsOk (n : Nat) : Bool :=
  decide (field n 50 45 < 48) && decide (field n 44 39 < 48) && decide (field n 33 29 ≤ 28) && decide (field n 27 26 ≤ 2)

theorem sbwdFieldsOk_true (ht : field n 50 45 < 48) (hdp : field n 44 39 < 48) (hx : field n 33 29 ≤ 28) (htrans : field n 27 26 ≤ 2) :
    sbwdFieldsOk n = true := by
  rw [sbwdFieldsOk, decide_eq_true ht, decide_eq_true hdp, decide_eq_true hx, decide_eq_true htrans]
  rfl

theorem sbwdEff_ok {k : Nat} (hk : k = if field n 27 26 = 2 then 2 else 1) (hfields : sbwdFieldsOk n = true)
    (hd : attnOk s c (xr s c (field n 38 34)) = .ok ()) (hrec : ownOk s (xr s c (field n 33 29)) 128 64 = .ok ())
    (hp : ownOk s (xr s c (field n 33 29 + 2)) (1024 * pBytes (bit n 28) * k) 64 = .ok ())
    (hds : ownOk s (xr s c (field n 33 29 + 3)) (2048 * k) 64 = .ok ()) :
    sbwdEff c n s = .ok (.step ((sbwdLong c n (coreAt s c).r.x).run 0 16 s)) := by
  subst hk
  unfold sbwdFieldsOk at hfields
  unfold sbwdEff
  simp only [need_bind hfields, hd, hrec, hp, hds, ok_bind]
  rfl

/-- The block that STRN reads and the one that it writes have no byte in common. -/
def apart (a b len : Nat) : Bool := decide (a + len ≤ b) || decide (b + len ≤ a)

theorem apart_true {a b len : Nat} (h : a + len ≤ b ∨ b + len ≤ a) : apart a b len = true := by simpa [apart] using h

theorem apart_false {a b len : Nat} (hb : b < a + len) (ha : a < b + len) : apart a b len = false := by
  rw [apart, decide_eq_false (Nat.not_le.mpr hb), decide_eq_false (Nat.not_le.mpr ha)]
  rfl

variable {e : Nat}

theorem strnEff_placed (he : e = if bit n 40 then 2 else 1) (ha : ownOk s (xr s c (field n 50 46)) (4096 * e) 64 = .ok ())
    (hb : ownOk s (xr s c (field n 45 41)) (4096 * e) 64 = .ok ()) :
    strnEff c n s = (need (apart (xr s c (field n 50 46)) (xr s c (field n 45 41)) (4096 * e)) 0x0740 >>= fun _ =>
      .ok (.step ((strnLong c n (coreAt s c).r.x).run 0 64 s))) := by
  subst he
  unfold strnEff
  simp only [ha, hb, ok_bind]
  rfl

/-- All steps of STRN at once. -/
theorem strnLong_run (he : e = if bit n 40 then 2 else 1) : (strnLong c n (coreAt s c).r.x).run 0 64 s =
    (List.range 64).foldl (fun r k => (List.range 64).foldl (fun r j => ownWrite c (xr s c (field n 45 41) + e * (64 * j + (0 + k)))
      (ownRead r c (xr s c (field n 50 46) + e * (64 * (0 + k) + j)) e) r) r) s := by
  subst he
  unfold strnLong rowsFold xr
  simp only [Nat.sub_zero]

/-! ### GMASK (11 R343) -/

theorem gmaskEff_queues {off : Nat} (hl : locate s (coreAt s c).job c (xr s c (field n 50 46)) 48 = .ok (some (.commons (c / 8) off)))
    (hroom : (maskUnit s (c / 8)).lists.length < 5) : gmaskEff c n s
      = .ok (.step (modMask (c / 8) (fun m => { m with lists := m.lists ++ [⟨off, c, (coreAt s c).job, 0⟩] }) s)) := by
  unfold gmaskEff
  simp only [hl, ok_bind, ne_eq, not_true_eq_false, if_false, if_neg (Nat.not_le.mpr hroom)]
  rfl

theorem gmaskEff_waits {off : Nat} (hl : locate s (coreAt s c).job c (xr s c (field n 50 46)) 48 = .ok (some (.commons (c / 8) off)))
    (hfull : 5 ≤ (maskUnit s (c / 8)).lists.length) : gmaskEff c n s = .ok (.stay s) := by
  unfold gmaskEff
  simp only [hl, ok_bind, ne_eq, not_true_eq_false, if_false, if_pos hfull]
  rfl

/-! ### SARGM (11 R344) -/

theorem sargmRow_unmasked {am ar col i : Nat} (t : AccTile) (h : ownLe s c (am + 4 * i) 4 = 0) : sargmRow c am ar col t i s = .ok s := if_pos h

/-- The records of SARGM before its first row: with INIT, all are empty. -/
def sargmStart (c n : Nat) (s : State) : State :=
  if bit n 44 then ownWrite c (xr s c (field n 38 34)) ((List.range 16).flatMap (fun _ => le 4 0x7FC00000 ++ le 4 0x80000100)) s else s

theorem sargmEff_ok {r : State} (ht : field n 50 45 < 48) (hx : field n 38 34 ≤ 30) (hfp : (tileAt s c (field n 50 45)).fp = true)
    (hcol : xr s c (field n 38 34 + 1) % 64 = 0) (hmasks : ownOk s (xr s c (field n 43 39)) 64 64 = .ok ())
    (hrecs : ownOk s (xr s c (field n 38 34)) 128 64 = .ok ())
    (hr : (List.range 16).foldlM (fun u i => sargmRow c (xr s c (field n 43 39)) (xr s c (field n 38 34)) (xr s c (field n 38 34 + 1))
      (tileAt (sargmStart c n s) c (field n 50 45)) i u) (sargmStart c n s) = .ok r) : sargmEff c n s = .ok (.step r) := by
  have hfields : (decide (field n 50 45 < 48) && decide (field n 38 34 ≤ 30)) = true :=
    Bool.and_eq_true_iff.mpr ⟨decide_eq_true ht, decide_eq_true hx⟩
  have htile : ((tileAt s c (field n 50 45)).fp && decide (xr s c (field n 38 34 + 1) % 64 = 0)) = true :=
    Bool.and_eq_true_iff.mpr ⟨hfp, decide_eq_true hcol⟩
  unfold sargmStart at hr
  unfold sargmEff
  simp only [need_bind hfields, need_bind htile, hmasks, hrecs, ok_bind, hr]
  rfl

end

/-- Settles O38: each instruction's checks pass in their order, or one of them fails, and then its effect is the run named. -/
theorem sequenceInstructions : Obligations.SequenceInstructions := by
  rintro dt c n x w s z rfl rfl rfl
  refine ⟨?ssoft, ?spv, ?snorm, ?sstat, ?sldst, ?smerge, ?sbwd, ?strn, ?gmask, ?sargm, fun am ar col i t u => sargmRow_unmasked t⟩
  case ssoft =>
    exact fun hr => ⟨fun ht ho hx hd hp => core_step (eff := ssoftEff) rfl hr rfl (ssoftEff_ok (ssoftFieldsOk_true ht ho hx) hd hp),
      fun h => core_fault (eff := ssoftEff) rfl hr rfl (ssoftEff_past h)⟩
  case spv =>
    simp only [List.forall_mem_cons, List.not_mem_nil, IsEmpty.forall_iff, implies_true, and_true]
    exact ⟨fun hr ht hfp hp hv => core_step (eff := spvEff false) rfl hr rfl (spvEff_ok ht hfp hp hv),
      fun hr ht hfp hp hv => core_step (eff := spvEff true) rfl hr rfl (spvEff_ok ht hfp hp hv)⟩
  case snorm =>
    exact fun hr => ⟨fun ht hl hf hq hrows hlse =>
        core_step (eff := snormEff) rfl hr rfl (snormEff_ok (snormFieldsOk_true ht hl hf hq) hrows hlse),
      fun h => core_fault (eff := snormEff) rfl hr rfl (snormEff_past h)⟩
  case sstat => exact fun hr ha => core_step (eff := sstatEff) rfl hr rfl (sstatEff_ok ha)
  case sldst => exact fun hr ha => core_step (eff := sldstEff) rfl hr rfl (sldstEff_ok ha)
  case smerge => exact fun hr ht hfp hrec => core_step (eff := smergeEff) rfl hr rfl (smergeEff_ok ht hfp hrec)
  case sbwd =>
    exact fun k hk hr ht hdp hx htrans hd hrec hp hds =>
      core_step (eff := sbwdEff) rfl hr rfl (sbwdEff_ok hk (sbwdFieldsOk_true ht hdp hx htrans) hd hrec hp hds)
  case strn =>
    rintro e f t he rfl rfl hr ha hb
    have hplaced := strnEff_placed he ha hb
    refine ⟨fun h => ?_, fun hover hunder => ?_⟩
    · rw [← strnLong_run he]
      exact core_step (eff := strnEff) rfl hr rfl (hplaced.trans (need_bind (apart_true h) _))
    · exact core_fault (eff := strnEff) rfl hr rfl (hplaced.trans (need_bind_fault (apart_false hover hunder) _))
  case gmask =>
    exact fun off hr hl => ⟨fun hroom => core_step (eff := gmaskEff) rfl hr rfl (gmaskEff_queues hl hroom),
      fun hfull => core_stay (eff := gmaskEff) rfl hr rfl (gmaskEff_waits hl hfull)⟩
  case sargm =>
    rintro b r hr ht hx hfp hcol hmasks hrecs rfl hrun
    exact core_step (eff := sargmEff) rfl hr rfl (sargmEff_ok ht hx hfp hcol hmasks hrecs hrun)

end Sys2Proof.Machine
end

section
/-! SUPPORT. SAPP and SXLT, the replies of the slab walkers, and the end of a copy (08 R240 to R242; 09 R261 to R267). -/
namespace Sys2Proof.Machine

/-! ### SAPP (08 R240 to R242) -/

section
variable {s : State} {c n : Nat} {d : AppendDesc} {b : ScaleBlock}

/-- The rows that SAPP converts. -/
def appendRows (s : State) (c n : Nat) (d : AppendDesc) (b : ScaleBlock) : List (List Converted) :=
  (List.range d.rows).map (fun i => (List.range 64).map (fun j => outConvert (field n 34 32)
    (if bit n 31 then ropeValue s c (tileAt s c (field n 50 45)) b d i j else appValue (tileAt s c (field n 50 45)) b i j)))

/-- The clips of the rows are counted, and with CLEAR the tile is cleared. -/
def appendCounted (c n : Nat) (e : List (List Converted)) (s : State) : State :=
  if bit n 30 then clearTile c (field n 50 45) (countEvents c (clipsIn e.flatten) 0 0 s) else countEvents c (clipsIn e.flatten) 0 0 s

/-- DEST 1: the rows are in the own scratchpad, laid out as an A operand. -/
def appendStored (c n : Nat) (d : AppendDesc) (e : List (List Converted)) (s : State) : State :=
  e.zipIdx.foldl (fun s r => r.1.zipIdx.foldl (fun s x =>
    ownWrite c (d.loc + outBytes (field n 34 32) * (16 * (64 * d.part + x.2) + r.2)) (le (outBytes (field n 34 32)) x.1.code) s) s) s

/-- DEST 0: what the walker is asked to append. -/
def appendOf (n : Nat) (d : AppendDesc) (e : List (List Converted)) : Append :=
  { seq := d.seq, layer := d.layer, group := d.group, head := d.head, part := d.part, value := d.kv == 1, pos0 := d.pos0
    tally := d.tally, rows := e.map (fun r => r.flatMap (fun v => le (outBytes (field n 34 32)) v.code)) }

/-- DEST 0: the request is the last of the walker of the core's cluster. -/
def appendQueued (c n : Nat) (a : Append) (s : State) : State :=
  modWalker (c / 8) (fun k => { k with queue := k.queue ++ [
    { core := c, job := (coreAt s c).job, step := (coreAt s c).step, waits := none, ask := .append a,
      again := ⟨BitVec.ofNat 64 n, 0, (coreAt s c).r.x, 0, some a⟩ }] }) s

/-- SAPP once its checks have passed. -/
theorem sappEff_checked (ht : field n 50 45 < 48) (hdesc : ownOk s (xr s c (field n 44 40)) 64 64 = .ok ())
    (hblock : ownOk s (xr s c (field n 39 35)) 576 64 = .ok ()) (hd : d = appendAt s c (xr s c (field n 44 40)))
    (hb : b = scaleBlock s c (xr s c (field n 39 35))) (hok : appendOk s c n d b = .ok ()) :
    sappEff c n s =
      if d.dest = 0 ∧ 8 ≤ dmaUsed s c then .ok (.stay s)
      else if d.dest = 1 then .ok (.step (if d.tally = 0xFFFF then appendStored c n d (appendRows s c n d b) (appendCounted c n (appendRows s c n d b) s)
        else signalAndTake d.tally 1 (appendStored c n d (appendRows s c n d b) (appendCounted c n (appendRows s c n d b) s))))
      else .ok (.step (appendQueued c n (appendOf n d (appendRows s c n d b)) (appendCounted c n (appendRows s c n d b) s))) := by
  subst hd hb
  unfold sappEff
  simp only [need_bind (decide_eq_true ht), hdesc, hblock, hok, ok_bind]
  rfl

end

/-! ### SXLT (09 R261, R262) -/

section
variable {s : State} {c n a : Nat}

/-- The request is the last of the walker of the core's cluster, and one more translation of the core is in progress. -/
def translationQueued (c n a : Nat) (s : State) : State :=
  modCore c (fun x => { x with walks := x.walks + 1 }) (modWalker (c / 8) (fun k => { k with queue := k.queue ++ [
    { core := c, job := (coreAt s c).job, step := (coreAt s c).step, waits := none, ask := .translate a (ownRead s c a 16),
      again := ⟨BitVec.ofNat 64 n, 0, (coreAt s c).r.x, 0, none⟩ }] }) s)

theorem sxltEff_placed (ha : a = xr s c (field n 50 46)) (hrec : ownOk s a 64 64 = .ok ()) :
    sxltEff c n s = (need (xlatOk s c (ownRead s c a 16)) 0x0740 >>= fun _ =>
      if 4 ≤ (coreAt s c).walks then .ok (.stay s) else .ok (.step (translationQueued c n a s))) := by
  subst ha
  unfold sxltEff
  simp only [hrec, ok_bind]
  rfl

end

/-! ### The replies of a walker (09 R262 to R264, R267) -/

section
variable {dt w k : Nat} {r : WalkReq} {s : State}

/-- What a walker makes of request `r`, the entry `k` of its queue. -/
def walkerAnswered (w k : Nat) (r : WalkReq) (s : State) : State :=
  match r.ask with
  | .translate rec q => if pinsWait s w r.job r.step (byteAt q 11) then s else xlatReply w r rec q (dropReq w k s)
  | .append a =>
    match place r.job r.step 3 a s with
    | (.done u, _) => if a.tally = 0xFFFF then dropReq w k u else signalTally a.tally 1 (dropReq w k u)
    | (.wait o u, b) => modWalker w (fun x => { x with queue := modNth x.queue k (fun q => { q with ask := .append b, waits := some o }) }) u
    | (.fault st u, _) => raiseFault st 2 w 0 (dropReq w k u)

theorem exec_walkerReply_next (hawake : awake (advance dt s) = true) (hr : nextReq (advance dt s) w = some (k, r)) :
    exec (.walkerReply dt w) s = .next (walkerAnswered w k r (advance dt s)) := by
  change execWalkerReply dt w s = _
  unfold execWalkerReply
  simp only [hawake, hr]
  rfl

theorem walkerAnswered_translate {rec : Nat} {q : Bytes} (hask : r.ask = .translate rec q)
    (hpin : pinsWait s w r.job r.step (byteAt q 11) = false) : walkerAnswered w k r s = xlatReply w r rec q (dropReq w k s) := by
  unfold walkerAnswered
  simp only [hask, hpin, Bool.false_eq_true, if_false]

theorem walkerAnswered_placed {a b : Append} {u : State} (hask : r.ask = .append a) (hplace : place r.job r.step 3 a s = (.done u, b)) :
    walkerAnswered w k r s = if a.tally = 0xFFFF then dropReq w k u else signalTally a.tally 1 (dropReq w k u) := by
  unfold walkerAnswered
  simp only [hask, hplace]

theorem walkerAnswered_copying {a b : Append} {u : State} {o : Nat} (hask : r.ask = .append a)
    (hplace : place r.job r.step 3 a s = (.wait o u, b)) : walkerAnswered w k r s =
      modWalker w (fun x => { x with queue := modNth x.queue k (fun q => { q with ask := .append b, waits := some o }) }) u := by
  unfold walkerAnswered
  simp only [hask, hplace]

end

/-! ### What bars a translation (09 R262, R263) -/

section
variable {s : State} {step h i : Nat} {q : Seq}

theorem xlatBar_missing (hq : seqOf s h = none) : xlatBar s step h = some 3 := by
  unfold xlatBar
  rw [hq]

theorem xlatBar_closed (hq : seqOf s h = some (i, q)) (hstate : q.state ≠ 1) : xlatBar s step h = some 3 := by
  unfold xlatBar
  simp only [hq, if_pos hstate]

theorem xlatBar_notEntered (hq : seqOf s h = some (i, q)) (hstate : q.state = 1) (hsteps : q.steps.any (fun e => e.1 == step) = false) :
    xlatBar s step h = some 4 := by
  unfold xlatBar
  simp only [hq, hstate, hsteps]
  rfl

/-- A barred translation answers why, and changes nothing. -/
theorem xlatOne_barred {rstat : Nat} (w job l g n mode : Nat) (hbar : xlatBar s step h = some rstat) :
    xlatOne w job step h l g n mode s = (xlatEntry 0 0 0 rstat, s) := by
  unfold xlatOne
  rw [hbar]

end

/-! ### The end of a copy (09 R267) -/

section
variable {dt slab i : Nat} {c : CowCopy} {b : Slab} {q : Seq} {g : Geom} {s : State}

/-- The copy is over: its bytes are in the new slab, which is as full as the old one. -/
def copyMoved (c : CowCopy) (b : Slab) (s : State) : State :=
  modSlab c.new (fun x => { x with fill := b.fill }) (modSlabs (fun k => { k with copies := k.copies.erase c }) { s with
    ddr := Memory.writeN s.ddr (slabHomeAddr s c.new) (Memory.readN s.ddr (slabHomeAddr s c.old) (((jobGeom s b.job).map (fun g => copyBytes g b.fill)).getD 0)) })

/-- The new slab is the sequence's own, or goes where the sequence is no longer open. -/
def copyEntered (c : CowCopy) (s : State) : State :=
  match seqOf s c.seq with
  | some (_, q) =>
    match (if q.state = 1 then jobGeom s q.job else none) with
    | some g => dropRef c.old (dirSet (dirAddr q g c.index c.layer c.group) 1 c.new s)
    | none => letGo c.new s
  | none => letGo c.new s

theorem copyEntered_open (hq : seqOf s c.seq = some (i, q)) (hstate : q.state = 1) (hg : jobGeom s q.job = some g) :
    copyEntered c s = dropRef c.old (dirSet (dirAddr q g c.index c.layer c.group) 1 c.new s) := by
  unfold copyEntered
  simp only [hq, if_pos hstate, hg]

/-- The old slab is unpinned, and no walker keeps the mapping that has changed. -/
def copyUnpinned (c : CowCopy) (s : State) : State := invalidate (fun e => e.1 == (c.seq, c.layer, c.group, c.index)) (unpin c.old s)

/-- A request that awaited the copy goes on. -/
def resumed (c : CowCopy) (r : WalkReq) : WalkReq :=
  match r.ask with
  | .append a => if r.waits = some c.old ∧ a.seq = c.seq ∧ a.layer = c.layer ∧ a.group = c.group then { r with waits := none } else r
  | _ => r

def appendsResumed (c : CowCopy) (s : State) : State :=
  modSlabs (fun k => { k with walkers := k.walkers.map (fun w => { w with queue := w.queue.map (resumed c) }) }) s

/-- The copy is counted and told. -/
def copyTold (c : CowCopy) (b : Slab) (s : State) : State := slabEvent (slabHome s c.old) 1 b.job 0 c.seq c.index c.new (slabCount 0 s)

theorem exec_copyOnWriteComplete_found (hawake : awake (advance dt s) = true)
    (hc : (advance dt s).slab.copies.find? (fun x => x.old == slab) = some c) (hb : slabAt (advance dt s) slab = some b) :
    exec (.copyOnWriteComplete dt slab) s =
      .next (copyTold c b (appendsResumed c (copyUnpinned c (copyEntered c (copyMoved c b (advance dt s)))))) := by
  change execCopyOnWriteComplete dt slab s = _
  unfold execCopyOnWriteComplete
  simp only [hawake, hc, hb]
  rfl

end

/-- Settles O40: SAPP and SXLT by their checks, a walker's reply by what it was asked, and the end of a copy in its five parts. -/
theorem appendsAndTranslations : Obligations.AppendsAndTranslations := by
  refine ⟨?sapp, ?sxlt, ?reply, ?barred, ?copy⟩
  case sapp =>
    rintro dt c n t f es d b e u w s z rfl rfl rfl rfl rfl hr ht hdesc hblock hd hb hok rfl rfl
    have hsapp := sappEff_checked ht hdesc hblock hd hb hok
    refine ⟨?_, ?_, fun hdest hfull => core_stay (eff := sappEff) rfl hr rfl (hsapp.trans (if_pos ⟨hdest, hfull⟩))⟩
    · rintro hdest v rfl
      have hgoes : ¬ (d.dest = 0 ∧ 8 ≤ dmaUsed (advance dt s) c) := fun h => absurd (hdest.symm.trans h.1) Nat.one_ne_zero
      exact core_step (eff := sappEff) rfl hr rfl (hsapp.trans ((if_neg hgoes).trans (if_pos hdest)))
    · rintro hdest hroom ap rfl
      have hgoes : ¬ (d.dest = 0 ∧ 8 ≤ dmaUsed (advance dt s) c) := fun h => absurd h.2 (Nat.not_le.mpr hroom)
      have hwalker : d.dest ≠ 1 := fun h => absurd (h.symm.trans hdest) Nat.one_ne_zero
      exact core_step (eff := sappEff) rfl hr rfl (hsapp.trans ((if_neg hgoes).trans (if_neg hwalker)))
  case sxlt =>
    rintro dt c n a w s z rfl rfl ha hr hrec
    have hsxlt := sxltEff_placed ha hrec
    refine ⟨fun hok => ⟨fun hroom => ?_, fun hfull => ?_⟩, fun hbad => ?_⟩
    · exact core_step (eff := sxltEff) rfl hr rfl (hsxlt.trans ((need_bind hok _).trans (if_neg (Nat.not_le.mpr hroom))))
    · exact core_stay (eff := sxltEff) rfl hr rfl (hsxlt.trans ((need_bind hok _).trans (if_pos hfull)))
    · exact core_fault (eff := sxltEff) rfl hr rfl (hsxlt.trans (need_bind_fault hbad _))
  case reply =>
    rintro dt w k r s z rfl hawake hnext
    rw [exec_walkerReply_next hawake hnext]
    exact ⟨fun rec q hask hpin => congrArg _ (walkerAnswered_translate hask hpin),
      fun a u b hask hplace => congrArg _ (walkerAnswered_placed hask hplace),
      fun a u b o hask hplace => congrArg _ (walkerAnswered_copying hask hplace)⟩
  case barred =>
    intro w job step h l g n m z
    exact ⟨fun hq => xlatOne_barred w job l g n m (xlatBar_missing hq),
      fun i q hq hstate => xlatOne_barred w job l g n m (xlatBar_closed hq hstate),
      fun i q hq hstate hsteps => xlatOne_barred w job l g n m (xlatBar_notEntered hq hstate hsteps)⟩
  case copy =>
    rintro dt slab c b i q g m s z t u v rfl hawake hc hb rfl ht hq hstate hg rfl rfl
    have hmoved : t = copyMoved c b (advance dt s) := ht
    rw [exec_copyOnWriteComplete_found hawake hc hb, ← hmoved, copyEntered_open hq hstate hg]
    rfl

end Sys2Proof.Machine
end

section
/-! SUPPORT. The commands on sequences, slabs and prefixes, and the end of a promotion (09 R255, R259, R268, R271, R274, R278). -/
namespace Sys2Proof.Machine

/-! ### Commands that only firmware may send (R278) -/

/-- The reply, unless the packet is the host's. -/
def Reply.unlessHost (r : Reply) (p : Packet) : Reply := if p.sender = 0x01 then .refuse 0x0560 [] else r

theorem Reply.unlessHost_host {r : Reply} {p : Packet} (h : p.sender = 0x01) : r.unlessHost p = .refuse 0x0560 [] := if_pos h

theorem Reply.unlessHost_firmware {r : Reply} {p : Packet} (h : p.sender ≠ 0x01) : r.unlessHost p = r := if_neg h

section
variable {i : Instr} {op dt : Nat} {body : Body} {h : Hdr} {ps : Bytes} {s : State} {r : Reply}
  (hi : exec i s = hostRow op body dt h ps s) (hb : ∀ p : Packet, p.params = ps → body p (advance dt s) = r.unlessHost p)
include hi hb

theorem declines_host (hhost : h.sender.toNat = 0x01) : Declines i op dt h ps s 0x0560 :=
  declines_of hi fun p hps hp _ => (hb p hps).trans (Reply.unlessHost_host (hp.trans hhost))

theorem answers_firmware {data : Bytes} {t : State} (hfw : h.sender.toNat ≠ 0x01) (hr : r = .ok data t) : Answers i op dt h ps s data t :=
  answers_of hi fun p hps hp _ => (hb p hps).trans ((Reply.unlessHost_firmware (hp ▸ hfw)).trans hr)

theorem declines_firmware {st : Nat} (hfw : h.sender.toNat ≠ 0x01) (hr : r = .refuse st []) : Declines i op dt h ps s st :=
  declines_of hi fun p hps hp _ => (hb p hps).trans ((Reply.unlessHost_firmware (hp ▸ hfw)).trans hr)

theorem declinesWith_firmware {st : Nat} {data : Bytes} {t : State} (hfw : h.sender.toNat ≠ 0x01) (hr : r = .refuseWith st data t) :
    DeclinesWith i op dt h ps s st data t :=
  declinesWith_of hi fun p hps hp _ => (hb p hps).trans ((Reply.unlessHost_firmware (hp ▸ hfw)).trans hr)

end

/-! ### SEQ_OPEN (R255, R278) -/

/-- The ranges of SEQ_OPEN's parameters, for a job with a geometry. -/
structure OpenForm (s : State) (b : Bytes) : Prop where
  len : b.length = 32
  flags : byteAt b 1 ≤ 7
  priority : byteAt b 4 ≤ 7
  reserved : resZero b 5 3 = true
  geometry : (jobGeom s (byteAt b 0)).isSome = true

theorem OpenForm.kept {s : State} {b : Bytes} (h : OpenForm s b) :
    ¬ (b.length ≠ 32 ∨ 7 < byteAt b 1 ∨ 7 < byteAt b 4 ∨ !resZero b 5 3 ∨ (jobGeom s (byteAt b 0)).isNone) := by
  obtain ⟨hlen, hflags, hpriority, hres, hgeom⟩ := h
  simp [hlen, hflags, hpriority, hres, Option.isSome_iff_ne_none.mp hgeom]

/-- The sequence is opened on nothing shared, or on what its own job has registered. -/
def PrefixFits (s : State) (b : Bytes) : Prop :=
  leAt b 2 2 = 0xFFFF ∨ ∃ x, Tab.find s.slab.prefixes (leAt b 2 2) = some x ∧ x.job = byteAt b 0

/-- What SEQ_OPEN makes of proper parameters. -/
def openReply (b : Bytes) (s : State) : Reply :=
  match Tab.free s.slab.seqs (par s 0x06000004) with
  | none => .refuse 0x0360 []
  | some i =>
    let r := openSeq i (byteAt b 0) (byteAt b 1) (leAt b 2 2) (byteAt b 4) (leAt b 8 8) (leAt b 16 8) (leAt b 24 8) s
    .ok (le 4 r.1) r.2

section
variable {p : Packet} {s : State} {b : Bytes}

theorem seqOpenBody_proper (hform : OpenForm s p.params) (hprefix : PrefixFits s p.params) :
    seqOpenBody p s = (openReply p.params s).unlessHost p := by
  refine (if_neg hform.kept).trans (if_neg fun hbad => ?_)
  rcases hprefix with hnone | ⟨x, hx, hjob⟩
  · simp [hnone] at hbad
  · simp [hx, hjob] at hbad

theorem openReply_full (hfull : Tab.free s.slab.seqs (par s 0x06000004) = none) : openReply b s = .refuse 0x0360 [] := by
  unfold openReply
  rw [hfull]

theorem openReply_free {i : Nat} {r : Nat × State} (hfree : Tab.free s.slab.seqs (par s 0x06000004) = some i)
    (hr : r = openSeq i (byteAt b 0) (byteAt b 1) (leAt b 2 2) (byteAt b 4) (leAt b 8 8) (leAt b 16 8) (leAt b 24 8) s) :
    openReply b s = .ok (le 4 r.1) r.2 := by
  unfold openReply
  rw [hfree, hr]

end

/-! ### The commands on one sequence (R255, R268, R278) -/

/-- What PREFIX_SHARE makes of an open sequence whose own slabs all find a reference tally: no step may have entered it. -/
def shareReply (i : Nat) (x : Seq) (s : State) : Reply :=
  if x.entered ≠ 0 then .refuse 0x0460 []
  else match Tab.free s.slab.prefixes 65535 with
    | none => .refuse 0x0363 []
    | some id => .ok (le 2 id) (mirrorShare id (sharePrefix id i x s))

/-- What SEQ_COMMIT makes of a length within the sequence's geometry: it never falls. -/
def commitReply (i n : Nat) (x : Seq) (s : State) : Reply :=
  if n < x.committed then .refuse 0x0463 [] else .ok [] (modSeq i (fun y => { y with committed := n }) s)

section
variable {p : Packet} {s : State} {i : Nat} {x : Seq}

theorem seqCloseBody_open (hlen : p.params.length = 4) (hseq : seqOf s (leAt p.params 0 4) = some (i, x)) (hopen : x.state = 1) :
    seqCloseBody p s = (Reply.ok [] (closeSeq i x s)).unlessHost p := by
  unfold seqCloseBody
  simp only [hlen, hseq, hopen]
  rfl

theorem seqCloseBody_unknown (hlen : p.params.length = 4) (hseq : seqOf s (leAt p.params 0 4) = none) :
    seqCloseBody p s = .refuse 0x0161 [] := by
  unfold seqCloseBody
  simp only [hlen, hseq]
  rfl

theorem prefixShareBody_open (hlen : p.params.length = 4) (hseq : seqOf s (leAt p.params 0 4) = some (i, x)) (hopen : x.state = 1)
    (htallies : (privateSlabs s x).length ≤ (freeRefTallies s).length) : prefixShareBody p s = (shareReply i x s).unlessHost p := by
  unfold prefixShareBody shareReply Reply.unlessHost
  cases Tab.free s.slab.prefixes 65535 <;>
    simp only [hlen, hseq, hopen, if_neg (Nat.not_lt.mpr htallies), ne_eq, not_true_eq_false, if_false]

theorem prefixShareBody_unknown (hlen : p.params.length = 4) (hseq : seqOf s (leAt p.params 0 4) = none) :
    prefixShareBody p s = .refuse 0x0161 [] := by
  unfold prefixShareBody
  simp only [hlen, hseq]
  rfl

theorem shareReply_entered (hentered : x.entered ≠ 0) : shareReply i x s = .refuse 0x0460 [] := if_pos hentered

theorem shareReply_ok {id : Nat} (hentered : x.entered = 0) (hfree : Tab.free s.slab.prefixes 65535 = some id) :
    shareReply i x s = .ok (le 2 id) (mirrorShare id (sharePrefix id i x s)) := by
  unfold shareReply
  rw [if_neg (not_not_intro hentered), hfree]

theorem seqQueryBody_known (hlen : p.params.length = 4) (hseq : seqOf s (leAt p.params 0 4) = some (i, x)) :
    seqQueryBody p s = .ok (seqRecord x) s := by
  unfold seqQueryBody
  simp only [hlen, hseq]
  rfl

theorem seqQueryBody_unknown (hlen : p.params.length = 4) (hseq : seqOf s (leAt p.params 0 4) = none) :
    seqQueryBody p s = .refuse 0x0161 [] := by
  unfold seqQueryBody
  simp only [hlen, hseq]
  rfl

theorem seqCommitBody_known (hlen : p.params.length = 8) (hseq : seqOf s (leAt p.params 0 4) = some (i, x))
    (hfits : leAt p.params 4 4 ≤ 256 * ((jobGeom s x.job).map Geom.maxIndex).getD 0) :
    seqCommitBody p s = (commitReply i (leAt p.params 4 4) x s).unlessHost p := by
  unfold seqCommitBody
  simp only [hlen, hseq, if_neg (Nat.not_lt.mpr hfits)]
  rfl

theorem seqCommitBody_unknown (hlen : p.params.length = 8) (hseq : seqOf s (leAt p.params 0 4) = none) :
    seqCommitBody p s = .refuse 0x0161 [] := by
  unfold seqCommitBody
  simp only [hlen, hseq]
  rfl

end

/-! ### SEQ_ENTER (R278) -/

/-- The ranges of SEQ_ENTER's parameters. -/
structure EnterForm (b : Bytes) : Prop where
  nonempty : 1 ≤ leAt b 2 2
  atMost : leAt b 2 2 ≤ 1024
  len : b.length = 8 + 8 * leAt b 2 2
  job : byteAt b 0 ≤ 15
  reserved : resZero b 1 1 = true
  flags : ∀ k, k < leAt b 2 2 → leAt b (12 + 8 * k) 4 % 2 ^ 31 = 0

/-- A step may enter each sequence of the list: it is open, and whole unless it is recomputed. -/
def MayEnter (s : State) (l : List (Nat × Bool)) : Prop :=
  ∀ e ∈ l, ∃ x, seqOf s e.1 = some x ∧ x.2.state = 1 ∧ (e.2 = true ∨ x.2.dropped = [])

theorem EnterForm.kept {b : Bytes} (h : EnterForm b) : ¬ (leAt b 2 2 = 0 ∨ 1024 < leAt b 2 2 ∨ b.length ≠ 8 + 8 * leAt b 2 2 ∨ 15 < byteAt b 0 ∨
    !resZero b 1 1 ∨ (List.range (leAt b 2 2)).any (fun k => leAt b (12 + 8 * k) 4 % 2 ^ 31 != 0)) := by
  obtain ⟨hsome, hmost, hlen, hjob, hres, hflags⟩ := h
  have hany : (List.range (leAt b 2 2)).any (fun k => leAt b (12 + 8 * k) 4 % 2 ^ 31 != 0) = false :=
    List.any_eq_false.mpr fun k hk => by simpa using hflags k (List.mem_range.mp hk)
  simp only [hany, hres, Bool.not_true, Bool.false_eq_true, or_false]
  omega

section
variable {p : Packet} {s : State} {l : List (Nat × Bool)}

theorem enterRefusal_none (h : MayEnter s l) : enterRefusal s l = none := by
  refine (if_neg fun hbad => ?_).trans (if_neg fun hbad => ?_)
  · obtain ⟨e, he, hclosed⟩ := List.any_eq_true.mp hbad
    obtain ⟨x, hx, hstate, -⟩ := h e he
    simp [hx, hstate] at hclosed
  · obtain ⟨e, he, hholed⟩ := List.any_eq_true.mp hbad
    obtain ⟨x, hx, -, hrecompute | hdropped⟩ := h e he
    · simp [hrecompute] at hholed
    · simp [hx, hdropped] at hholed

theorem enterRefusal_unknown {e : Nat × Bool} (he : e ∈ l) (hseq : seqOf s e.1 = none) : enterRefusal s l = some 0x0161 := by
  unfold enterRefusal
  exact if_pos (List.any_eq_true.mpr ⟨e, he, by rw [hseq]⟩)

theorem seqEnterBody_enters (hform : EnterForm p.params) (hmay : MayEnter s (enterList p.params)) : seqEnterBody p s =
    (Reply.ok [] ((enterList p.params).foldl (fun t e => enterSeq (leAt p.params 4 4) e t) s)).unlessHost p := by
  unfold seqEnterBody
  simp only [if_neg hform.kept, enterRefusal_none hmay]
  rfl

theorem seqEnterBody_unknown {e : Nat × Bool} (hform : EnterForm p.params) (he : e ∈ enterList p.params) (hseq : seqOf s e.1 = none) :
    seqEnterBody p s = .refuse 0x0161 [] := by
  unfold seqEnterBody
  simp only [if_neg hform.kept, enterRefusal_unknown he hseq]
  rfl

end

/-! ### STEP_RETIRE and SLAB_RESERVE (R271) -/

/-- What SLAB_RESERVE makes of a reservation: granted, or refused with what could have been granted. -/
def reserveReply (n : Nat) (r : Bool × State) : Reply :=
  if r.1 then .ok (le 4 n) r.2 else .refuseWith 0x0362 (le 4 (freeSlabs r.2 - outstanding r.2)) r.2

section
variable {p : Packet} {s : State}

theorem stepRetireBody_proper (hlen : p.params.length = 8) (hjob : byteAt p.params 0 ≤ 15) (hres : resZero p.params 1 3 = true) :
    stepRetireBody p s = (Reply.ok [] (retireStep (byteAt p.params 0) (leAt p.params 4 4) s)).unlessHost p := by
  have hgood : ¬ (p.params.length ≠ 8 ∨ 15 < byteAt p.params 0 ∨ !resZero p.params 1 3) := by
    simp [hlen, hjob, hres]
  exact if_neg hgood

theorem slabReserveBody_proper (hlen : p.params.length = 12) (hjob : byteAt p.params 0 ≤ 15) (hres : resZero p.params 1 3 = true) :
    slabReserveBody p s =
      (reserveReply (leAt p.params 8 4) (reserveSlabs (byteAt p.params 0) (leAt p.params 4 4) (leAt p.params 8 4) s)).unlessHost p := by
  have hgood : ¬ (p.params.length ≠ 12 ∨ 15 < byteAt p.params 0 ∨ !resZero p.params 1 3) := by
    simp [hlen, hjob, hres]
  exact if_neg hgood

theorem reserveReply_granted (n : Nat) {r : Bool × State} (h : r.1 = true) : reserveReply n r = .ok (le 4 n) r.2 := if_pos h

theorem reserveReply_refused (n : Nat) {r : Bool × State} (h : r.1 = false) :
    reserveReply n r = .refuseWith 0x0362 (le 4 (freeSlabs r.2 - outstanding r.2)) r.2 := if_neg (by simp [h])

end

/-! ### PREFIX_DROP, SLAB_QUERY and SLAB_STATUS (R259, R278) -/

section
variable {p : Packet} {s : State}

theorem prefixDropBody_known {x : Prefix} (hlen : p.params.length = 4) (hres : resZero p.params 2 2 = true)
    (hx : Tab.find s.slab.prefixes (leAt p.params 0 2) = some x) : prefixDropBody p s = .ok [] (dropPrefix (leAt p.params 0 2) x s) := by
  unfold prefixDropBody
  simp [hlen, hres, hx]

theorem prefixDropBody_unknown (hlen : p.params.length = 4) (hres : resZero p.params 2 2 = true)
    (hx : Tab.find s.slab.prefixes (leAt p.params 0 2) = none) : prefixDropBody p s = .refuse 0x0162 [] := by
  unfold prefixDropBody
  simp [hlen, hres, hx]

theorem slabQueryBody_ok (hlen : p.params.length = 4) (hslot : leAt p.params 0 4 < poolSlots s) :
    slabQueryBody p s = .ok (slabRecord s (leAt p.params 0 4)) s := if_neg (by simp [hlen, hslot])

theorem slabQueryBody_past (hslot : poolSlots s ≤ leAt p.params 0 4) : slabQueryBody p s = .refuse 0x0160 [] := if_pos (.inr hslot)

end

/-! ### The end of a promotion (R274) -/

section
variable {n dt : Nat} {o : Promo} {b : Slab} {s : State}

theorem exec_promotion_started (ho : (advance dt s).slab.promos.find? (fun p => p.slab == n) = some o) (hawake : awake (advance dt s) = true)
    (hready : sramReady (advance dt s) (stackOf (slabHome (advance dt s) n)) = true) (hstarted : o.started = true) :
    exec (.promotion dt n) s = .next (promote o (advance dt s)) := by
  change execPromotion dt n s = _
  unfold execPromotion
  simp only [ho, hawake, hready, hstarted]
  rfl

/-- The promotion is no longer waiting, and its charge is given back. -/
def promotionGone (o : Promo) (s : State) : State :=
  giveBack (.maintenance o.slab) (modSlabs (fun k => { k with promos := k.promos.filter (fun p => p.slab != o.slab) }) s)

theorem promote_notShared (hb : slabAt s o.slab = some b) (hstate : b.state ≠ 2) : promote o s = promotionGone o s := by
  unfold promote
  simp only [hb, if_pos hstate]
  rfl

/-- The bytes of the slab of a promotion. -/
def promotedBytes (o : Promo) (b : Slab) (s : State) : Bytes :=
  Memory.readN s.ddr (slabHomeAddr s o.slab) (((jobGeom s b.job).map Geom.slabBytes).getD 0)

/-- The slab lies in its home's commons as well. -/
def slabCopied (o : Promo) (b : Slab) (s : State) : State :=
  modSlab o.slab (fun x => { x with promoted := true, commons := commonsAddr (slabHome s o.slab) o.offset })
    (modCluster (slabHome s o.slab) (fun k => { k with commons := Memory.writeN k.commons o.offset (promotedBytes o b s) }) s)

theorem promote_shared (hb : slabAt s o.slab = some b) (hstate : b.state = 2) : promote o s =
    slabEvent (slabHome s o.slab) 4 b.job 0 0 b.index o.slab (slabCount 4 (promotionGone o (slabCopied o b s))) := by
  unfold promote
  simp only [hb, if_neg (not_not_intro hstate)]
  rfl

end

/-- Settles O42, command by command from what their bodies answer, and a promotion from what `promote` does. -/
theorem slabCommands : Obligations.SlabCommands := by
  refine ⟨?opening, ?known, ?unknown, ?enter, ?steps, ?slabs, ?status, ?promotion⟩
  case opening =>
    rintro dt h q s _ rfl hlen hflags hpriority hres hgeom hprefix
    have hbody (p : Packet) (hp : p.params = q) : seqOpenBody p (advance dt s) = (openReply q (advance dt s)).unlessHost p := by
      subst hp
      exact seqOpenBody_proper ⟨hlen, hflags, hpriority, hres, hgeom⟩ hprefix
    exact ⟨declines_host rfl hbody, fun hfw hfull => declines_firmware rfl hbody hfw (openReply_full hfull),
      fun i r hfw hfree hr => answers_firmware rfl hbody hfw (openReply_free hfree hr)⟩
  case known =>
    rintro dt i h q x s _ rfl hseq
    refine ⟨fun hlen hopen => ?_, fun hlen => answers_of rfl ?_, fun hlen hfits => ?_⟩
    · have hclose (p : Packet) (hp : p.params = q) :
          seqCloseBody p (advance dt s) = (Reply.ok [] (closeSeq i x (advance dt s))).unlessHost p := by
        subst hp
        exact seqCloseBody_open hlen hseq hopen
      have hshare (htallies : (privateSlabs (advance dt s) x).length ≤ (freeRefTallies (advance dt s)).length) (p : Packet) (hp : p.params = q) :
          prefixShareBody p (advance dt s) = (shareReply i x (advance dt s)).unlessHost p := by
        subst hp
        exact prefixShareBody_open hlen hseq hopen htallies
      exact ⟨declines_host rfl hclose, fun hfw => answers_firmware rfl hclose hfw rfl,
        fun hfw htallies hentered => declines_firmware rfl (hshare htallies) hfw (shareReply_entered hentered),
        fun id hfw htallies hentered hfree => answers_firmware rfl (hshare htallies) hfw (shareReply_ok hentered hfree)⟩
    · rintro p rfl _ _
      exact seqQueryBody_known hlen hseq
    · have hcommit (p : Packet) (hp : p.params = q) :
          seqCommitBody p (advance dt s) = (commitReply i (leAt q 4 4) x (advance dt s)).unlessHost p := by
        subst hp
        exact seqCommitBody_known hlen hseq hfits
      exact ⟨declines_host rfl hcommit, fun hfw hfalls => declines_firmware rfl hcommit hfw (if_pos hfalls),
        fun hfw hkept => answers_firmware rfl hcommit hfw (if_neg (Nat.not_lt.mpr hkept))⟩
  case unknown =>
    rintro dt h q s _ rfl hseq
    refine ⟨fun hlen => ⟨declines_of rfl ?_, declines_of rfl ?_, declines_of rfl ?_⟩, fun hlen => declines_of rfl ?_⟩ <;> rintro p rfl _ _
    · exact seqCloseBody_unknown hlen hseq
    · exact prefixShareBody_unknown hlen hseq
    · exact seqQueryBody_unknown hlen hseq
    · exact seqCommitBody_unknown hlen hseq
  case enter =>
    rintro dt _ h q s _ rfl rfl hsome hmost hlen hjob hres hflags
    have hform : EnterForm q := ⟨hsome, hmost, hlen, hjob, hres, hflags⟩
    refine ⟨fun hmay => ?_, fun e he hseq => declines_of rfl ?_⟩
    · have hbody (p : Packet) (hp : p.params = q) : seqEnterBody p (advance dt s) =
          (Reply.ok [] ((enterList q).foldl (fun t e => enterSeq (leAt q 4 4) e t) (advance dt s))).unlessHost p := by
        subst hp
        exact seqEnterBody_enters hform hmay
      exact ⟨declines_host rfl hbody, fun hfw => answers_firmware rfl hbody hfw rfl⟩
    · rintro p rfl _ _
      exact seqEnterBody_unknown hform he hseq
  case steps =>
    rintro dt h q s _ rfl hjob hres
    refine ⟨fun hlen => ?_, ?_⟩
    · have hbody (p : Packet) (hp : p.params = q) : stepRetireBody p (advance dt s) =
          (Reply.ok [] (retireStep (byteAt q 0) (leAt q 4 4) (advance dt s))).unlessHost p := by
        subst hp
        exact stepRetireBody_proper hlen hjob hres
      exact ⟨declines_host rfl hbody, fun hfw => answers_firmware rfl hbody hfw rfl⟩
    · rintro r hlen rfl
      have hbody (p : Packet) (hp : p.params = q) : slabReserveBody p (advance dt s) = (reserveReply (leAt q 8 4)
          (reserveSlabs (byteAt q 0) (leAt q 4 4) (leAt q 8 4) (advance dt s))).unlessHost p := by
        subst hp
        exact slabReserveBody_proper hlen hjob hres
      exact ⟨declines_host rfl hbody, fun hfw hr => answers_firmware rfl hbody hfw (reserveReply_granted _ hr),
        fun hfw hr => declinesWith_firmware rfl hbody hfw (reserveReply_refused _ hr)⟩
  case slabs =>
    rintro dt h q s _ rfl hlen
    refine ⟨fun hres => ⟨fun x hx => answers_of rfl ?_, fun hx => declines_of rfl ?_⟩, fun hslot => answers_of rfl ?_,
      fun hslot => declines_of rfl ?_⟩ <;> rintro p rfl _ _
    · exact prefixDropBody_known hlen hres hx
    · exact prefixDropBody_unknown hlen hres hx
    · exact slabQueryBody_ok hlen hslot
    · exact slabQueryBody_past hslot
  case status =>
    rintro dt h s _ rfl
    exact answers_of rfl fun p hp _ _ => if_neg (not_not_intro hp)
  case promotion =>
    rintro dt n o b s _ rfl ho hawake hready hstarted hb
    rw [exec_promotion_started ho hawake hready hstarted]
    refine ⟨fun hstate => congrArg _ (promote_notShared hb hstate), ?_⟩
    rintro _ _ hstate rfl rfl
    exact congrArg _ (promote_shared hb hstate)

end Sys2Proof.Machine
end

section
/-! SUPPORT. The events of the serving loop: builds, acceptance, the deadlines of sides, waits for cores, and the age of targets
(10 R286 to R294, R302, R314, R317, R318). -/
namespace Sys2Proof.Machine

/-! ### What a build opportunity starts from (10 R288, R289) -/

/-- The state that a build decides on: the job's epoch adopted, its expired lines moved, and the plan's lines opened. -/
def buildState (j : Nat) (p : StepPlan) (s : State) : State := p.opens.foldl (fun s o => openLine j o s) (moveExpired j (adoptJob j s))

/-- The start of a job's cadence: the one it has, or the next whole microsecond. -/
def buildStart (j : Nat) (u : State) : Nat := (jobAt u j).start.getD (ceilDiv u.clk.tb 1000 * 1000)

/-- The cadence point of the step to be built: far enough ahead, and after the job's newest step. -/
def buildPoint (j : Nat) (u : State) : Nat :=
  cadence (buildStart j u) (jobPar u j 0x03) (Nat.max (u.clk.tb + 256) (match (jobAt u j).steps.getLast? with | some t => t.due + 1 | none => 0))

/-- What a step needs before its cores are looked for: work, a plan that fits, room in flight and in the pool, and dies awake. -/
structure MayBuild (j : Nat) (d : JobDecl) (p : StepPlan) (u : State) : Prop where
  work : hasWork u j (buildPoint j u) d = true
  plan : planOk u d p = true
  inFlight : ((jobAt u j).steps.filter (fun t => t.state != 7)).length < jobPar u j 0x04
  pool : poolUsed u .serving < poolSize u .serving
  dies : asleepStacks u (planMask p) = []

/-- The job's core map once the plan's cores are held. -/
def heldMap (j : Nat) (d : JobDecl) (p : StepPlan) (u : State) : Option (List (Option Nat)) :=
  holdCores u j d.clusters (planCores p) (nth u.coreMaps j [])

/-- The job waits for cores, from its first wait on. -/
def waitCores (j : Nat) (u : State) : State :=
  modJob j (fun x => { x with start := some (buildStart j u), waitingCores := some (x.waitingCores.getD u.clk.tb) }) u

/-- The job's next step is posted with what a build has taken in. -/
def postNext (j : Nat) (d : JobDecl) (p : StepPlan) (u : State) (b : Build) (m : List (Option Nat)) : State :=
  postStep j (nextStep (jobAt u j)) (buildPoint j u) (buildStart j u) d p b m

/-- What a decode build of the job's next step takes in. -/
def fillNext (j : Nat) (u : State) : Build := fillDecode j (nextStep (jobAt u j)) (buildPoint j u) u

/-- What a build that may go on does with the cores it finds. -/
def buildOn (j : Nat) (d : JobDecl) (p : StepPlan) (u : State) : Option (List (Option Nat)) → State
  | none => waitCores j u
  | some m =>
    if d.kind ≠ 2 then postNext j d p u ⟨u, 0, 0, 0, [], [], []⟩ m
    else if (fillNext j u).rows = 0 ∧ (fillNext j u).recompute.isEmpty then (fillNext j u).s
    else postNext j d p u (fillNext j u) m

/-! ### Builds (10 R288, R290, R302) -/

section
variable {dt j : Nat} {d : JobDecl} {p : StepPlan} {s u : State} {m : List (Option Nat)}

theorem MayBuild.goes_on (h : MayBuild j d p u) : ¬ (!hasWork u j (buildPoint j u) d || !planOk u d p
    || decide (jobPar u j 0x04 ≤ ((jobAt u j).steps.filter (fun t => t.state != 7)).length)
    || decide (poolSize u .serving ≤ poolUsed u .serving)) = true := by
  obtain ⟨hwork, hplan, hflight, hpool, -⟩ := h
  simp [hwork, hplan, hflight, hpool]

theorem buildStep_of_mayBuild (h : MayBuild j d p (buildState j p s)) :
    buildStep j d p s = buildOn j d p (buildState j p s) (heldMap j d p (buildState j p s)) := by
  refine (if_neg h.goes_on).trans ?_
  split
  next k l hasleep => exact (List.cons_ne_nil k l (hasleep.symm.trans h.dies)).elim
  next =>
    split
    next hm => exact (congrArg (buildOn j d p (buildState j p s)) hm).symm
    next m hm => exact (congrArg (buildOn j d p (buildState j p s)) hm).symm

theorem buildOn_posts (hkind : d.kind ≠ 2) : buildOn j d p u (some m) = postNext j d p u ⟨u, 0, 0, 0, [], [], []⟩ m := if_pos hkind

theorem buildOn_posts_decode (hkind : d.kind = 2) (hsome : (fillNext j u).rows ≠ 0 ∨ (fillNext j u).recompute ≠ []) :
    buildOn j d p u (some m) = postNext j d p u (fillNext j u) m := by
  refine (if_neg (not_not_intro hkind)).trans (if_neg ?_)
  rintro ⟨hrows, hrecompute⟩
  exact hsome.elim (· hrows) (· (List.isEmpty_iff.mp hrecompute))

theorem exec_stepBuild (hd : jobDecl (advance dt s) j = some d) (hawake : awake (advance dt s) = true)
    (hready : (advance dt s).boot.ready = true) (hrec : recovering (advance dt s) = false) :
    exec (.stepBuild dt j p) s = .next (buildStep j d p (advance dt s)) := by
  change execStepBuild dt j p s = _
  unfold execStepBuild
  simp only [hd, hawake, hready, hrec]
  rfl

theorem exec_stepBuild_of_mayBuild (hd : jobDecl (advance dt s) j = some d) (hawake : awake (advance dt s) = true)
    (hready : (advance dt s).boot.ready = true) (hrec : recovering (advance dt s) = false)
    (hu : u = buildState j p (advance dt s)) (h : MayBuild j d p u) :
    exec (.stepBuild dt j p) s = .next (buildOn j d p u (heldMap j d p u)) := by
  subst hu
  rw [exec_stepBuild hd hawake hready hrec, buildStep_of_mayBuild h]

end

/-! ### Acceptance (10 R294) -/

theorem stepDone_iff {s : State} {t : Step} : stepDone s t = true ↔ t.state = 6 ∧ t.tiles ≤ (tallyAt s t.doneTally).count := by
  simp [stepDone]

theorem exec_acceptance {dt j : Nat} {d : JobDecl} {t : Step} {facts : List (List RowFact)} {s : State} (hd : jobDecl (advance dt s) j = some d)
    (ht : (jobAt (advance dt s) j).steps.find? (fun t => t.state != 7) = some t) (hawake : awake (advance dt s) = true)
    (hdone : stepDone (advance dt s) t = true) :
    exec (.acceptance dt j facts) s = .next (sweepSheets (acceptStep j d t facts (advance dt s))) := by
  change execAcceptance dt j facts s = _
  unfold execAcceptance
  simp only [hd, ht, hawake, hdone]
  rfl

/-- The drafts counted are there, and equal the tokens of the rows before them. -/
theorem agreeing_agree {ts ds : List Nat} {k : Nat} (hk : k < agreeing ts ds) : k < ts.length ∧ k < ds.length ∧ nth ts k 0 = nth ds k 0 := by
  fun_induction agreeing ts ds generalizing k with
  | case1 t ts ds ih =>
    cases k with
    | zero => exact ⟨Nat.succ_pos _, Nat.succ_pos _, rfl⟩
    | succ k =>
      obtain ⟨hts, hds, heq⟩ := ih (Nat.lt_of_succ_lt_succ hk)
      exact ⟨Nat.succ_lt_succ hts, Nat.succ_lt_succ hds, heq⟩
  | case2 | case3 => exact absurd hk (Nat.not_lt_zero k)

/-- The first draft not counted differs from the token of the row before it. -/
theorem agreeing_stops {ts ds : List Nat} (hts : agreeing ts ds < ts.length) (hds : agreeing ts ds < ds.length) :
    nth ts (agreeing ts ds) 0 ≠ nth ds (agreeing ts ds) 0 := by
  fun_induction agreeing ts ds with
  | case1 t ts ds ih => exact ih (Nat.lt_of_succ_lt_succ hts) (Nat.lt_of_succ_lt_succ hds)
  | case2 t ts d ds hne => exact hne
  | case3 ts ds hnil =>
    obtain ⟨t, ts, rfl⟩ := List.exists_cons_of_length_pos hts
    obtain ⟨d, ds, rfl⟩ := List.exists_cons_of_length_pos hds
    exact (hnil t ts d ds rfl rfl).elim

/-! ### The deadlines of sides (10 R314, R317) -/

/-- The lines of a side that wait or decode move to the slow lane as its release check passes. -/
def checkMoves (id d : Nat) (s : State) : State :=
  ((linesOf s id).filter (fun l => l.state == 1 || l.state == 2)).foldl (fun s l => moveSlow l 3 (jobAt s l.job).stepLast d s) s

/-- The slow lines of a side become unread as its second deadline passes. -/
def slowUnread (id d : Nat) (s : State) : State :=
  ((linesOf s id).filter (fun l => l.state == 3)).foldl (fun s l => lineUnread l d s) s

section
variable {dt id d : Nat} {x : Sheet} {f : List FieldValue} {s : State} (hx : sheetAt (advance dt s) id = some x)
  (hawake : awake (advance dt s) = true) (halive : x.alive = true) (howed : acceptanceOwed (advance dt s) d = false)
include hx hawake halive howed

theorem exec_releaseCheckTimeout (hhit : x.checkHit = some d) (hopen : x.committed.isNone = true) :
    exec (.releaseCheckTimeout dt id f) s = .next (commitRecord x (sheetPlan (checkMoves id d (advance dt s)) x f) (checkMoves id d (advance dt s))) := by
  change execReleaseCheckTimeout dt id f s = _
  unfold execReleaseCheckTimeout
  simp only [hx, hhit, hawake, halive, hopen, howed]
  rfl

theorem exec_secondDeadlineTimeout (hhit : x.secondHit = some d) (hcommitted : x.committed.isSome = true) :
    exec (.secondDeadlineTimeout dt id) s = .next (sweepSheets (commitAmendment x (unfilled x []) (slowUnread id d (advance dt s)))) := by
  change execSecondDeadlineTimeout dt id s = _
  unfold execSecondDeadlineTimeout
  simp only [hx, hhit, hawake, halive, hcommitted, howed]
  rfl

end

/-! ### Waits for cores, and learning targets (10 R302, R318) -/

theorem exec_jobWaiting {dt j t : Nat} {s : State} (ht : (jobAt (advance dt s) j).waitingCores = some t) (hawake : awake (advance dt s) = true)
    (hfirst : (jobAt (advance dt s) j).waitReported = false) (hperiod : t + jobPar (advance dt s) j 0x03 ≤ (advance dt s).clk.tb) :
    exec (.jobWaiting dt j) s = .next (servEvent 7
      { job := j, step := nextStep (jobAt (advance dt s) j), at_ := t, duration := (advance dt s).clk.tb - t }
      (modJob j (fun x => { x with waitReported := true }) (advance dt s))) := by
  change execJobWaiting dt j s = _
  unfold execJobWaiting
  simp only [ht, hawake, hfirst, hperiod]
  rfl

/-- The targets older than 60 s that no sample has matched. -/
def oldTargets (s : State) : List Target :=
  s.serv.targets.filter (fun t => decide (t.arrived + 60000000000 < s.clk.tb) && !targetMatched s t)

theorem exec_learningTargetExpiry {dt : Nat} {s : State} {o : List Target} (ho : o = oldTargets (advance dt s)) (hawake : awake (advance dt s) = true) :
    exec (.learningTargetExpiry dt) s = .next (watchTargets (o.foldl
      (fun s t => servEvent 8 { at_ := t.arrived, sheet := t.sheet, region := t.region } s)
      { advance dt s with serv := { (advance dt s).serv with targets := (advance dt s).serv.targets.filter (fun t => !o.contains t) } })) := by
  subst ho
  change execLearningTargetExpiry dt s = _
  unfold execLearningTargetExpiry
  simp only [hawake]
  rfl

/-- Settles O44, event by event from what each does, and the accepted drafts by recursion on `agreeing`. -/
theorem servingEvents : Obligations.ServingEvents := by
  refine ⟨?builds, ?accepts, fun ts ds => ⟨fun k => agreeing_agree, agreeing_stops⟩, ?deadlines, ?waits, ?expires⟩
  case builds =>
    rintro dt j _ _ p d s _ u rfl hd hawake hready hrec hu rfl rfl hwork hplan hflight hpool hdies
    have hexec := exec_stepBuild_of_mayBuild hd hawake hready hrec hu ⟨hwork, hplan, hflight, hpool, hdies⟩
    refine ⟨fun m hm => ?_, fun hm => ?_⟩ <;> rw [heldMap, hm] at hexec
    · refine ⟨fun hkind => hexec.trans (congrArg _ (buildOn_posts hkind)), ?_⟩
      rintro _ hkind rfl hsome
      exact hexec.trans (congrArg _ (buildOn_posts_decode hkind hsome))
    · exact hexec
  case accepts =>
    rintro dt j d t facts s _ rfl hd ht hawake hstate htiles
    exact exec_acceptance hd ht hawake (stepDone_iff.mpr ⟨hstate, htiles⟩)
  case deadlines =>
    rintro dt id d x f s _ rfl hx hawake halive howed
    refine ⟨exec_releaseCheckTimeout hx hawake halive howed, ?_⟩
    rintro _ hhit hcommitted rfl
    exact exec_secondDeadlineTimeout hx hawake halive howed hhit hcommitted
  case waits =>
    rintro dt j t s _ rfl
    exact exec_jobWaiting
  case expires =>
    rintro dt o _ s _ rfl hawake ho rfl
    exact exec_learningTargetExpiry ho hawake

end Sys2Proof.Machine
end

section
/-! SUPPORT. The commit of a side's records, the edges of OUT_HOLD_N, and OUT_STATUS (10 R313, R316; 12 R371, R372, R381, R384, R385). -/
namespace Sys2Proof.Machine

/-! ### When a sheet record is due (10 R313) -/

theorem sheetAt_id {s : State} {id : Nat} {h : Sheet} (hside : sheetAt s id = some h) : h.id = id := by
  unfold sheetAt at hside
  simpa using List.find?_some hside

/-- Everything of the side is there: its release deadline has passed, or its lines are all found, listed and cut. -/
def recordReady (h : Sheet) : Prop :=
  h.checkHit.isSome = true ∨ (h.whole = true ∧ h.listDone = true ∧ ∀ r ∈ h.asked, r ∈ h.cut)

theorem sheetRecordDue_iff {s : State} {h : Sheet} : sheetRecordDue s h = true ↔
    h.alive = true ∧ h.committed = none ∧ recordReady h ∧ ∀ l ∈ linesOf s h.id, l.state ≠ 1 ∧ l.state ≠ 2 := by
  unfold sheetRecordDue recordReady
  simp [and_assoc]

/-! ### RECORD_COMMIT (10 R313, R316; 12 R371, R372) -/

section
variable {dt id : Nat} {f : List FieldValue} {s : State} {h : Sheet} (hawake : awake (advance dt s) = true)
include hawake

theorem exec_recordCommit_sheet (hside : sheetAt (advance dt s) id = some h) : exec (.recordCommit dt 1 id f) s =
    .next (if sheetRecordDue (advance dt s) h then commitRecord h (sheetPlan (advance dt s) h f) (advance dt s) else advance dt s) := by
  change execRecordCommit dt 1 id f s = _
  unfold execRecordCommit
  simp only [hawake, hside]
  rfl

theorem exec_recordCommit_amendment (hside : sheetAt (advance dt s) id = some h) (halive : h.alive = true) (hcommitted : h.committed.isSome = true) :
    exec (.recordCommit dt 2 id f) s = .next (commitAmendment h (unfilled h f) (advance dt s)) := by
  change execRecordCommit dt 2 id f s = _
  unfold execRecordCommit
  simp only [hawake, hside, halive, hcommitted]
  rfl

theorem exec_recordCommit_notice (hdead : (advance dt s).prep.sheets.find? (fun h => h.id == id && h.dead.isSome && !h.noticed) = some h) :
    exec (.recordCommit dt 3 id f) s = .next (sweepSheets (commitRecord h ⟨3, [], [], [], [], false⟩ (advance dt s))) := by
  change execRecordCommit dt 3 id f s = _
  unfold execRecordCommit
  simp only [hawake, hdead]
  rfl

end

/-! ### Amendments (10 R316) -/

section
variable {h : Sheet} {f : List FieldValue} {s : State}

theorem commitAmendment_of_lines (hnew : newlyEnded s h.id ≠ []) : commitAmendment h f s =
    if (commitRecord h (amendPlan s h f) s).out.lastRecord = s.out.lastRecord then commitRecord h (amendPlan s h f) s
    else amendEvents (newlyEnded s h.id) (commitRecord h (amendPlan s h f) s) := by
  have hsays : ¬ ((amendPlan s h f).lines.isEmpty && (amendPlan s h f).fields.isEmpty) = true := by
    simp [amendPlan, hnew]
  exact if_neg hsays

theorem commitAmendment_of_nothing (hlines : (amendPlan s h f).lines = []) (hfields : (amendPlan s h f).fields = []) :
    commitAmendment h f s = s := by
  have hsilent : ((amendPlan s h f).lines.isEmpty && (amendPlan s h f).fields.isEmpty) = true := by
    rw [hlines, hfields]
    rfl
  exact if_pos hsilent

end

/-! ### The edges of OUT_HOLD_N (12 R381) -/

section
variable {dt : Nat} {s : State} (hawake : awake (advance dt s) = true)
include hawake

theorem exec_outHoldFall_awake (hhigh : (advance dt s).pins.outHold = true) : exec (.outHoldFall dt) s = .next (outEvent 3 0xFF 0 0
    { advance dt s with pins := { (advance dt s).pins with outHold := false }, out := { (advance dt s).out with hold := some (advance dt s).clk.tb } }) := by
  change execOutHoldFall dt s = _
  unfold execOutHoldFall
  simp only [hhigh]
  exact congrArg _ (if_pos hawake)

theorem exec_outHoldRise_awake (hlow : (advance dt s).pins.outHold = false) : exec (.outHoldRise dt) s = .next (outEvent 4 0xFF 0 0
    { advance dt s with pins := { (advance dt s).pins with outHold := true }, out := { (advance dt s).out with hold := none } }) := by
  change execOutHoldRise dt s = _
  unfold execOutHoldRise
  simp only [hlow]
  exact congrArg _ (if_pos hawake)

end

/-! ### OUT_STATUS (12 R384, R385) -/

theorem outStatusBody_ok {p : Packet} (a : State) (h : p.params = []) : outStatusBody p a =
    .ok (pack [(8, occupancy a), (1, b2n a.out.high), (1, b2n (!a.pins.outHold)), (2, 0),
      (2, sat 0xFFFF (recordsQueued a 0)), (2, sat 0xFFFF (rowsQueued a 0)), (4, 0),
      (2, sat 0xFFFF (recordsQueued a 1)), (2, sat 0xFFFF (rowsQueued a 1)), (4, 0), (4, a.out.lastRecord), (4, a.out.lastSent)]) a :=
  if_neg (not_not_intro h)

theorem outStatusBody_refuse {p : Packet} (a : State) (h : p.params ≠ []) : outStatusBody p a = .refuse 0x0190 [] := if_pos h

/-- Settles O47: RECORD_COMMIT kind by kind, an amendment by whether lines have ended, and the pin and OUT_STATUS from what each does. -/
theorem recordsAndHold : Obligations.RecordsAndHold := by
  refine ⟨?commits, ?amends, ?holds, ?status, ?refuses⟩
  case commits =>
    rintro dt id f s _ rfl hawake
    refine ⟨fun h hside halive hopen hready hlines => ?_, fun h hside hnot => ?_, fun h => exec_recordCommit_amendment hawake,
      fun h => exec_recordCommit_notice hawake⟩
    · have hdue : sheetRecordDue (advance dt s) h = true :=
        sheetRecordDue_iff.mpr ⟨halive, hopen, hready, (sheetAt_id hside).symm ▸ hlines⟩
      rw [exec_recordCommit_sheet hawake hside, if_pos hdue, sheetPlan, sheetAt_id hside]
    · rw [exec_recordCommit_sheet hawake hside, if_neg (Bool.eq_false_iff.mp hnot)]
  case amends =>
    rintro h f _ s _ rfl rfl
    exact ⟨commitAmendment_of_lines, commitAmendment_of_nothing⟩
  case holds =>
    rintro dt s _ rfl hawake
    exact ⟨exec_outHoldFall_awake hawake, exec_outHoldRise_awake hawake⟩
  case status =>
    rintro dt h s _ rfl
    exact answers_of rfl fun p hp _ _ => outStatusBody_ok _ hp
  case refuses =>
    intro dt h q s hq
    exact declines_of rfl fun p hp _ _ => outStatusBody_refuse _ (hp ▸ hq)

end Sys2Proof.Machine
end

section
/-! SUPPORT. The command interface: the static address, replies, framing, and the reads that take replies (13). -/
namespace Sys2Proof.Machine

/-! ### The static address (R389) -/

/-- A wake from Sleep thaws the saved state, asks for a boot, or does nothing: none of them samples the address balls. -/
theorem exec_wakeFromSleep_addr (dt ticks : Nat) (s : State) :
    ∃ t, exec (.wakeFromSleep dt ticks) s = .next t ∧ t.cmd.staticAddr = s.cmd.staticAddr := by
  change ∃ t, execWakeFromSleep dt ticks s = .next t ∧ _
  unfold execWakeFromSleep
  refine ⟨_, rfl, ?_⟩
  rw [← advance_addr dt s]
  have hboot := (askBoot_kept (recordWake 4 0x0F 0x7F (advance dt s))).trans (recordWake_kept _ _ _ _)
  split
  · next c _ _ =>
    split
    · split
      · exact congrArg Kept.addr (thaw_kept c ticks (advance dt s))
      · exact congrArg Kept.addr hboot
    · exact congrArg Kept.addr hboot
  · rfl

theorem exec_pllLock_addr (dt : Nat) (s : State) :
    ∃ t, exec (.pllLock dt) s = .next t ∧ t.cmd.staticAddr = s.cmd.staticAddr := by
  refine ⟨_, rfl, ?_⟩
  rw [← advance_addr dt s]
  split
  · rfl
  · rfl

theorem exec_powerOnReset_addr (dt asel : Nat) (s : State) :
    ∃ t, exec (.powerOnReset dt asel) s = .next t ∧ t.cmd.staticAddr = 0x2C + asel % 4 := ⟨_, rfl, rfl⟩

/-- Only a power-on reset samples the address balls. -/
theorem exec_keeps_addr {c : Instr} {s t : State} (hc : ∀ dt a, c ≠ .powerOnReset dt a) (hexec : exec c s = .next t) :
    t.cmd.staticAddr = s.cmd.staticAddr := by
  have hkeeps : ∃ u, exec c s = .next u ∧ u.cmd.staticAddr = s.cmd.staticAddr := by
    cases hset : setsTb c with
    | false =>
      obtain ⟨u, hu, hheld⟩ := exec_held c s hset
      exact ⟨u, hu, hheld.addr.trans (advance_addr _ _)⟩
    | true =>
      cases c with
      | pllLock dt => exact exec_pllLock_addr dt s
      | powerOnReset dt asel => exact absurd rfl (hc dt asel)
      | wakeFromSleep dt ticks => exact exec_wakeFromSleep_addr dt ticks s
      | _ => exact absurd hset Bool.false_ne_true
  obtain ⟨u, hu, haddr⟩ := hkeeps
  rw [Host.Outcome.next.inj (hexec.symm.trans hu), haddr]

/-- What a command leaves as the static address: a freshly sampled one, or the one before. -/
theorem exec_addr_cases {c : Instr} {s t : State} (hexec : exec c s = .next t) :
    (∃ asel, t.cmd.staticAddr = 0x2C + asel % 4) ∨ t.cmd.staticAddr = s.cmd.staticAddr := by
  by_cases hc : ∃ dt asel, c = .powerOnReset dt asel
  · obtain ⟨dt, asel, rfl⟩ := hc
    obtain ⟨u, hu, haddr⟩ := exec_powerOnReset_addr dt asel s
    exact .inl ⟨asel, Host.Outcome.next.inj (hexec.symm.trans hu) ▸ haddr⟩
  · exact .inr (exec_keeps_addr (fun dt asel h => hc ⟨dt, asel, h⟩) hexec)

/-- Settles O7: a step samples the two balls into the address or keeps it, and only a power-on reset samples. -/
theorem staticAddressStays : Obligations.StaticAddressStays := by
  refine ⟨fun s t hlo hhi hstep => ?_, fun c s t hc hexec => exec_keeps_addr hc hexec, fun dt asel s hasel => ?_⟩
  · cases hq : s.pending with
    | nil =>
      have hsame : s = t := Host.Outcome.next.inj ((step_of_pending_nil hq).symm.trans hstep)
      exact hsame ▸ ⟨hlo, hhi⟩
    | cons c r =>
      rcases exec_addr_cases ((step_of_pending_cons hq).symm.trans hstep) with ⟨asel, haddr⟩ | haddr
      · omega
      · exact haddr ▸ ⟨hlo, hhi⟩
  · obtain ⟨t, ht, haddr⟩ := exec_powerOnReset_addr dt asel s
    exact ⟨t, ht, haddr.trans (by rw [Nat.mod_eq_of_lt hasel])⟩

/-! ### The bytes of a reply (R398) -/

/-- The 28 bytes of a reply that the CRC of its header covers. -/
def replyHead (opcode tag status epoch exec len : Nat) : Bytes :=
  pack [(2, opcode), (2, tag), (4, len), (2, status), (2, 0), (4, epoch), (8, exec), (4, 0)]

section
variable {op tag st ep ex : Nat} {data : Bytes}

theorem replyHead_length (len : Nat) : (replyHead op tag st ep ex len).length = 28 := by simp [replyHead]

theorem replyBytes_eq : replyBytes op tag st ep ex data =
    replyHead op tag st ep ex data.length ++ (le 4 (crc32c (replyHead op tag st ep ex data.length)) ++ (data ++ le 4 (crc32c data))) := by
  simp [replyBytes, replyHead, List.append_assoc]

theorem replyBytes_length : (replyBytes op tag st ep ex data).length = 36 + data.length := by
  simp only [replyBytes_eq, List.length_append, replyHead_length, le_length]
  omega

/-- The fields of the header read back, whatever follows it. -/
theorem leAt_replyHead {len : Nat} (rest : Bytes) (hop : op < 2 ^ 16) (htag : tag < 2 ^ 16) (hst : st < 2 ^ 16) (hlen : len < 2 ^ 32)
    (hep : ep < 2 ^ 32) (hex : ex < 2 ^ 64) :
    leAt (replyHead op tag st ep ex len ++ rest) 0 2 = op ∧ leAt (replyHead op tag st ep ex len ++ rest) 2 2 = tag ∧
    leAt (replyHead op tag st ep ex len ++ rest) 4 4 = len ∧ leAt (replyHead op tag st ep ex len ++ rest) 8 2 = st ∧
    leAt (replyHead op tag st ep ex len ++ rest) 10 2 = 0 ∧ leAt (replyHead op tag st ep ex len ++ rest) 12 4 = ep ∧
    leAt (replyHead op tag st ep ex len ++ rest) 16 8 = ex ∧ leAt (replyHead op tag st ep ex len ++ rest) 24 4 = 0 := by
  simp only [Nat.reducePow] at hop htag hst hlen hep hex
  simp [replyHead, leAt_pack_cons, leAt_pack_front, hop, htag, hst, hlen, hep, hex]

theorem replyBytes_take_head : (replyBytes op tag st ep ex data).take 28 = replyHead op tag st ep ex data.length := by
  rw [replyBytes_eq]
  exact List.take_left' (replyHead_length _)

theorem replyBytes_headerCrc : leAt (replyBytes op tag st ep ex data) 28 4 = crc32c ((replyBytes op tag st ep ex data).take 28) := by
  rw [replyBytes_take_head, replyBytes_eq, leAt_append _ _ _ _ (replyHead_length _).le, replyHead_length]
  exact leAt_front _ _ _ (crc32c_lt _)

theorem replyBytes_drop_data : (replyBytes op tag st ep ex data).drop 32 = data ++ le 4 (crc32c data) := by
  rw [replyBytes_eq, ← List.append_assoc]
  exact List.drop_left' (by rw [List.length_append, replyHead_length, le_length])

theorem replyBytes_data : ((replyBytes op tag st ep ex data).drop 32).take data.length = data := by
  rw [replyBytes_drop_data, List.take_left]

theorem replyBytes_dataCrc : leAt (replyBytes op tag st ep ex data) (32 + data.length) 4 = crc32c data := by
  unfold leAt
  rw [← List.drop_drop, replyBytes_drop_data, List.drop_left, List.take_of_length_le (by simp)]
  exact leNat_le _ _ (crc32c_lt _)

end

/-! ### What a reply changes (R399, R401, R428) -/

theorem raiseIbi_eq (mdb chan info : Nat) (s : State) :
    raiseIbi mdb chan info s = { s with cmd := { s.cmd with ibis := (raiseIbi mdb chan info s).cmd.ibis } } := by
  unfold raiseIbi
  split
  · rfl
  · rfl

/-- The causes that are raised rest on the causes before alone. -/
theorem raiseIbi_ibis (mdb chan info : Nat) (s : State) : (raiseIbi mdb chan info s).cmd.ibis =
    if s.cmd.ibis.any (fun i => i.mdb == mdb && i.chan == chan) then s.cmd.ibis else s.cmd.ibis ++ [⟨mdb, chan, info, false, none⟩] := by
  unfold raiseIbi
  split
  · rfl
  · rfl

theorem queueReply_host (r : Bytes) (s : State) : queueReply 0x01 r s = { s with cmd := { s.cmd with
    replies := s.cmd.replies ++ [r]
    ibis := (if s.cmd.replies.isEmpty then raiseIbi 0x01 0 0 s else s).cmd.ibis } } := by
  unfold queueReply
  rw [if_pos rfl]
  cases s.cmd.replies.isEmpty with
  | false => rfl
  | true =>
    simp only [if_true]
    rw [raiseIbi_eq]

theorem reply_host {p : Packet} (st ep ex : Nat) (data : Bytes) (s : State) (hp : p.sender = 0x01) :
    reply p st ep ex data s = { s with cmd := { s.cmd with
      replies := s.cmd.replies ++ [replyBytes p.opcode p.tag st ep ex data]
      ibis := (if s.cmd.replies.isEmpty then raiseIbi 0x01 0 0 s else s).cmd.ibis
      packetsCount := inc32 s.cmd.packetsCount 1
      refusedCount := (if st = 0 then s.cmd.refusedCount else inc32 s.cmd.refusedCount 1)
      badPacketsRc := (if p.framing.isSome then sat 0xFF (s.cmd.badPacketsRc + 1) else s.cmd.badPacketsRc) } } := by
  unfold reply
  rw [hp, queueReply_host]
  cases s.cmd.replies.isEmpty with
  | false => rfl
  | true => simp only [if_true, raiseIbi_ibis]

/-- Settles O10: the reply's bytes are those of R398, and its state is the queue, the causes and the counts. -/
theorem replyForm : Obligations.ReplyForm := by
  intro p st ep ex data s hp hop htag hst hlen hep hex
  have hstate := reply_host st ep ex data s hp
  obtain ⟨hopcode, htags, hlength, hstatus, hres, hepoch, hexec, hzero⟩ :=
    leAt_replyHead (len := data.length) (le 4 (crc32c (replyHead p.opcode p.tag st ep ex data.length)) ++ (data ++ le 4 (crc32c data)))
      hop htag hst hlen hep hex
  rw [← replyBytes_eq] at hopcode htags hlength hstatus hres hepoch hexec hzero
  exact ⟨replyBytes p.opcode p.tag st ep ex data, congrArg (·.cmd.replies) hstate, replyBytes_length,
    hopcode, htags, hlength, hstatus, hres, hepoch, hexec, hzero, replyBytes_headerCrc, replyBytes_data, replyBytes_dataCrc,
    congrArg (·.cmd.packetsCount) hstate, congrArg (·.cmd.refusedCount) hstate, hstate⟩

/-! ### Framing and unknown opcodes (R392, R395, R402) -/

theorem runPacket_framing {p : Packet} {st : Nat} (body : Body) (s : State) (h : p.framing = some st) :
    runPacket body p s = reply p st p.epoch 0 [] s := by
  unfold runPacket
  rw [h]

/-- A packet whose framing is whole, on a part that is not frozen, with an opcode that R402 does not list. -/
theorem runPacket_unknown {p : Packet} {s : State} (body : Body) (hframing : p.framing = none) (hfrozen : s.flt.frozen = false)
    (hop : opcodeKnown p.opcode = false) : runPacket body p s = refusedWith p s 0x01A3 := by
  have hrefused : refusedFirst p s = some 0x01A3 := by simp [refusedFirst, hfrozen, hop]
  unfold runPacket
  simp only [hframing, hrefused, hfrozen]
  rfl

/-- What is answered for the framing check that a packet fails. -/
def framingPacket (st op tag : Nat) (s : State) : Packet := ⟨0x01, op, tag, latestEpoch s, [], stamp s, some st⟩

theorem refuseFraming_turn {st op tag : Nat} {s : State} (hhears : hears s = true) (hturn : mustWait (framingPacket st op tag s) s = false) :
    refuseFraming st op tag s = reply (framingPacket st op tag s) st (latestEpoch s) 0 [] s :=
  (receive_turn fun _ => ⟨hhears, hturn⟩).trans (runPacket_framing _ s rfl)

theorem exec_framingRefusal_fails {dt : Nat} {k : BadPacket} {s : State} {st op tag : Nat}
    (h : framingFailure k.header k.params k.crc.toNat k.extra = some (st, op, tag)) :
    exec (.framingRefusal dt k) s = .next (refuseFraming st op tag (advance dt s)) := by
  change execFramingRefusal dt k s = _
  unfold execFramingRefusal
  rw [h]

theorem exec_packetGap_header {dt : Nat} {hd : Bytes} {s : State} (hlen : hd.length = 16) (hcrc : leAt hd 12 4 = crc32c (hd.take 12)) :
    exec (.packetGap dt (some hd)) s = .next (refuseFraming 0x01A2 (leAt hd 0 2) (leAt hd 2 2) (advance dt s)) :=
  congrArg Host.Outcome.next (if_pos ⟨hlen, hcrc⟩)

theorem exec_packetGap_none {dt : Nat} {s : State} :
    exec (.packetGap dt none) s = .next (refuseFraming 0x01A2 0 0 (advance dt s)) := rfl

theorem exec_opcodeUnknown_unlisted {dt op : Nat} {h : Hdr} {ps : Bytes} {s : State} (hop : opcodeKnown op = false) :
    exec (.opcodeUnknown dt h op ps) s =
      .next (receive (fun _ _ => .refuse 0x01A3 []) (packetOf op h ps (advance dt s)) (advance dt s)) :=
  congrArg Host.Outcome.next (if_neg (by simp [hop]))

section
variable {header params : Bytes} {crc : Nat} {extra : Bool}

theorem framingFailure_header (h : leAt header 12 4 ≠ crc32c (header.take 12)) :
    framingFailure header params crc extra = some (0x01A0, 0, 0) := if_pos h

theorem framingFailure_long (hcrc : leAt header 12 4 = crc32c (header.take 12)) (hlong : 16777216 < leAt header 4 4) :
    framingFailure header params crc extra = some (0x01A2, leAt header 0 2, leAt header 2 2) :=
  (if_neg (not_not_intro hcrc)).trans (if_pos hlong)

/-- Behind a good header, the transfer is checked before the CRC of the parameters. -/
theorem framingFailure_good (hcrc : leAt header 12 4 = crc32c (header.take 12)) (hlen : leAt header 4 4 ≤ 16777216) :
    framingFailure header params crc extra =
      if extra then some (0x01A2, leAt header 0 2, leAt header 2 2)
      else if crc ≠ crc32c params then some (0x01A1, leAt header 0 2, leAt header 2 2) else none :=
  (if_neg (not_not_intro hcrc)).trans (if_neg (Nat.not_lt.mpr hlen))

end

/-- Settles O9: the check that fails decides the status, and a packet whose turn it is gets its reply and nothing else. -/
theorem framingIsAnswered : Obligations.FramingIsAnswered := by
  refine ⟨?refusals, fun header params crc extra => ⟨framingFailure_header, fun hcrc => ⟨framingFailure_long hcrc, fun hlen => ?checks⟩⟩,
    ?gaps, ?blanks, ?unknown⟩
  case refusals =>
    rintro dt k s _ st op tag rfl hfails hhears hturn
    rw [exec_framingRefusal_fails hfails, refuseFraming_turn hhears hturn]
    rfl
  case checks =>
    rw [framingFailure_good hcrc hlen]
    refine ⟨fun hextra => if_pos hextra, fun hextra hbad => ?_, fun hextra hgood => ?_⟩
    · rw [hextra]
      exact if_pos hbad
    · rw [hextra]
      exact if_neg (not_not_intro hgood)
  case gaps =>
    rintro dt hd s _ rfl hlen hcrc hhears hturn
    rw [exec_packetGap_header hlen hcrc, refuseFraming_turn hhears hturn]
    rfl
  case blanks =>
    rintro dt s _ rfl hhears hturn
    rw [exec_packetGap_none, refuseFraming_turn hhears hturn]
    rfl
  case unknown =>
    rintro dt op h ps s _ rfl hop hfrozen hturn
    rw [exec_opcodeUnknown_unlisted hop, receive_turn hturn, runPacket_unknown _ rfl hfrozen hop]

/-! ### Reads of replies (R391, R399, R401) -/

theorem runHeld_of_no_packets {s : State} (h : s.cmd.packets = []) : runHeld s = s := by
  unfold runHeld
  rw [h]
  rfl

/-- What a read of at most `n` bytes makes of a state with `r` in front of the replies `rs`. -/
def replyTaken (n : Nat) (r : Bytes) (rs : List Bytes) (a : State) : State :=
  let left := if r.length ≤ n then rs else r.drop n :: rs
  let t := { a with cmd := { a.cmd with lastRead := r.take n, replies := left } }
  if left.isEmpty then rearmIbi 0x01 0 t else t

section
variable {n : Nat} {r : Bytes} {rs : List Bytes}

theorem replyTaken_packets (n : Nat) (r : Bytes) (rs : List Bytes) (a : State) : (replyTaken n r rs a).cmd.packets = a.cmd.packets := by
  unfold replyTaken
  extract_lets left t
  split
  · rfl
  · rfl

theorem replyTaken_cut (a : State) (h : n < r.length) :
    replyTaken n r rs a = { a with cmd := { a.cmd with lastRead := r.take n, replies := r.drop n :: rs } } := by
  unfold replyTaken
  rw [if_neg (Nat.not_le.mpr h)]
  rfl

theorem replyTaken_more (a : State) (h : r.length ≤ n) (hmore : rs ≠ []) :
    replyTaken n r rs a = { a with cmd := { a.cmd with lastRead := r, replies := rs } } := by
  unfold replyTaken
  rw [if_pos h, List.take_of_length_le h]
  exact if_neg (by simpa using hmore)

theorem replyTaken_last (a : State) (h : r.length ≤ n) :
    replyTaken n r [] a = { a with cmd := { a.cmd with
      lastRead := r, replies := [], ibis := a.cmd.ibis.filter (fun i => !(i.mdb == 0x01 && i.chan == 0)) } } := by
  unfold replyTaken
  rw [if_pos h, List.take_of_length_le h]
  rfl

theorem exec_replyRead_empty {dt : Nat} {s : State} (hempty : (advance dt s).cmd.replies = []) :
    exec (.replyRead dt n) s = .next (advance dt s) := by
  change execReplyRead dt n s = _
  unfold execReplyRead
  simp only [hempty]

/-- An answered read where no packet waits for room in the reply queue. -/
theorem exec_replyRead_answered {dt : Nat} {s : State} (hreplies : (advance dt s).cmd.replies = r :: rs)
    (hpackets : (advance dt s).cmd.packets = []) (hanswers : answersRead (advance dt s) = true) :
    exec (.replyRead dt n) s = .next (replyTaken (Nat.min n (advance dt s).cmd.mrl) r rs (advance dt s)) := by
  change execReplyRead dt n s = _
  unfold execReplyRead
  simp only [hreplies, hanswers]
  exact congrArg Host.Outcome.next (runHeld_of_no_packets ((replyTaken_packets _ _ _ _).trans hpackets))

end

/-- Settles O13: what a read leaves of the queue, by whether it takes the whole of the oldest reply and whether another follows. -/
theorem replyReadReturns : Obligations.ReplyReadReturns := by
  refine ⟨?empty, ?answered⟩
  case empty =>
    rintro dt n s _ rfl hempty
    exact exec_replyRead_empty hempty
  case answered =>
    rintro dt n s _ r rs rfl hreplies hpackets hanswers
    rw [exec_replyRead_answered hreplies hpackets hanswers]
    refine ⟨fun hcut => ?_, fun hwhole hmore => ?_, fun hwhole hlast => ?_⟩
    · rw [replyTaken_cut _ hcut]
    · rw [replyTaken_more _ hwhole hmore]
    · rw [hlast, replyTaken_last _ hwhole]

end Sys2Proof.Machine
end

section
/-! SUPPORT. The two events of the ledger's shares while TB counts (14 R449). -/
namespace Sys2Proof.Machine

section
variable {dt : Nat} {s : State}

theorem exec_shareGrant_awake (hawake : awake (advance dt s) = true) :
    exec (.shareGrant dt) s = .next (grantNow (advance dt s)) :=
  congrArg Host.Outcome.next (if_pos hawake)

theorem exec_shareReturn_awake (hawake : awake (advance dt s) = true) :
    exec (.shareReturn dt) s = .next (withMode retryWaiting (pumpReturns 512 (advance dt s))) :=
  congrArg Host.Outcome.next (if_pos hawake)

end

/-- The tiles that a grant starts are outside the ledger. -/
theorem grantNow_pwr (s : State) : (grantNow s).pwr = (pumpShares 512 s).pwr := dispatchAll_pwr _

/-- Settles O20: both events pump their queue 512 times, and the tiles that a grant then starts leave the ledger as it is. -/
theorem sharesKeepTheRate : Obligations.SharesKeepTheRate := by
  refine ⟨?grant, ?give⟩
  case grant =>
    rintro dt s _ rfl hawake
    obtain ⟨g, hgranted⟩ := pumpShares_grants 512 (advance dt s)
    rw [← grantNow_pwr] at hgranted
    exact ⟨_, g, exec_shareGrant_awake hawake, hgranted⟩
  case give =>
    rintro dt s _ rfl hawake
    obtain ⟨g, hreturned⟩ := pumpReturns_returns 512 (advance dt s)
    exact ⟨_, g, exec_shareReturn_awake hawake, hreturned⟩

end Sys2Proof.Machine
end

section
/-! SUPPORT. The step itself, and the fuses over every step (00; 16 R507). -/
namespace Sys2Proof.Machine

/-- Settles O1: the front of such a queue is the command, and its rest the queue that `exec` meets. -/
theorem stepRunsFront : Obligations.StepRunsFront := fun _ _ _ => step_of_pending_cons rfl

/-- Settles O2, by the idle step. -/
theorem stepIdles : Obligations.StepIdles := fun _ => step_of_pending_nil

/-- A slot in which nothing is fused. -/
def KeySlot.blank : KeySlot := ⟨none, false⟩

theorem KeySlot.blank_gains (a : KeySlot) : KeySlot.blank.Gains a :=
  ⟨fun h => absurd rfl h, fun h => absurd h Bool.false_ne_true⟩

theorem nth_blank_slots (i : Nat) : nth (List.replicate 4 KeySlot.blank) i KeySlot.blank = KeySlot.blank := by
  match i with
  | 0 | 1 | 2 | 3 | _ + 4 => rfl

theorem Fuses.reset_gains (F : Fuses) : Fuses.reset.Gains F where
  vendor i := (nth_blank_slots i).symm ▸ KeySlot.blank_gains _
  owner i := (nth_blank_slots i).symm ▸ KeySlot.blank_gains _
  fwSvn := Nat.zero_le _
  imageSvn := Nat.zero_le _
  ownerRequired h := absurd h Bool.false_ne_true
  identityPresent h := absurd h Bool.false_ne_true

/-- Settles O5: every slot of the reset state is blank, and blank fuses gain whatever is fused. -/
theorem fusesBlankAtReset : Obligations.FusesBlankAtReset :=
  ⟨fun i => ⟨nth_blank_slots i, nth_blank_slots i⟩, rfl, rfl, rfl, Fuses.reset_gains⟩

/-- Settles O4: a step completes in a state whose fuses have gained, and to gain is transitive. -/
theorem fusesKeepWhatTheyHold : Obligations.FusesKeepWhatTheyHold := by
  intro F s t hF hstep
  obtain ⟨u, hnext, -, -, hgains⟩ := everyStepCompletes s
  cases hnext.symm.trans hstep
  exact hF.trans hgains

end Sys2Proof.Machine
end

section
/-! SUPPORT. The JTAG instructions: the freeze read-out, the debug registers, and the boundary scan (15 R480, R481; 17 R548). -/
namespace Sys2Proof.Machine

/-! ### The freeze read-out (15 R480, R481) -/

section
variable {dt : Nat} {s : State}

theorem exec_frzAddr_frozen (x : DWord) (hfrozen : (advance dt s).flt.frozen = true) : exec (.frzAddr dt x) s =
    .next { advance dt s with jtag := { (advance dt s).jtag with instr := .frzAddr, frzAddr := x } } :=
  congrArg Host.Outcome.next (if_pos hfrozen)

theorem exec_frzAddr_running (x : DWord) (hrunning : (advance dt s).flt.frozen = false) :
    exec (.frzAddr dt x) s = .next (setInstr .frzAddr (advance dt s)) :=
  congrArg Host.Outcome.next (if_neg (Bool.eq_false_iff.mp hrunning))

/-- What FRZ_DATA makes of a frozen part: the eight bytes at the address are captured, and the address grows by 8. -/
def readOut (s : State) : State :=
  let r := freezeRead s s.jtag.frzAddr.toNat
  { s with jtag := { s.jtag with
      dataOut := (r.map leNat).getD 0, badAddr := s.jtag.badAddr || r.isNone, frzAddr := s.jtag.frzAddr + 8 } }

theorem exec_frzData_frozen (hfrozen : (advance dt s).flt.frozen = true) :
    exec (.frzData dt) s = .next (readOut (setInstr .frzData (advance dt s))) :=
  congrArg Host.Outcome.next (if_pos hfrozen)

theorem exec_frzData_running (hrunning : (advance dt s).flt.frozen = false) :
    exec (.frzData dt) s = .next (setInstr .frzData (advance dt s)) :=
  congrArg Host.Outcome.next (if_neg (Bool.eq_false_iff.mp hrunning))

theorem readOut_good {b : Bytes} (hread : freezeRead s s.jtag.frzAddr.toNat = some b) :
    readOut s = { s with jtag := { s.jtag with dataOut := leNat b, frzAddr := s.jtag.frzAddr + 8 } } := by
  unfold readOut
  simp [hread]

theorem readOut_bad (hread : freezeRead s s.jtag.frzAddr.toNat = none) :
    readOut s = { s with jtag := { s.jtag with dataOut := 0, badAddr := true, frzAddr := s.jtag.frzAddr + 8 } } := by
  unfold readOut
  simp [hread]

theorem exec_frzReset_frozen (hfrozen : (advance dt s).flt.frozen = true) :
    exec (.frzReset dt) s = .next (askBoot (setInstr .frzReset (advance dt s))) :=
  congrArg Host.Outcome.next (if_pos hfrozen)

theorem exec_frzReset_running (hrunning : (advance dt s).flt.frozen = false) :
    exec (.frzReset dt) s = .next (setInstr .frzReset (advance dt s)) :=
  congrArg Host.Outcome.next (if_neg (Bool.eq_false_iff.mp hrunning))

end

/-! ### Boundary scan (17 R548) -/

/-- Each of the four boundary-scan instructions captures the balls and loads the cells. -/
theorem exec_boundaryScan {dt : Nat} {c : BitVec 16} {i : Instr} {j : JtagInstr} (s : State)
    (h : (i, j) ∈ [(Instr.samplePreload dt c, JtagInstr.samplePreload), (Instr.extest dt c, JtagInstr.extest),
      (Instr.extestPulse dt c, JtagInstr.extestPulse), (Instr.extestTrain dt c, JtagInstr.extestTrain)]) :
    exec i s = .next (scanCells j c (advance dt s)) := by
  simp only [List.mem_cons, Prod.mk.injEq, List.not_mem_nil, or_false] at h
  obtain ⟨rfl, rfl⟩ | ⟨rfl, rfl⟩ | ⟨rfl, rfl⟩ | ⟨rfl, rfl⟩ := h
  all_goals rfl

/-! ### The freeze address spaces (15 R480) -/

/-- An address below a space's number. -/
theorem space_split (sp : Nat) {lo : Nat} (h : lo < 2 ^ 56) :
    (sp * 2 ^ 56 + lo) / 2 ^ 56 = sp ∧ (sp * 2 ^ 56 + lo) % 2 ^ 56 = lo ∧ (sp * 2 ^ 56 + lo) % 8 = lo % 8 := by omega

/-- An offset below a core's or a cluster's number, which ends below the space's number. -/
theorem place_split {k off : Nat} (hk : k < 2 ^ 32) (hoff : off < 2 ^ 24) :
    k * 2 ^ 24 + off < 2 ^ 56 ∧ (k * 2 ^ 24 + off) / 2 ^ 24 = k ∧ (k * 2 ^ 24 + off) % 2 ^ 24 = off ∧
      (k * 2 ^ 24 + off) % 8 = off % 8 := by omega

theorem Variant.cores_le (v : Variant) : v.cores ≤ 128 := by cases v <;> decide

theorem Variant.clusters_le (v : Variant) : v.clusters ≤ 16 := by cases v <;> decide

theorem Variant.scratchBytes_le (v : Variant) : v.scratchBytes ≤ 2 ^ 24 := by cases v <;> decide

section
variable {s : State} {k off : Nat}

theorem freezeRead_scratch (hk : k < s.variant.cores) (hoff : off < s.variant.scratchBytes) (hal : off % 8 = 0) :
    freezeRead s (0x02 * 2 ^ 56 + k * 2 ^ 24 + off) = some (Memory.readN (coreAt s k).scratch off 8) := by
  have hcores := s.variant.cores_le
  obtain ⟨hlo, hplace, hin, halign⟩ := place_split (k := k) (by omega) (Nat.lt_of_lt_of_le hoff s.variant.scratchBytes_le)
  obtain ⟨hspace, hrest, hmod⟩ := space_split 0x02 hlo
  unfold freezeRead
  rw [Nat.add_assoc]
  simp only [hspace, hrest, hmod, hplace, hin, halign, hk, hoff, hal]
  rfl

theorem freezeRead_commons (hk : k < s.variant.clusters) (hoff : off < 2 ^ 22) (hal : off % 8 = 0) :
    freezeRead s (0x05 * 2 ^ 56 + k * 2 ^ 24 + off) = some (Memory.readN (clusterAt s k).commons off 8) := by
  have hclusters := s.variant.clusters_le
  obtain ⟨hlo, hplace, hin, halign⟩ := place_split (k := k) (off := off) (by omega) (by omega)
  obtain ⟨hspace, hrest, hmod⟩ := space_split 0x05 hlo
  unfold freezeRead
  rw [Nat.add_assoc]
  simp only [hspace, hrest, hmod, hplace, hin, halign, hk, hoff, hal]
  rfl

theorem freezeRead_ddr (hoff : off < 2 ^ 40) (hal : off % 8 = 0) :
    freezeRead s (0x0A * 2 ^ 56 + off) = some (Memory.readN s.ddr off 8) := by
  obtain ⟨hspace, hrest, hmod⟩ := space_split 0x0A (lo := off) (by omega)
  unfold freezeRead
  simp only [hspace, hrest, hmod, hoff, hal, ddrSpan]
  rfl

/-- Spaces 0x01 to 0x0B are those that hold something. -/
theorem freezeRead_no_space {n : Nat} (h : n / 2 ^ 56 = 0 ∨ 0x0C ≤ n / 2 ^ 56) : freezeRead s n = none := by
  unfold freezeRead
  generalize n / 2 ^ 56 = sp at h ⊢
  have hout : ∀ k, 0x01 ≤ k → k ≤ 0x0B → sp ≠ k := by omega
  simp [hout]

end

/-- Settles O59: the read-out by whether the part is frozen, the other instructions by what each captures, and the spaces by their numbers. -/
theorem jtagInstructions : Obligations.JtagInstructions := by
  refine ⟨?readout, ?reset, fun dt n v s a u w ha hu hw => ?registers, fun dt b c s a ha => ?scan, fun s => ?spaces⟩
  case readout =>
    rintro dt x s _ _ rfl rfl
    refine ⟨exec_frzAddr_frozen x, fun hrunning => ⟨exec_frzAddr_running x hrunning, exec_frzData_running hrunning⟩,
      fun b hfrozen hread => ?_, fun hfrozen hread => ?_⟩
    · exact (exec_frzData_frozen hfrozen).trans (congrArg _ (readOut_good hread))
    · exact (exec_frzData_frozen hfrozen).trans (congrArg _ (readOut_bad hread))
  case reset =>
    rintro dt s _ _ rfl rfl
    exact ⟨rfl, exec_frzReset_frozen, exec_frzReset_running, rfl, rfl, rfl, rfl, rfl⟩
  case registers =>
    subst ha hu hw
    exact ⟨rfl, rfl, rfl⟩
  case scan =>
    subst ha
    exact ⟨rfl, rfl, fun i j => exec_boundaryScan s⟩
  case spaces =>
    exact ⟨fun k off => freezeRead_scratch, fun k off => freezeRead_commons, fun off => freezeRead_ddr, fun n => freezeRead_no_space⟩

end Sys2Proof.Machine
end

section
/-! SUPPORT. The boot: which firmware and which image it takes, recovery, and the ready stamp (16 R509 to R512). -/
namespace Sys2Proof.Machine

/-! ### BOOT (R509, R510) -/

section
variable {dt : Nat} {s : State}

theorem exec_boot_idle (h : awake (advance dt s) = false ∨ (advance dt s).clk.tbLock = false ∨ (advance dt s).boot.due = false ∨
    (advance dt s).boot.stage ≠ 0) : exec (.boot dt) s = .next (advance dt s) :=
  congrArg Host.Outcome.next (if_neg (by rcases h with h | h | h | h <;> simp [h]))

/-- The state whose next boot number is written. -/
def bootCounted (s : State) : State := writeDir (fun d => { d with bootNumber := (d.bootNumber + 1) % 2 ^ 32 }) s

/-- What follows: the chosen firmware runs, or the part goes into recovery with the status of what failed last. -/
def bootFrom (s : State) : State :=
  match chooseFirmware s with
  | some t => firmwareBoot t
  | none => recoveryMode (noteFailure (slotRefusal imageRefusal 1 (1 - (dirNow s).preferredFw) s) s)

theorem bootFrom_some {t : State} (h : chooseFirmware s = some t) : bootFrom s = firmwareBoot t := by
  unfold bootFrom
  rw [h]

theorem bootFrom_none (h : chooseFirmware s = none) :
    bootFrom s = recoveryMode (noteFailure (slotRefusal imageRefusal 1 (1 - (dirNow s).preferredFw) s) s) := by
  unfold bootFrom
  rw [h]

variable (hawake : awake (advance dt s) = true) (hlock : (advance dt s).clk.tbLock = true) (hdue : (advance dt s).boot.due = true)
  (hstage : (advance dt s).boot.stage = 0)
include hawake hlock hdue hstage

theorem exec_boot_no_directory (hdir : directory (advance dt s) = none) : exec (.boot dt) s = .next (recoveryMode (advance dt s)) := by
  show execBoot dt s = _
  unfold execBoot
  simp [hawake, hlock, hdue, hstage, hdir]

theorem exec_boot_directory {d : Directory} (hdir : directory (advance dt s) = some d) :
    exec (.boot dt) s = .next (bootFrom (bootCounted (advance dt s))) := by
  show execBoot dt s = _
  unfold execBoot
  simp only [hawake, hlock, hdue, hstage, hdir]
  rfl

end

/-! ### The choice of firmware (R509) -/

/-- The state in which a verification that failed has left its status. -/
def noted (st : Nat) (s : State) : State := { s with boot := { s.boot with lastStatus := st } }

section
variable {s : State} {st : Nat}

theorem chooseFirmware_preferred (hgood : slotRefusal imageRefusal 1 (dirNow s).preferredFw s = none) :
    chooseFirmware s = some (runSlot (dirNow s).preferredFw false s) :=
  if_pos (Option.isNone_iff_eq_none.mpr hgood)

/-- Where the preferred slot does not verify, the other one decides. -/
theorem chooseFirmware_other (hbad : slotRefusal imageRefusal 1 (dirNow s).preferredFw s = some st) :
    chooseFirmware s = if (slotRefusal imageRefusal 1 (1 - (dirNow s).preferredFw) (noted st s)).isNone then
      some (runSlot (1 - (dirNow s).preferredFw) true (noted st s)) else none := by
  unfold chooseFirmware
  simp only [hbad]
  rfl

end

/-! ### The choice of the image (R511) -/

section
variable {s : State} {i st : Nat}

theorem imageSlotRefusal_uncommitted (h : slotMark s i ≠ .committed) : imageSlotRefusal i s = some 0 := if_pos h

theorem imageSlotRefusal_committed (h : slotMark s i = .committed) : imageSlotRefusal i s = slotRefusal imageRefusal 2 i s :=
  if_neg (not_not_intro h)

/-- A slot that holds no committed image leaves no status. -/
theorem noteImageFailure_zero (s : State) : noteImageFailure (some 0) s = s := rfl

theorem noteImageFailure_status (s : State) (h : st ≠ 0) : noteImageFailure (some st) s = noted st s := by
  have hkeep : (some st).filter (· ≠ 0) = some st := by simpa using h
  unfold noteImageFailure
  rw [hkeep]
  rfl

theorem chooseImage_active (hgood : imageSlotRefusal (2 + (dirNow s).activeImage) s = none) :
    chooseImage s = (some (2 + (dirNow s).activeImage), s) :=
  if_pos (Option.isNone_iff_eq_none.mpr hgood)

/-- The active image where another one is taken: the other slot's, and the fall-back shows. -/
def fallenBack (s : State) (o : Nat) : State :=
  writeDir (fun d => { d with activeImage := o - 2 }) { s with boot := { s.boot with imageFallback := true } }

theorem chooseImage_other {u : State} (hbad : imageSlotRefusal (2 + (dirNow s).activeImage) s = some st)
    (hu : u = noteImageFailure (some st) s) (hgood : imageSlotRefusal (inactiveSlot s 2) u = none) :
    chooseImage s = (some (inactiveSlot s 2), fallenBack u (inactiveSlot s 2)) := by
  subst hu
  unfold chooseImage
  simp only [hbad, hgood]
  rfl

theorem chooseImage_none (hactive : slotMark s (2 + (dirNow s).activeImage) ≠ .committed)
    (hother : slotMark s (inactiveSlot s 2) ≠ .committed) : chooseImage s = (none, s) := by
  unfold chooseImage
  simp only [imageSlotRefusal_uncommitted hactive, noteImageFailure_zero, imageSlotRefusal_uncommitted hother]
  rfl

end

/-! ### The ready stamp (R512) -/

theorem recoveryMode_of_no_packets {s : State} (h : s.cmd.packets = []) :
    recoveryMode s = { s with boot := { s.boot with stage := 7, due := false } } :=
  runHeld_of_no_packets h

/-- Steps 3 and 4 of the profile without an image: AUTO_OPEN, under what the host has taken. -/
def autoOpenSet (auto : Bool) (s : State) : State :=
  { s with cmd := { s.cmd with
      posted := Tab.set s.cmd.posted 0x0D000005 (b2n (auto && !s.boot.hostTookIntake))
      inForce := Tab.set s.cmd.inForce 0x0D000005 (b2n (auto && !s.boot.hostTookIntake)) } }

theorem finishProfile_no_image {s : State} (mask : Nat) (auto : Bool) (h : s.image = none) : finishProfile mask auto s = autoOpenSet auto s := by
  unfold finishProfile
  simp only [h]
  rfl

/-- The ready stamp of a part without an image. -/
def readyStamped (s : State) : State := { s with boot := { s.boot with ready := true, readyTb := stamp s, due := false, stage := 8 } }

theorem getReady_no_image {s : State} (mask : Nat) (auto : Bool) (himage : s.image = none) (halone : s.twin.listening = none)
    (hpackets : s.cmd.packets = []) : ∃ p, getReady mask auto s = { autoOpenSet auto (readyStamped s) with pins := p } := by
  have hready : getReady mask auto s = runHeld (funcPins (autoOpenSet auto (readyStamped s))) := by
    have hstamped : modBoot (fun b => { b with ready := true, readyTb := stamp s, due := false, stage := if s.image.isSome then 6 else 8 }) s
        = readyStamped s := by rw [himage]; rfl
    have hlisten : (readyStamped s).twin.listening = none := halone
    unfold getReady
    simp only [hstamped, hlisten, finishProfile_no_image mask auto (s := readyStamped s) himage]
    rfl
  obtain ⟨p, hp⟩ := funcPins_pins (autoOpenSet auto (readyStamped s))
  refine ⟨p, ?_⟩
  rw [hready, hp]
  exact runHeld_of_no_packets hpackets

/-- Settles O57: BOOT by what the device waits for and finds, the two choices by which slots verify, and the two states that a boot ends in. -/
theorem bootSequence : Obligations.BootSequence := by
  refine ⟨?boot, ?firmware, fun i f s => ⟨rfl, rfl, rfl, rfl, rfl⟩, ?image, fun s => recoveryMode_of_no_packets, ?ready⟩
  case boot =>
    rintro dt s _ rfl
    refine ⟨fun hawake hlock hdue hstage => ⟨exec_boot_no_directory hawake hlock hdue hstage, ?_⟩, exec_boot_idle⟩
    rintro d _ hdir rfl
    have hrow := exec_boot_directory hawake hlock hdue hstage hdir
    exact ⟨fun t hchosen => hrow.trans (congrArg _ (bootFrom_some hchosen)), fun hnone => hrow.trans (congrArg _ (bootFrom_none hnone))⟩
  case firmware =>
    rintro s _ _ st rfl rfl
    refine ⟨chooseFirmware_preferred, fun hbad hgood => ?_, fun hbad hworse => ?_⟩
    · exact (chooseFirmware_other hbad).trans (if_pos (Option.isNone_iff_eq_none.mpr hgood))
    · exact (chooseFirmware_other hbad).trans (if_neg (mt Option.isNone_iff_eq_none.mp hworse))
  case image =>
    rintro s _ _ _ st rfl rfl rfl
    refine ⟨fun hmark hgood => ?_, fun hmark hother hgood => ?_, fun hmark hbad hst hother hgood => ?_, chooseImage_none⟩
    · exact chooseImage_active ((imageSlotRefusal_committed hmark).trans hgood)
    · exact chooseImage_other (imageSlotRefusal_uncommitted hmark) (noteImageFailure_zero s).symm
        ((imageSlotRefusal_committed hother).trans hgood)
    · exact chooseImage_other ((imageSlotRefusal_committed hmark).trans hbad) (noteImageFailure_status s hst).symm
        ((imageSlotRefusal_committed hother).trans hgood)
  case ready =>
    intro m auto s t himage halone hpackets ht
    obtain ⟨p, hready⟩ := getReady_no_image m auto himage halone hpackets
    rw [ht, hready]
    exact ⟨rfl, rfl, rfl, rfl, Tab.find_set _ _ _⟩

end Sys2Proof.Machine
end

section
/-! SUPPORT. The SEC commands, and the order of a container's checks (16 R505 to R508, R512, R516 to R522). -/
namespace Sys2Proof.Machine

/-! ### Identity and attestation (R506, R520, R521) -/

theorem fit_length (n : Nat) (b : Bytes) : (fit n b).length = n := by
  simp only [fit, zeros, List.length_append, List.length_take, List.length_replicate]
  omega

theorem attestHead_length (nonce : Bytes) (s : State) : (attestHead nonce s).length = 512 := by
  simp only [attestHead, List.length_append, pack_length, fit_length, zeros, List.length_replicate]
  rfl

section
variable {p : Packet} {s : State}

theorem secIdentityBody_ok (hp : p.params = []) : secIdentityBody p s = .ok (fit 7347 s.flash.identity) s :=
  if_neg (not_not_intro hp)

theorem secAttestBody_ok (hlen : p.params.length = 32) : secAttestBody p s =
    .ok (attestHead p.params s ++ fit 4627 (Config.mldsaSign (sha3 (attestHead p.params s)) s.freeCtr)) { s with freeCtr := s.freeCtr + 1 } :=
  if_neg (not_not_intro hlen)

theorem secAttestBody_refuse (hlen : p.params.length ≠ 32) : secAttestBody p s = .refuse 0x01D0 [] := if_pos hlen

/-! ### IMAGE_WRITE (R516) -/

/-- What the write of `b` at `off` leaves of slot `i`. -/
def slotWritten (i off : Nat) (b : Bytes) (s : State) : State :=
  { s with flash := { s.flash with slots := modNth s.flash.slots i (fun m => Memory.writeN m off b) } }

/-- What a write at offset 0 leaves besides: the slot is marked written, and its image is staged no more. -/
def slotBegun (i : Nat) (s : State) : State :=
  writeDir (fun d => { d with marks := setNth d.marks i .written })
    { s with boot := { s.boot with stagedImage := if s.boot.stagedImage = some i then none else s.boot.stagedImage } }

theorem slotBegun_unstaged {i : Nat} (h : s.boot.stagedImage ≠ some i) :
    slotBegun i s = writeDir (fun d => { d with marks := setNth d.marks i .written }) s := by
  unfold slotBegun
  rw [if_neg h]

theorem kindOk_of {k : Nat} {q : Bytes} (hk : k = 1 ∨ k = 2) (hkind : byteAt q 0 = k) (hres : resZero q 1 3 = true) : kindOk q = true := by
  unfold kindOk
  rw [hkind, hres]
  rcases hk with rfl | rfl <;> rfl

/-- The checks of an IMAGE_WRITE that names slot `i` of its kind, in their order, and its effect. -/
theorem imageWriteBody_proper {k i off : Nat} {b : Bytes} (hlen : 12 ≤ p.params.length) (hk : k = 1 ∨ k = 2) (hkind : byteAt p.params 0 = k)
    (hres : resZero p.params 1 3 = true) (hi : i = inactiveSlot s k) (hoff : off = leAt p.params 4 8) (hb : b = p.params.drop 12) :
    imageWriteBody p s =
      if nth s.flash.sizes i 0 < off + b.length then .refuse 0x03D0 []
      else if k = 2 ∧ imageStaged s then .refuse 0x04D3 []
      else .ok [] (if off = 0 then slotBegun i (slotWritten i off b s) else slotWritten i off b s) := by
  subst hkind hi hoff hb
  exact if_neg (by simp [Nat.not_lt.mpr hlen, kindOk_of hk rfl hres])

/-! ### IMAGE_COMMIT, IMAGE_ACTIVATE and SVN_COMMIT (R516 to R518) -/

/-- The four bytes that name a kind. -/
structure NamesKind (q : Bytes) (k : Nat) : Prop where
  len : q.length = 4
  kind : byteAt q 0 = k
  ok : kindOk q = true

theorem namesKind {k : Nat} (hk : k = 1 ∨ k = 2) : NamesKind (pack [(1, k), (3, 0)]) k := by
  have hkind : byteAt (pack [(1, k), (3, 0)]) 0 = k := leAt_pack_head 1 k _ (by omega)
  refine ⟨by simp, hkind, kindOk_of hk hkind ?_⟩
  rw [resZero_pack_skip _ _ _ _ _ (by decide)]
  exact resZero_pack_head _ _

section
variable {k : Nat} (hq : NamesKind p.params k)
include hq

theorem not_ill_kinded : ¬ (p.params.length ≠ 4 ∨ (!kindOk p.params) = true) := by
  simp [hq.len, hq.ok]

/-- The state that a commit leaves: the mark, the event, and the image staged. -/
def slotCommitted (k i : Nat) (s : State) : State :=
  let u := writeDir (fun d => { d with marks := setNth d.marks i .committed }) s
  secEvent 2 0 (if k = 2 then { u with boot := { u.boot with stagedImage := some i } } else u)

theorem imageCommitBody_good (hgood : slotRefusal imageRefusal k (inactiveSlot s k) s = none) :
    imageCommitBody imageRefusal p s =
      .ok (containerDigest (slotContainer (writeDir (fun d => { d with marks := setNth d.marks (inactiveSlot s k) .committed }) s)
        (inactiveSlot s k))) (slotCommitted k (inactiveSlot s k) s) := by
  unfold imageCommitBody
  simp only [if_neg (not_ill_kinded hq), hq.kind, hgood]
  rfl

theorem imageCommitBody_bad {st : Nat} (hbad : slotRefusal imageRefusal k (inactiveSlot s k) s = some st) :
    imageCommitBody imageRefusal p s = .refuseWith st [] (failVerify st s) := by
  unfold imageCommitBody
  simp only [if_neg (not_ill_kinded hq), hq.kind, hbad]

theorem imageActivateBody_uncommitted (hmark : slotMark s (inactiveSlot s k) ≠ .committed) : imageActivateBody p s = .refuse 0x04D0 [] := by
  unfold imageActivateBody
  simp only [if_neg (not_ill_kinded hq), hq.kind, if_pos hmark]

/-- A committed slot of firmware becomes the preferred one; one of an image is staged for activation, once. -/
theorem imageActivateBody_committed (hmark : slotMark s (inactiveSlot s k) = .committed) : imageActivateBody p s =
    if k = 1 then .ok [] (writeDir (fun d => { d with preferredFw := inactiveSlot s k }) s)
    else if s.cmd.stagedItems.contains .image then .ok [] s
    else .ok [] { s with cmd := { s.cmd with stagedItems := s.cmd.stagedItems ++ [.image] } } := by
  unfold imageActivateBody
  simp only [if_neg (not_ill_kinded hq), hq.kind, if_neg (not_not_intro hmark)]

/-- A counter is raised to the running version. -/
theorem svnCommitBody_proper : svnCommitBody p s =
    if k = 1 then .ok (le 1 (Nat.max s.fuses.fwSvn s.boot.fwSvn)) { s with fuses := { s.fuses with fwSvn := Nat.max s.fuses.fwSvn s.boot.fwSvn } }
    else .ok (le 1 (Nat.max s.fuses.imageSvn s.boot.imageSvn))
      { s with fuses := { s.fuses with imageSvn := Nat.max s.fuses.imageSvn s.boot.imageSvn } } := by
  unfold svnCommitBody
  simp only [if_neg (not_ill_kinded hq), hq.kind]

end

/-! ### PROFILE_STORE, SEC_REBOOT and KEY_UPDATE (R507, R512, R518) -/

theorem profileStoreBody_ok (hrange : profileRange p.params = true) (hformat : profileFormat p.params = true) :
    profileStoreBody p s = .ok [] { s with flash := { s.flash with profile := p.params } } :=
  (if_neg (by simp [hrange])).trans (if_neg (by simp [hformat]))

theorem profileStoreBody_refuse (hrange : profileRange p.params = true) (hformat : profileFormat p.params = false) :
    profileStoreBody p s = .refuse 0x06D1 [] :=
  (if_neg (by simp [hrange])).trans (if_pos (by simp [hformat]))

theorem secRebootBody_ok (hp : p.params = []) (hclosed : openStreams s = []) : secRebootBody p s = .ok [] (askBoot s) :=
  (if_neg (not_not_intro hp)).trans (if_neg (not_not_intro hclosed))

theorem secRebootBody_refuse (hp : p.params = []) (hopen : openStreams s ≠ []) : secRebootBody p s = .refuse 0x04D2 [] :=
  (if_neg (not_not_intro hp)).trans (if_pos hopen)

/-- A KEY_UPDATE of a whole container is decided by its verification. -/
theorem keyUpdateBody_whole {k : Nat} {r : Option Nat} (hk : k = 4 ∨ k = 5) (hkind : byteAt p.params 2 = k) (hhead : 8192 ≤ p.params.length)
    (hbody : p.params.length = 8192 + leAt p.params 8 8) (hverified : containerRefusal s k p.params = r) :
    keyUpdateBody p s = r.elim (.ok [] (if k = 5 then revoke p.params s else enrol p.params s)) (fun st => .refuseWith st [] (failVerify st s)) := by
  have hwhole : ¬ (p.params.length < 8192 ∨ p.params.length ≠ 8192 + leAt p.params 8 8) := by simp [Nat.not_lt.mpr hhead, ← hbody]
  have hsame : (if k = 5 then 5 else 4) = k := by rcases hk with rfl | rfl <;> rfl
  unfold keyUpdateBody
  simp only [if_neg hwhole, hkind, hsame, hverified]
  cases r with
  | none => rfl
  | some st => rfl

end

/-! ### The order of the checks of a container (R508) -/

/-- A container that passes has passed every check. -/
theorem containerRefusal_eq_none {s : State} {k : Nat} {b : Bytes} (h : containerRefusal s k b = none) :
    containerFormatOk s k b = true ∧ keyTrusted s k b = true ∧ signatureGood b = true ∧ svnOk s k b = true ∧
      sha3 (containerBody b) = (b.drop 16).take 64 := by
  unfold containerRefusal at h
  split_ifs at h with hformat hkey hsig hsvn hdigest
  simp only [Bool.not_eq_true', Bool.not_eq_false] at hformat hkey hsig hsvn
  exact ⟨hformat, hkey, hsig, hsvn, not_not.mp hdigest⟩

/-- Settles O56, command by command from what their bodies answer, and the verification from the order of its checks. -/
theorem securityCommands : Obligations.SecurityCommands := by
  refine ⟨?identity, attestHead_length, ?write, ?commit, ?store, ?key, fun k b s => ⟨?_, ?_, ?_, ?_, containerRefusal_eq_none⟩⟩
  case identity =>
    rintro dt h q s _ rfl
    refine ⟨answers_of rfl fun p hp _ _ => secIdentityBody_ok hp, fun hlen => ?_, fun hlen => ?_⟩
    · refine answers_of rfl fun p hp _ _ => ?_
      subst hp
      exact secAttestBody_ok hlen
    · exact declines_of rfl fun p hp _ _ => secAttestBody_refuse (hp ▸ hlen)
  case write =>
    rintro dt k i off h q b s _ _ rfl hlen hk hkind hres hi hoff hb rfl
    have hproper : ∀ p : Packet, p.params = q → _ := fun p hp =>
      imageWriteBody_proper (p := p) (s := advance dt s) (hp ▸ hlen) hk (hp ▸ hkind) (hp ▸ hres) hi (hp ▸ hoff) (hp ▸ hb)
    refine ⟨fun hbeyond => ?_, fun hfits hk2 hstaged => ?_, fun hfits hfree => ⟨fun hlater => ?_, fun hbegin hunstaged => ?_⟩⟩
    · exact declines_of rfl fun p hp _ _ => (hproper p hp).trans (if_pos hbeyond)
    · exact declines_of rfl fun p hp _ _ => (hproper p hp).trans ((if_neg (Nat.not_lt.mpr hfits)).trans (if_pos ⟨hk2, hstaged⟩))
    all_goals
      have hfree' : ¬ (k = 2 ∧ imageStaged (advance dt s) = true) := by rcases hfree with rfl | hfree <;> simp [*]
      refine answers_of rfl fun p hp _ _ => (hproper p hp).trans ((if_neg (Nat.not_lt.mpr hfits)).trans ((if_neg hfree').trans ?_))
    · rw [if_neg hlater]
      rfl
    · rw [if_pos hbegin]
      exact congrArg _ (slotBegun_unstaged hunstaged)
  case commit =>
    rintro dt k i h q s _ _ rfl hk rfl rfl rfl
    have hq : ∀ p : Packet, p.params = pack [(1, k), (3, 0)] → NamesKind p.params k := fun p hp => hp ▸ namesKind hk
    refine ⟨fun hgood => ?_, fun st hbad => ?_, fun hmark => ?_, fun hmark hk1 => ?_, fun hmark hk2 hfree => ?_, fun hk1 => ?_, fun hk2 => ?_⟩
    · exact answers_of rfl fun p hp _ _ => imageCommitBody_good (hq p hp) hgood
    · exact declinesWith_of rfl fun p hp _ _ => imageCommitBody_bad (hq p hp) hbad
    · exact declines_of rfl fun p hp _ _ => imageActivateBody_uncommitted (hq p hp) hmark
    · exact answers_of rfl fun p hp _ _ => (imageActivateBody_committed (hq p hp) hmark).trans (if_pos hk1)
    · exact answers_of rfl fun p hp _ _ => (imageActivateBody_committed (hq p hp) hmark).trans
        ((if_neg (by omega)).trans (if_neg (Bool.eq_false_iff.mp hfree)))
    · exact answers_of rfl fun p hp _ _ => (svnCommitBody_proper (hq p hp)).trans (if_pos hk1)
    · exact answers_of rfl fun p hp _ _ => (svnCommitBody_proper (hq p hp)).trans (if_neg (by omega))
  case store =>
    rintro dt h q s _ rfl
    refine ⟨fun hrange hformat => ?_, fun hrange hformat => ?_, fun hclosed => ?_, fun hopen => ?_⟩
    · refine answers_of rfl fun p hp _ _ => ?_
      subst hp
      exact profileStoreBody_ok hrange hformat
    · exact declines_of rfl fun p hp _ _ => profileStoreBody_refuse (hp ▸ hrange) (hp ▸ hformat)
    · exact answers_of rfl fun p hp _ _ => secRebootBody_ok hp hclosed
    · exact declines_of rfl fun p hp _ _ => secRebootBody_refuse hp hopen
  case key =>
    rintro dt k h q s _ rfl hk hkind hhead hbody
    refine ⟨fun hgood => answers_of rfl fun p hp _ _ => ?_, fun st hbad => declinesWith_of rfl fun p hp _ _ => ?_⟩
    all_goals subst hp
    · exact keyUpdateBody_whole hk hkind hhead hbody hgood
    · exact keyUpdateBody_whole hk hkind hhead hbody hbad
  all_goals unfold containerRefusal
  · exact fun hformat => by simp [hformat]
  · exact fun hformat hkey => by simp [hformat, hkey]
  · exact fun hformat hkey hsig => by simp [hformat, hkey, hsig]
  · exact fun hformat hkey hsig hsvn => by simp [hformat, hkey, hsig, hsvn]

end Sys2Proof.Machine
end

section
/-! SUPPORT. Faults and the freeze, the detections that raise them, the clocks, and the FLT commands (15 R467 to R484, R498; 17 R536, R537; 02 R21, R28). -/
namespace Sys2Proof.Machine

/-! ### A fault (15 R467 to R475, R484) -/

theorem told_stepDiscarded (f : Nat) (e : Nat × Nat) (s : State) : Told s (stepDiscarded f e s) := told_servEvent _ _ _

/-- What FREEZE_ON names freezes the part. -/
theorem raiseFault_freezes {st : Nat} (un w fl : Nat) {s : State} (h : bit (par s 0x0C000001) (freezeGroup st) = true) :
    raiseFault st un w fl s = freezeNow true (logFault st 5 un w 0 0 fl s) := if_pos h

section
variable (st un w fl : Nat) (s : State)

/-- Work in flight is discarded, and the fault has its entry in the log. -/
def faultLogged : State :=
  logFault st (faultAction st un w) un w (s.prep.sheets.filter (discarded (stamp s))).length (stepsInFlight s).length fl
    (discardWork (stamp s) st s)

/-- The graver of the recovery in progress and the fault's own. -/
def governing : Nat := Nat.max ((s.flt.recovery.map Recovery.action).getD 0) (faultAction st un w)

/-- The recovery that a fault detected at `f` leaves, with what follows from it. -/
def recoveryBegun (f : Nat) : State :=
  { s with
    flt := { s.flt with recovery := some ⟨f, governing st un w s, (s.flt.recovery.map Recovery.reload).getD [] ++ reloadCores st un w⟩ }
    twin := { s.twin with handover := false }
    boot := { s.boot with due := s.boot.due || governing st un w s == 4 } }

/-- What a fault reports: the steps that it discards, then itself. -/
def faultTold : State :=
  fltEvent 1 st ((stepsInFlight s).foldl (fun t e => stepDiscarded (stamp s) e t) (faultLogged st un w fl s))

variable {st un w fl s}

theorem told_faultTold : Told (faultLogged st un w fl s) (faultTold st un w fl s) :=
  (told_foldl _ (fun t e => told_stepDiscarded _ e t) _ _).trans (told_fltEvent 1 st _)

theorem Told.recoveryBegun {t u : State} (h : Told t u) (f : Nat) : Told (recoveryBegun st un w t f) (recoveryBegun st un w u f) := by
  obtain ⟨c, fc, n, rfl⟩ := h
  exact ⟨c, fc, n, rfl⟩

/-- Any other fault leaves its log entry, its recovery, what it tells, and the pins that show a recovery. -/
theorem raiseFault_recovers (h : bit (par s 0x0C000001) (freezeGroup st) = false) :
    ∃ t p, Told (recoveryBegun st un w (faultLogged st un w fl s) (stamp s)) t ∧ raiseFault st un w fl s = { t with pins := p } := by
  have hraise : raiseFault st un w fl s =
      funcPins (raiseIbi 0x04 0 (st % 0x100) (recoveryBegun st un w (faultTold st un w fl s) (stamp s))) :=
    if_neg (Bool.eq_false_iff.mp h)
  obtain ⟨p, hpins⟩ := funcPins_pins (raiseIbi 0x04 0 (st % 0x100) (recoveryBegun st un w (faultTold st un w fl s) (stamp s)))
  exact ⟨_, p, (told_faultTold.recoveryBegun (stamp s)).trans (told_raiseIbi _ _ _ _), hraise.trans hpins⟩

/-- A side that is owed something is marked with the fault. -/
theorem discardWork_sheets {f : Nat} {h : Sheet} (hmem : h ∈ (discardWork f st s).prep.sheets) : discarded f h = false ∨ h.dead = some st := by
  obtain ⟨x, -, rfl⟩ := List.mem_map.mp hmem
  by_cases hx : discarded f x = true
  · exact .inr (by rw [if_pos hx])
  · exact .inl (by rw [if_neg hx]; exact Bool.eq_false_iff.mpr hx)

end

/-! ### Detections (15 R467, R476 to R478; 02 R36) -/

/-- A patrol that reads address 0 begins a pass, and its counts by region begin anew (log 22). -/
def passBegun (x : Nat) (s : State) : State := if x = 0 then { s with flt := { s.flt with regions := [] } } else s

/-- An uncorrected granule that nothing holds is cleared. -/
def idleCleared (x : Nat) (s : State) : State :=
  { s with
    ddr := Memory.writeN s.ddr (x / 64 * 64) (zeros 64)
    flt := { s.flt with ddrUeIdle := inc32 s.flt.ddrUeIdle 1, ddrUeRc := sat 0xFF (s.flt.ddrUeRc + 1) } }

theorem exec_sramScrub_clean (dt : Nat) (g : SramGranule) (s : State) : exec (.sramScrub dt g 0) s = .next (advance dt s) :=
  congrArg Host.Outcome.next (if_pos (by simp))

section
variable {dt : Nat} {s : State} (hawake : awake (advance dt s) = true)
include hawake

theorem exec_sramScrub_corrected (g : SramGranule) : exec (.sramScrub dt g 1) s = .next { advance dt s with flt := { (advance dt s).flt with
    sramCe := inc32 (advance dt s).flt.sramCe 1, sramCeRc := sat 0xFF ((advance dt s).flt.sramCeRc + 1) } } :=
  congrArg Host.Outcome.next ((if_neg (by simp [hawake])).trans (if_pos rfl))

theorem exec_sramScrub_uncorrected (g : SramGranule) {b : Nat} (hb : 2 ≤ b) :
    exec (.sramScrub dt g b) s = .next (raiseFault 0x07C0 g.unit g.place 0 (advance dt s)) :=
  congrArg Host.Outcome.next ((if_neg (by simp [hawake, Nat.ne_zero_of_lt hb])).trans (if_neg (by omega)))

theorem exec_patrolScrub_awake (x err : Nat) : exec (.patrolScrub dt x err) s = .next (
    if err = 0 then passBegun x (advance dt s)
    else if err = 1 then ddrCorrected x (passBegun x (advance dt s))
    else if heldAddr (passBegun x (advance dt s)) x then raiseFault 0x07C1 4 x 0 (passBegun x (advance dt s))
    else fltEvent 3 0 (idleCleared x (passBegun x (advance dt s)))) :=
  congrArg Host.Outcome.next (if_neg (by simp [hawake]))

theorem exec_linkUncorrected_awake (x : Nat) : exec (.linkUncorrected dt x) s = .next (raiseFault 0x07C3 6 x 0 (advance dt s)) :=
  congrArg Host.Outcome.next (if_pos hawake)

theorem exec_clockLost_awake : exec (.clockLost dt) s =
    .next (raiseFault 0x07C4 8 0 0 { advance dt s with clk := { (advance dt s).clk with refOk := false } }) :=
  congrArg Host.Outcome.next (if_pos hawake)

theorem exec_freeze_awake : exec (.freeze dt) s = .next (freezeNow false (advance dt s)) :=
  congrArg Host.Outcome.next (if_pos hawake)

section
variable {core : Nat} (hcore : core < 4)
include hcore

theorem exec_controlWatchdog_served : exec (.controlWatchdog dt core true) s = .next { advance dt s with
    flt := { (advance dt s).flt with watchdog := setNth (advance dt s).flt.watchdog core (advance dt s).clk.tb } } :=
  congrArg Host.Outcome.next ((if_neg (by simp [hawake, hcore])).trans (if_pos rfl))

theorem exec_controlWatchdog_unserved : exec (.controlWatchdog dt core false) s = .next (
    if nth (advance dt s).flt.watchdog core 0 + 50000000 < (advance dt s).clk.tb then raiseFault 0x07C2 5 core 0 (advance dt s)
    else advance dt s) :=
  congrArg Host.Outcome.next ((if_neg (by simp [hawake, hcore])).trans (if_neg Bool.false_ne_true))

end

/-! ### Clocks (17 R536, R537; 02 R21, R28) -/

theorem exec_refInterruption_counted {ns : Nat} (hlo : 200 ≤ ns) (hhi : ns < 2000) : exec (.refInterruption dt ns) s =
    .next { advance dt s with clk := { (advance dt s).clk with refLossesRc := sat 0xFF ((advance dt s).clk.refLossesRc + 1) } } :=
  congrArg Host.Outcome.next (if_pos (by simp [hawake, hlo, hhi]))

theorem exec_aonClockLost_running (hrun : (advance dt s).pwr.mode = .running) (hok : (advance dt s).clk.aonOk = true) :
    exec (.aonClockLost dt) s = .next (loseAon (advance dt s)) :=
  congrArg Host.Outcome.next ((if_neg (by rw [hrun]; decide)).trans (if_pos (by simp [hawake, hok])))

omit hawake in
theorem exec_aonClockLost_asleep (hsleep : (advance dt s).pwr.mode = .sleep) : exec (.aonClockLost dt) s =
    .next (askBoot (recordWake 4 0x0F 0x7F { advance dt s with clk := { (advance dt s).clk with aonOk := false } })) :=
  congrArg Host.Outcome.next (if_pos hsleep)

theorem exec_aonClockRestored_lost (hlost : (advance dt s).clk.aonOk = false) : exec (.aonClockRestored dt) s =
    .next (pinEvent 3 0 0 { advance dt s with clk := { (advance dt s).clk with aonOk := true, calOpen := true } }) :=
  congrArg Host.Outcome.next (if_pos (by simp [hawake, hlost]))

theorem exec_aonCalibration_open {ns : Nat} (hok : (advance dt s).clk.aonOk = true) (hopen : (advance dt s).clk.calOpen = true) :
    exec (.aonCalibration dt ns) s = .next { advance dt s with clk := { (advance dt s).clk with
      pAon := 16 * ns, ticks := ((advance dt s).clk.ticks + 2 ^ 20) % 2 ^ 48 } } :=
  congrArg Host.Outcome.next (if_pos (by simp [hawake, hok, hopen]))

theorem exec_tbSync_awake {k : Nat} (hk : k < (advance dt s).variant.stackDies) (hstack : stackAt (advance dt s) k = .awake) :
    exec (.tbSync dt k) s = .next { advance dt s with clk := { (advance dt s).clk with
      replicaOk := setNth (advance dt s).clk.replicaOk k true } } :=
  congrArg Host.Outcome.next (if_pos (by rw [hawake, hstack]; simpa using hk))

end

/-! ### FLT commands (15 R475, R480, R498) -/

section
variable {p : Packet} {s : State}

theorem faultLogBody_ok (hp : p.params = []) : faultLogBody p s =
    .ok (pack [(1, (faultList s).length), (3, 0)] ++ (faultList s).flatten) (rearmIbi 0x04 0 s) :=
  if_neg (not_not_intro hp)

theorem faultInjectBody_listed {u : Nat} (hlen : p.params.length = 12) (hres : resZero p.params 2 2 = true)
    (hunit : injectUnit (leAt p.params 0 2) = some u) :
    faultInjectBody p s = .ok [] (raiseFault (leAt p.params 0 2) u (leAt p.params 4 8) 2 s) := by
  unfold faultInjectBody
  simp [hlen, hres, hunit]

theorem faultInjectBody_unlisted (hunit : injectUnit (leAt p.params 0 2) = none) : faultInjectBody p s = .refuse 0x01C0 [] := by
  unfold faultInjectBody
  simp [hunit]

/-- A FRZ_READ of whole words at an aligned address: refused outside a freeze, and answered in one. -/
theorem frzReadBody_proper (hlen : p.params.length = 12) (hlo : 8 ≤ leAt p.params 8 4) (hhi : leAt p.params 8 4 ≤ 65472)
    (hwords : leAt p.params 8 4 % 8 = 0) (hal : leAt p.params 0 8 % 8 = 0) : frzReadBody p s =
    if !s.flt.frozen then .refuse 0x04C2 []
    else .ok ((freezeWords s (leAt p.params 0 8) (leAt p.params 8 4 / 8)).1 ++ le 4 0)
      (if (freezeWords s (leAt p.params 0 8) (leAt p.params 8 4 / 8)).2 then { s with jtag := { s.jtag with badAddr := true } } else s) :=
  if_neg (by simp [hlen, hlo, hhi, hwords, hal])

/-- In a freeze FRZ_READ passes the checks before its own, is stamped with the TB of the freeze, and no twin hears of it. -/
theorem runPacket_frozen {body : Body} {data : Bytes} {t : State} (hframing : p.framing = none) (hop : p.opcode = 0x0C06)
    (hfrozen : s.flt.frozen = true) (hbody : body p s = .ok data t) :
    runPacket body p s = reply p 0 (latestEpoch t) s.flt.frostTb data t := by
  have hfirst : refusedFirst p s = none := by simp [refusedFirst, hfrozen, hop]
  have hstandby : standbyCheck p s (.ok data t) = .ok data t := if_neg (by simp [hop, standbyRefuses])
  have hmirror : mirrorCommand p t = t := if_neg (by simp [hop, mirrored])
  unfold runPacket
  simp only [hframing, hfirst, hbody, hstandby, hmirror, hfrozen]
  rfl

end

/-- Settles O53, clause by clause from the laws of a fault, of its detections, of the clocks, and of the FLT commands. -/
theorem faultsAndClocks : Obligations.FaultsAndClocks := by
  refine ⟨?recovers, fun st un w fl s => raiseFault_freezes un w fl, fun self s => ⟨rfl, rfl, rfl, rfl⟩, ?sram, ?patrol, ?rows, ?asleep,
    ?log, ?inject, ?read⟩
  case recovers =>
    rintro st un w fl s _ rfl hunnamed
    obtain ⟨_, p, ⟨c, f, n, rfl⟩, hraise⟩ := raiseFault_recovers (un := un) (w := w) (fl := fl) hunnamed
    rw [hraise]
    exact ⟨⟨_, rfl⟩, ⟨_, _, rfl⟩, rfl, rfl, rfl, rfl, fun h => discardWork_sheets, rfl, rfl⟩
  case sram =>
    rintro dt b g s _ rfl hawake
    exact ⟨exec_sramScrub_corrected hawake g, exec_sramScrub_uncorrected hawake g, exec_sramScrub_clean dt g s⟩
  case patrol =>
    rintro dt x s _ _ rfl hawake rfl
    have hrow := exec_patrolScrub_awake hawake x
    refine ⟨(hrow 0).trans (congrArg _ (if_pos rfl)), hrow 1, fun hheld => ?_, fun hidle => ?_⟩
    · exact (hrow 2).trans (congrArg _ (if_pos hheld))
    · exact ⟨_, (hrow 2).trans (congrArg _ (if_neg (Bool.eq_false_iff.mp hidle))), told_fltEvent 3 0 (idleCleared x _)⟩
  case rows =>
    rintro dt x s _ rfl hawake
    refine ⟨exec_linkUncorrected_awake hawake x, exec_clockLost_awake hawake, exec_freeze_awake hawake,
      fun hx => ⟨exec_controlWatchdog_served hawake hx, fun hlate => ?_, fun hearly => ?_⟩, exec_refInterruption_counted hawake,
      exec_aonClockLost_running hawake, exec_aonClockRestored_lost hawake, exec_aonCalibration_open hawake, exec_tbSync_awake hawake⟩
    · exact (exec_controlWatchdog_unserved hawake hx).trans (congrArg _ (if_pos hlate))
    · exact (exec_controlWatchdog_unserved hawake hx).trans (congrArg _ (if_neg (Nat.not_lt.mpr hearly)))
  case asleep =>
    rintro dt s _ rfl hsleep
    exact exec_aonClockLost_asleep hsleep
  case log =>
    rintro dt h s _ rfl
    exact answers_of rfl fun p hp _ _ => faultLogBody_ok hp
  case inject =>
    rintro dt h q s _ rfl hlen hres
    refine ⟨fun u hunit => answers_of rfl fun p hp _ _ => ?_, fun hunit => declines_of rfl fun p hp _ _ => ?_⟩
    all_goals subst hp
    · exact faultInjectBody_listed hlen hres hunit
    · exact faultInjectBody_unlisted hunit
  case read =>
    rintro dt x n h q _ s _ _ rfl rfl rfl hlen hlo hhi hwords hal
    refine ⟨fun hrunning => declines_of rfl fun p hp _ _ => ?_, ?_⟩
    · subst hp
      exact (frzReadBody_proper hlen hlo hhi hwords hal).trans (if_pos (by rw [hrunning]; rfl))
    · rintro hfrozen hturn rfl rfl
      have hbody := (frzReadBody_proper (p := packetOf 0x0C06 h q (advance dt s)) (s := advance dt s) hlen hlo hhi hwords hal).trans
        (if_neg (by simp [hfrozen]))
      exact congrArg _ ((receive_turn hturn).trans (runPacket_frozen rfl rfl hfrozen hbody))

end Sys2Proof.Machine
end

section
/-! SUPPORT. The twin pair: its commands, heartbeats, role, takeover and handover (15 R488 to R498). -/
namespace Sys2Proof.Machine

/-! ### TWIN commands (R496, R498) -/

section
variable {p : Packet} {s : State} (hp : p.params = [])
include hp

theorem twinStatusBody_ok : twinStatusBody p s = .ok (pack [(1, s.twin.state), (1, s.twin.partner), (2, 0), (4, s.twin.mseq),
    (4, s.twin.acked), (4, s.twin.received), (8, s.twin.lastPulse), (8, s.twin.lastItem), (4, retainedKib s), (2, s.twin.partnerId), (2, 0)]) s :=
  if_neg (not_not_intro hp)

theorem twinTakeoverBody_standby (h : isStandby s = true) : twinTakeoverBody p s = .ok [] (takeOver s) :=
  (if_neg (not_not_intro hp)).trans (if_neg (by simp [h]))

theorem twinTakeoverBody_refuse (h : isStandby s = false) : twinTakeoverBody p s = .refuse 0x04C4 [] :=
  (if_neg (not_not_intro hp)).trans (if_pos (by simp [h]))

theorem twinHandoverBody_synced (h : s.twin.state = 1) :
    twinHandoverBody p s = .ok [] { s with twin := { s.twin with handover := true } } :=
  (if_neg (not_not_intro hp)).trans (if_neg (not_not_intro h))

theorem twinHandoverBody_refuse (h : s.twin.state ≠ 1) : twinHandoverBody p s = .refuse 0x04C4 [] :=
  (if_neg (not_not_intro hp)).trans (if_pos h)

end

/-! ### Heartbeats (R489, R497) -/

theorem twinOn_iff {s : State} : twinOn s = true ↔ awake s = true ∧ s.twin.state ≠ 0 := by
  simp [twinOn]

/-- A width that is read as a code lies within 1.5 µs of the code's. -/
theorem pulseCodeOf_some {w k : Nat} (h : pulseCodeOf w = some k) : 1 ≤ k ∧ k ≤ 4 ∧ 5000 * k ≤ w + 1500 ∧ w ≤ 5000 * k + 1500 := by
  have hlisted : k ∈ [1, 2, 3, 4] := List.mem_of_find?_eq_some h
  have hnear := List.find?_some h
  simp only [List.mem_cons, List.not_mem_nil, or_false] at hlisted
  simp only [Bool.and_eq_true, decide_eq_true_eq] at hnear
  omega

section
variable {dt w : Nat} {s : State}

theorem exec_heartbeat_due (hon : twinOn (advance dt s) = true)
    (hdue : (advance dt s).twin.lastBeat = 0 ∨ (advance dt s).twin.lastBeat + par (advance dt s) 0x0C000015 ≤ (advance dt s).clk.tb) :
    exec (.heartbeat dt) s = .next { advance dt s with
      twin := { (advance dt s).twin with lastBeat := (advance dt s).clk.tb }
      pins := { (advance dt s).pins with hbOut := true, hbEnds := some ((advance dt s).clk.tb + 5000 * (advance dt s).twin.state) } } :=
  congrArg Host.Outcome.next (if_pos (by simp [hon, hdue]))

theorem exec_heartbeat_early (hbeat : (advance dt s).twin.lastBeat ≠ 0)
    (hearly : (advance dt s).clk.tb < (advance dt s).twin.lastBeat + par (advance dt s) 0x0C000015) :
    exec (.heartbeat dt) s = .next (advance dt s) :=
  congrArg Host.Outcome.next (if_neg (by simp [hbeat, Nat.not_le.mpr hearly]))

theorem exec_heartbeatReceived_pulse {k : Nat} (hrun : (advance dt s).pwr.mode = .running) (hon : twinOn (advance dt s) = true)
    (hcode : pulseCodeOf w = some k) : exec (.heartbeatReceived dt w) s = .next (pulseIn k (advance dt s)) := by
  obtain ⟨hawake, hstate⟩ := twinOn_iff.mp hon
  show execHeartbeatReceived dt w s = _
  unfold execHeartbeatReceived
  simp [hrun, hawake, hstate, hcode]

theorem exec_heartbeatReceived_noise (hrun : (advance dt s).pwr.mode = .running) (hcode : pulseCodeOf w = none) :
    exec (.heartbeatReceived dt w) s = .next (advance dt s) := by
  show execHeartbeatReceived dt w s = _
  unfold execHeartbeatReceived
  simp [hrun, hcode]

theorem exec_heartbeatReceived_wakes (hsleep : (advance dt s).pwr.mode = .sleep) (hfirst : (advance dt s).pwr.waking = none)
    (hoff : par (advance dt s) 0x0C000010 = 0) (hwakes : par (advance dt s) 0x0C000019 = 1) :
    exec (.heartbeatReceived dt w) s = .next { advance dt s with pwr := { (advance dt s).pwr with waking := some 0x07 } } := by
  show execHeartbeatReceived dt w s = _
  unfold execHeartbeatReceived wakeCauseIn
  simp [hsleep, hfirst, hoff, hwakes]

end

/-! ### Role (R495) -/

section
variable {s u v : State} {r : Nat}

section
variable (hr : r = if s.twin.pulseCode = 1 ∨ s.twin.pulseCode = 2 ∨ par s 0x0C000011 = 1 then 4 else 2)
  (hu : u = startLink (setRole r (modTwin (fun t => { t with listening := none, lastBeat := 0 }) s)))
  (hv : v = postJudge .linkJudge (stamp u) (postJudge .hbJudge (stamp u) u))
include hr hu hv

/-- The part takes its role, starts the link, and posts the two judgements. -/
theorem settleRole_unawaited (h : v.boot.awaitRole = none) : settleRole s = v := by
  unfold settleRole
  simp only [or_assoc, ← hr, ← hu, ← hv, h]

/-- A profile has waited for the role: a primary takes its last steps. -/
theorem settleRole_awaited {m : Nat} {b : Bool} (h : v.boot.awaitRole = some (m, b)) : settleRole s =
    if r = 2 then finishProfile m b { v with boot := { v.boot with awaitRole := none } }
    else { v with boot := { v.boot with awaitRole := none } } := by
  unfold settleRole
  simp only [or_assoc, ← hr, ← hu, ← hv, h]
  rfl

end

theorem exec_roleSettle {dt t : Nat} (hlisten : (advance dt s).twin.listening = some t) (hawake : awake (advance dt s) = true) :
    exec (.roleSettle dt) s = .next (if t ≤ (advance dt s).clk.tb then settleRole (advance dt s) else advance dt s) := by
  show execRoleSettle dt s = _
  unfold execRoleSettle
  simp [hlisten, hawake]

end

/-! ### Takeover and handover (R488, R491, R492, R496) -/

/-- A ready standby takes over where it has lost heartbeat and link and may, or where it has been handed the part. -/
theorem takesOver_ready {s : State} (hstate : s.twin.state = 3) : takesOver s = true ↔
    (par s 0x0C00001A = 1 ∧ s.twin.hbLost = true ∧ s.twin.linkLost = true ∧ s.twin.pulseCode ≠ 2) ∨ s.twin.handover = true := by
  simp [takesOver, hstate, and_assoc]

/-- The part with its handover done, before it takes the standby's role. -/
def handoverDone (s : State) : State :=
  { s with twin := { s.twin with handover := false, snapDone := false, snapshot := false, snapEnd := 0, lastBeat := 0 } }

theorem ackLate_of_mem {s : State} {r : OutRecord} (hmem : r ∈ s.out.records) (hkind : r.kind ≠ 0) (hwaits : r.launched = false)
    (hunacked : s.twin.acked < r.mirrored) (hlate : r.commit + par s 0x0C000017 < s.clk.tb) : ackLate s = true :=
  List.any_eq_true.mpr ⟨r, hmem, by simp [hkind, hwaits, hunacked, hlate]⟩

section
variable {dt : Nat} {s : State} (hawake : awake (advance dt s) = true)
include hawake

theorem exec_takeover : exec (.takeover dt) s =
    .next (if takesOver (advance dt s) = true then takeOver (advance dt s) else advance dt s) := by
  show execTakeover dt s = _
  unfold execTakeover
  simp [hawake]

theorem exec_handoverComplete_all {v : State} (hprimary : isPrimary (advance dt s) = true) (hhand : (advance dt s).twin.handover = true)
    (hv : v = setRole 4 (handoverDone (advance dt s))) (hall : handedAll (advance dt s) = true) :
    exec (.handoverComplete dt) s = .next (startLink ((openStreams v).foldl (fun s k => closeStream k 0 s) v)) := by
  subst hv
  exact congrArg Host.Outcome.next (if_pos (by simp [hawake, hprimary, hhand, hall]))

omit hawake in
theorem exec_handoverComplete_owing (howing : handedAll (advance dt s) = false) :
    exec (.handoverComplete dt) s = .next (advance dt s) :=
  congrArg Host.Outcome.next (if_neg (by simp [howing]))

theorem exec_ackWaitExpiry_late (hstate : (advance dt s).twin.state = 1) (hlate : ackLate (advance dt s) = true) :
    exec (.ackWaitExpiry dt) s = .next (settleTwin { advance dt s with twin := { (advance dt s).twin with linkLost := true } }) :=
  congrArg Host.Outcome.next (if_pos (by simp [hawake, hstate, hlate]))

end

/-! ### What a part sends by itself (R486, R487) -/

section
variable {dt n : Nat} {s : State} (hon : twinOn (advance dt s) = true)
include hon

theorem exec_linkItemSend_message {x : Message} {xs : List Message} (hqueue : (chanAt (advance dt s) 29).queue = x :: xs) :
    exec (.linkItemSend dt) s =
      .next (roomMade 29 (mirror 8 (envelope 29 x) (modChan 29 (fun c => { c with queue := xs }) (advance dt s)))) := by
  show execLinkItemSend dt s = _
  unfold execLinkItemSend
  simp [hon, hqueue]

theorem exec_linkItemSend_link (hqueue : (chanAt (advance dt s) 29).queue = [])
    (hdue : (advance dt s).twin.lastSend + par (advance dt s) 0x0C000015 / 2 ≤ (advance dt s).clk.tb) :
    exec (.linkItemSend dt) s = .next (mirror 2 [] (advance dt s)) := by
  show execLinkItemSend dt s = _
  unfold execLinkItemSend
  simp [hon, hqueue, hdue]

/-- A standby answers a discarded item with NAK: always one that came broken, and one beyond a gap where it has not asked yet. -/
theorem exec_mirrorItemDiscarded_standby (hstandby : isStandby (advance dt s) = true) (hask : n < 2 ∨ (advance dt s).twin.nakFrom = none) :
    exec (.mirrorItemDiscarded dt n) s = .next (sendNak (advance dt s)) :=
  congrArg Host.Outcome.next (if_pos (by rcases hask with h | h <;> simp [hon, hstandby, h]))

omit hon in
theorem exec_mirrorItemDiscarded_other (hother : isStandby (advance dt s) = false) :
    exec (.mirrorItemDiscarded dt n) s = .next (advance dt s) :=
  congrArg Host.Outcome.next (if_neg (by simp [hother]))

end

/-- Settles O54, clause by clause from the laws of the TWIN commands and of the pair's events. -/
theorem twinCommandsAndEvents : Obligations.TwinCommandsAndEvents := by
  refine ⟨?commands, ?beat, fun w k => pulseCodeOf_some, ?pulse, ?role, ?takeover, ?handover, ?wait, ?send⟩
  case commands =>
    rintro dt h s _ rfl
    exact ⟨answers_of rfl fun p hp _ _ => twinStatusBody_ok hp,
      fun hstandby => answers_of rfl fun p hp _ _ => twinTakeoverBody_standby hp hstandby,
      fun hother => declines_of rfl fun p hp _ _ => twinTakeoverBody_refuse hp hother,
      fun hsynced => answers_of rfl fun p hp _ _ => twinHandoverBody_synced hp hsynced,
      fun hother => declines_of rfl fun p hp _ _ => twinHandoverBody_refuse hp hother⟩
  case beat =>
    rintro dt s _ rfl hon
    exact ⟨exec_heartbeat_due hon, exec_heartbeat_early⟩
  case pulse =>
    rintro dt w s _ rfl
    exact ⟨fun k => exec_heartbeatReceived_pulse, exec_heartbeatReceived_noise, exec_heartbeatReceived_wakes⟩
  case role =>
    intro dt t r s a u v ha hlisten hawake hr hu hv
    subst ha
    have hrow := exec_roleSettle hlisten hawake
    refine ⟨fun hdue hnone => ?_, fun m b hdue hsome => ?_, fun hearly => ?_⟩
    · rw [hrow, if_pos hdue, settleRole_unawaited hr hu hv hnone]
    · rw [hrow, if_pos hdue, settleRole_awaited hr hu hv hsome]
    · rw [hrow, if_neg (Nat.not_le.mpr hearly)]
  case takeover =>
    rintro dt s _ rfl hawake hstate
    have hready := takesOver_ready hstate
    refine ⟨fun htakes => ?_, fun hkept hfine => ?_⟩
    · rw [exec_takeover hawake, if_pos (hready.mpr htakes)]
    · have hstays : ¬ takesOver (advance dt s) = true := by
        rw [hready]
        rcases hfine with h | h | h <;> simp [h, hkept]
      rw [exec_takeover hawake, if_neg hstays]
  case handover =>
    rintro dt s _ _ _ rfl hawake hprimary hhand rfl rfl
    exact ⟨exec_handoverComplete_all hawake hprimary hhand rfl, exec_handoverComplete_owing⟩
  case wait =>
    rintro dt r s _ rfl hawake hstate hmem hkind hwaits hunacked hlate
    exact exec_ackWaitExpiry_late hawake hstate (ackLate_of_mem hmem hkind hwaits hunacked hlate)
  case send =>
    rintro dt n s _ rfl hon
    exact ⟨fun x xs => exec_linkItemSend_message hon, exec_linkItemSend_link hon,
      fun hstandby hbroken => exec_mirrorItemDiscarded_standby hon hstandby (.inl hbroken),
      fun hstandby hunasked => exec_mirrorItemDiscarded_standby hon hstandby (.inr hunasked), exec_mirrorItemDiscarded_other⟩

end Sys2Proof.Machine
end

section
/-! SUPPORT. The items of the mirror: their order, and what each leaves (15 R486, R487, R490). -/
namespace Sys2Proof.Machine

/-! ### Items in order and beyond a gap (R487) -/

/-- The part that has taken an item: its MSEQ is the latest received, and a resend is asked for no more. -/
def itemTaken (m : ItemHdr) (s : State) : State := { s with twin := { s.twin with received := m.mseq, nakFrom := none } }

theorem isStandby_itemTaken (m : ItemHdr) (s : State) : isStandby (itemTaken m s) = isStandby s := rfl

theorem atStandby_of {f : State → State} {s : State} (h : isStandby s = true) : atStandby f s = f s := if_pos h

theorem atStandby_other {f : State → State} {s : State} (h : isStandby s = false) : atStandby f s = s := if_neg (Bool.eq_false_iff.mp h)

section
variable {kind dt : Nat} {m : ItemHdr} {f : State → State} {s : State} (hon : twinOn (advance dt s) = true)
include hon

theorem itemRow_next (hseq : m.mseq = (itemHeard m (advance dt s)).twin.received + 1) :
    itemRow kind dt m f s = .next (settleTwin (f (itemTaken m (itemHeard m (advance dt s))))) := by
  have horder : inOrder kind m (itemHeard m (advance dt s)) = true := by simp [inOrder, hseq]
  have htake : takeItem kind m f (itemHeard m (advance dt s)) = f (itemTaken m (itemHeard m (advance dt s))) := if_pos horder
  exact (congrArg Host.Outcome.next (if_pos hon)).trans (congrArg (fun t => Host.Outcome.next (settleTwin t)) htake)

/-- What only a standby applies, at a standby. -/
theorem itemRow_standby (hseq : m.mseq = (itemHeard m (advance dt s)).twin.received + 1)
    (hstandby : isStandby (itemHeard m (advance dt s)) = true) :
    itemRow kind dt m (atStandby f) s = .next (settleTwin (f (itemTaken m (itemHeard m (advance dt s))))) := by
  rw [itemRow_next hon hseq, atStandby_of ((isStandby_itemTaken _ _).trans hstandby)]

/-- What only a standby applies, at a primary. -/
theorem itemRow_primary (hseq : m.mseq = (itemHeard m (advance dt s)).twin.received + 1)
    (hother : isStandby (itemHeard m (advance dt s)) = false) :
    itemRow kind dt m (atStandby f) s = .next (settleTwin (itemTaken m (itemHeard m (advance dt s)))) := by
  rw [itemRow_next hon hseq, atStandby_other ((isStandby_itemTaken _ _).trans hother)]

/-- Beyond a gap a standby asks for a resend once; HELLO and SNAPSHOT_BEGIN set the count anew instead. -/
theorem itemRow_gap (hstandby : isStandby (itemHeard m (advance dt s)) = true) (hprimary : isPrimary (itemHeard m (advance dt s)) = false)
    (hgap : (itemHeard m (advance dt s)).twin.received + 1 < m.mseq) (hkind : kind ≠ 10 ∧ kind ≠ 1) :
    itemRow kind dt m f s = .next (settleTwin (if (itemHeard m (advance dt s)).twin.nakFrom = none
      then sendNak (itemHeard m (advance dt s)) else itemHeard m (advance dt s))) := by
  have horder : ¬ inOrder kind m (itemHeard m (advance dt s)) = true := by
    simp [inOrder, hprimary, hkind, Nat.ne_of_gt hgap]
  have htake : takeItem kind m f (itemHeard m (advance dt s)) = if (itemHeard m (advance dt s)).twin.nakFrom = none
      then sendNak (itemHeard m (advance dt s)) else itemHeard m (advance dt s) := by
    refine (if_neg horder).trans ?_
    simp [hstandby, hgap]
  exact (congrArg Host.Outcome.next (if_pos hon)).trans (congrArg (fun t => Host.Outcome.next (settleTwin t)) htake)

end

/-! ### What items leave (R486, R490, R492) -/

/-- The ring's high state changes besides what is told. -/
theorem refreshHigh_told (s : State) : ∃ h, Told { s with out := { s.out with high := h } } (refreshHigh s) := by
  unfold refreshHigh
  simp only
  split_ifs
  · exact ⟨true, told_outEvent _ _ _ _ _⟩
  · exact ⟨false, told_outEvent _ _ _ _ _⟩
  · exact ⟨s.out.high, .refl s⟩

section
variable {n : Nat} {s : State}

theorem putEntries_told (l : List RingEntry) (s : State) :
    ∃ h, Told { s with out := { s.out with ring := s.out.ring ++ l, high := h } } (putEntries l s) :=
  refreshHigh_told { s with out := { s.out with ring := s.out.ring ++ l } }

theorem recordIn_keeps (q : Bytes) (s : State) :
    (recordIn q s).twin.retained = s.twin.retained.filter (fun r => r.recordNo != leAt q 52 4) ++ [⟨leAt q 52 4, leAt q 40 1, q⟩] ∧
    (recordIn q s).out.ring = s.out.ring.filter (fun e => e.kind != .record (leAt q 52 4)) ++ [⟨.record (leAt q 52 4), q.length, false, true⟩] ∧
    (recordIn q s).out.records = s.out.records := by
  obtain ⟨h, c, f, k, hput⟩ := putEntries_told [⟨.record (leAt q 52 4), q.length, false, true⟩]
    { s with out := { s.out with ring := s.out.ring.filter (fun e => e.kind != .record (leAt q 52 4)) } }
  unfold recordIn
  simp only [hput]
  exact ⟨rfl, rfl, rfl⟩

theorem sentIn_releases (n : Nat) (s : State) :
    (sentIn n s).twin.lastSent = n ∧ (sentIn n s).twin.retained = s.twin.retained.filter (fun r => earlier n r.recordNo) := by
  unfold sentIn
  simp only
  generalize hu : modTwin _ _ = u
  obtain ⟨h, c, f, k, hfresh⟩ := refreshHigh_told u
  rw [hfresh, ← hu]
  exact ⟨rfl, rfl⟩

theorem nakIn_held (hprimary : isPrimary s = true) (hheld : ∃ i ∈ s.twin.sentItems, i.mseq = n) :
    nakIn n s = (s.twin.sentItems.filter (fun i => decide (n ≤ i.mseq))).foldl (fun s i => sendItem i s) s :=
  (if_neg (by simp [hprimary])).trans (if_pos (by simpa using hheld))

theorem nakIn_gone (hprimary : isPrimary s = true) (hgone : ∀ i ∈ s.twin.sentItems, i.mseq ≠ n) : nakIn n s = sendSnapshot s :=
  (if_neg (by simp [hprimary])).trans (if_neg (by simpa using hgone))

end

/-- Settles O55: every item's row is an `itemRow`, so its order decides what becomes of it; then what the single items leave. -/
theorem twinItems : Obligations.TwinItems := by
  refine ⟨?rows, fun m s => ⟨_, _, rfl, rfl, rfl⟩, fun q s => ⟨rfl, rfl⟩, recordIn_keeps, sentIn_releases,
    fun n s hprimary => ⟨nakIn_held hprimary, nakIn_gone hprimary⟩⟩
  intro dt m q s a b u ha hon hb hu
  have htaken : u = itemTaken m b := hu
  rw [htaken, hb, ha]
  rw [ha] at hon
  refine ⟨fun hseq => ⟨?either, fun hstandby => ?standby, fun hother => ?primary⟩, fun hstandby hprimary hgap => ?gap⟩
  all_goals simp only [List.forall_mem_cons]
  case either =>
    exact ⟨itemRow_next hon hseq, itemRow_next hon hseq, itemRow_next hon hseq, itemRow_next hon hseq,
      fun _ h => absurd h List.not_mem_nil⟩
  case standby =>
    have hrow := fun kind f => itemRow_standby (kind := kind) (f := f) hon hseq hstandby
    exact ⟨hrow 3 _, hrow 4 _, hrow 5 _, hrow 6 _, hrow 7 _, hrow 10 _, hrow 11 _, fun _ h => absurd h List.not_mem_nil⟩
  case primary =>
    have hrow := fun kind f => itemRow_primary (kind := kind) (f := f) hon hseq hother
    exact ⟨hrow 3 _, hrow 4 _, hrow 5 _, hrow 6 _, hrow 7 _, hrow 10 _, hrow 11 _, fun _ h => absurd h List.not_mem_nil⟩
  case gap =>
    have hrow := fun kind f => itemRow_gap (kind := kind) (f := f) hon hstandby hprimary hgap
    exact ⟨hrow 2 _ (by decide), hrow 3 _ (by decide), hrow 4 _ (by decide), hrow 5 _ (by decide), hrow 6 _ (by decide),
      hrow 7 _ (by decide), hrow 8 _ (by decide), hrow 9 _ (by decide), hrow 11 _ (by decide), fun _ h => absurd h List.not_mem_nil⟩

end Sys2Proof.Machine
end
